-- ==== Sys2Proof/Word.lean ====
section
/-! DEFINITION. The plain words of the RTK7480 model: bytes, byte strings and the 32-bit register word. -/
namespace Sys2Proof

/-- One byte. -/
abbrev Byte := BitVec 8
/-- A byte string, lowest address first. -/
abbrev Bytes := List Byte
/-- A 32-bit register, or a register-sized bit map. -/
abbrev W32 := BitVec 32
/-- A 64-bit word of a check code, a seed or a pattern. -/
abbrev W64 := BitVec 64
/-- A location code of R14. -/
abbrev LocCode := BitVec 32

/-- Fine time (the FT of 00_scope): its order is that of R8 and leaves `opMinutes` out. -/
structure FT where
  powerCycle : Nat := 0
  opMinutes : Nat := 0
  turn : Nat := 0
  cycle : Nat := 0
deriving DecidableEq, Repr

end Sys2Proof
end

