-- ==== Sys2Proof/Syntax.lean ====
section
/-! DEFINITION. The commands of the block: one constructor of `Instr` per row of spec/opcode_table.json, with the
operands each row needs. The table gives no operands and no bits, so the operands are the model's own (log entry 2):
what the outside world supplies with the event. -/
namespace Sys2Proof

/-- A sector of 4,096 bytes without its trailing zero bytes, so that equal sectors are equal data. -/
abbrev Sector := Bytes

/-- A sector as a member returns it: 4,096 data bytes (trailing zeros left out) and its 64 tag bytes (R75, R104). -/
structure RawSector where
  data : Sector := []
  tag : Bytes := []
deriving DecidableEq, Repr

/-- The board straps, sampled once at cold reset (R545, R549). -/
structure Straps where
  recovery : Bool := false
  mportX4 : BitVec 6 := 0x3F
  smbAddr : BitVec 2 := 3
deriving DecidableEq, Repr

/-- A placement descriptor (R59, R89). `form` is 1 mirror, 2 classic, 3 Cauchy (R46). -/
structure Desc where
  form : Nat := 3
  k : Nat := 2
  m : Nat := 1
  shift : Nat := 16
  n : Nat := 3
  seed : BitVec 64 := 0
  rounds : Nat := 0
  gen : Nat := 1
deriving DecidableEq, Repr

/-- State of an intent record (R161). -/
inductive RecState where
  | opened | closing | retired
deriving DecidableEq, Repr

/-- An intent record (R161). -/
structure Rec where
  key : Nat := 0
  stripe : Nat := 0
  intentGen : Nat := 0
  closeGen : Nat := 0
  roleMask : Nat := 0
  twinSeq : Nat := 0
  descGen : Nat := 1
  st : RecState := .opened
  full : Bool := false
  mirrored : Bool := false
  repair : Bool := false
  dirty : Nat := 0
deriving DecidableEq, Repr

/-- Where a namespace is attached (R388). -/
structure NsLoc where
  remote : Bool := false
  port : Nat := 0
  nsid : Nat := 0
  node : Nat := 0
  exp : Nat := 0
deriving DecidableEq, Repr

/-- A fault as a unit reports it (R442, R443). `loc` none means the element R575 gives. -/
structure FaultIn where
  source : Nat
  loc : Option LocCode := none
  cell : Option Nat := none
  master : Option Nat := none
  access : Nat := 0
  size : Nat := 0xFF
  addr : Option Nat := none
  space : Nat := 0xFF
deriving DecidableEq, Repr

/-- The data pointer of an NVMe command (R351): a PRP pair, or the SGL descriptors as (type, subtype, address, length). -/
inductive Dptr where
  | prp (p1 p2 : Nat)
  | sgl (descs : List (Nat × Nat × Nat × Nat))
deriving DecidableEq, Repr

/-- A submission queue entry as fetched from host memory (R339). -/
structure SqEntry where
  opc : Nat := 0
  cid : Nat := 0
  psdt : Nat := 0
  nsid : Nat := 0
  dptr : Dptr := .prp 0 0
  cdw3 : Nat := 0
  cdw10 : Nat := 0
  cdw11 : Nat := 0
  cdw12 : Nat := 0
  cdw13 : Nat := 0
  cdw14 : Nat := 0
  cdw15 : Nat := 0
deriving DecidableEq, Repr

/-- A kiln car descriptor (R419, R420). -/
structure KcDesc where
  op : Nat := 1
  srcSpace : Nat := 0
  dstSpace : Nat := 0
  index : Nat := 0
  index64 : Bool := false
  crc : Nat := 0
  crcContinue : Bool := false
  crcAppend : Bool := false
  record : Bool := false
  last : Bool := false
  relaxed : Bool := false
  reservedNonzero : Bool := false
  reqLine : Nat := 0xFF
  srcWidth : Nat := 0
  dstWidth : Nat := 0
  byteCount : Nat := 1
  srcStride : Nat := 0
  dstStride : Nat := 0
  srcAddr : Nat := 0
  dstAddr : Nat := 0
  indexAddr : Nat := 0
  next : Nat := 0
  tag : Nat := 0
deriving DecidableEq, Repr

/-- Status of a PCIe completion for a device request (R317). -/
inductive CplStatus where
  | ok | unsupported | abort | poisoned
deriving DecidableEq, Repr

/-- An ATS translation completion (R314). -/
inductive AtsResult where
  | granted (page : Nat) (read write : Bool)
  | untranslatedOnly
  | denied
  | error (s : CplStatus)
deriving DecidableEq, Repr

/-- How a member command ended (R194, R197, R207). -/
inductive MStatus where
  | ok | unreadable | failed | aborted
deriving DecidableEq, Repr

/-- An array's entry for one member (R92), with the runtime condition of R192 beside the STATE on media.
`state` is 1 ACTIVE, 2 FAILED, 3 REPLACING, 4 ADDING. -/
structure MemEntry where
  uid : Nat := 0
  state : Nat := 1
  fmt : Nat := 0
  remote : Bool := false
  node : Nat := 0
  port : Nat := 0xFFFF
  dataStart : Nat := 0
  dataSectors : Nat := 0
  failPc : Nat := 0
  failMin : Nat := 0
deriving DecidableEq, Repr

/-- A relocation entry (R96). `state` is 1 REBUILDING, 2 REBUILT, 3 COPYBACK, 4 HOME. -/
structure Reloc where
  seq : Nat := 1
  descGen : Nat := 1
  lost : Nat := 0
  state : Nat := 1
  first : Nat := 0
  stop : Nat := 0
  doneRound : Nat := 0
  homeRound : Nat := 0
  exclude : List Nat := []
deriving DecidableEq, Repr

/-- A volume record (R93); `state` is 1 ACTIVE, 2 DELETING. -/
structure Volume where
  id : Nat := 1
  state : Nat := 1
  lbaf : Nat := 0
  nsid : Nat := 1
  nguid : Nat := 0
  capacity : Nat := 0
  policy : BitVec 64 := 0
deriving DecidableEq, Repr

/-- An extent (R95). -/
structure Extent where
  vol : Nat := 1
  start : Nat := 0
  len : Nat := 0
  base : Nat := 0
deriving DecidableEq, Repr

/-- A lost extent entry (R103): cause 1 erasures, 2 incomplete vault. -/
structure LostExt where
  lba : Nat := 0
  sectors : Nat := 1
  cause : Nat := 1
deriving DecidableEq, Repr

/-- The body of a mark (R81, R88): an array's metadata. -/
structure MarkBody where
  uid : Nat := 0
  gen : Nat := 0
  migrating : Bool := false
  readOnly : Bool := false
  lostOverflow : Bool := false
  members : List MemEntry := []
  relocs : List Reloc := []
  volumes : List Volume := []
  extents : List Extent := []
  lost : List LostExt := []
  genFloor : Nat := 0
  migrateLba : Nat := 0
  journalMembers : List Nat := []
  relocSeqNext : Nat := 1
  volumeIdNext : Nat := 1
  desc : Desc := {}
  descNext : Option Desc := none
  name : Bytes := []
deriving DecidableEq, Repr

/-- The current mark of a namespace as the device finds it (R82 to R84, R389). -/
structure MarkInfo where
  uid : Nat := 0
  arrayUid : Nat := 0
  pool : Nat := 0xFFFF
  gen : Nat := 0
  writer : BitVec 128 := 0
  copyB : Bool := false
  journal : Nat := 65536
  vault : Nat := 0
  dataStart : Nat := 0
  dataSectors : Nat := 0
  /-- for a mark of the bound partner: the array ID under which it serves the array, and the body (R576) -/
  peer : Option (Nat × MarkBody) := none
deriving DecidableEq, Repr

/-- Identity data a member namespace reports (R73, R76, R106, R193, R235, R391). `fmt` is the current LBA format: 0 4096+64,
1 4096+0, more another block size. `mdts` is in sectors, 0 no limit. -/
structure NsIdent where
  uid : Nat := 0
  capacity : Nat := 0
  offers64 : Bool := false
  offers0 : Bool := true
  fmt : Nat := 1
  pi : Bool := false
  mdts : Nat := 0
  volatileCache : Bool := false
  wzLimit : Nat := 0
  deallocZero : Bool := false
  /-- limits of one Dataset Management command: ranges, and blocks per range, 0 for none (R106) -/
  dsmRanges : Nat := 0
  dsmBlocks : Nat := 0
  /-- MDTS below 4 KiB -/
  mdtsTiny : Bool := false
  /-- the bound partner reaches the namespace too -/
  twin : Bool := false
  mark : Option MarkInfo := none
deriving DecidableEq, Repr

/-- One member's mark as a scan finds it (R84, R121). -/
structure MarkScan where
  loc : NsLoc := {}
  valid : Bool := true
  versionAbove1 : Bool := false
  uid : Nat := 0
  poolIndex : Nat := 0xFFFF
  writer : BitVec 128 := 0
  bodyCrc : Nat := 0
  dataStart : Nat := 0
  dataSectors : Nat := 0
  journal : Nat := 65536
  vault : Nat := 0
  body : MarkBody := {}
deriving DecidableEq, Repr

/-- A vault payload sector found at recovery (R119, R182), usable under R120. -/
structure VaultSector where
  key : Nat := 0
  lba : Nat := 0
  intentGen : Nat := 0
  volume : Nat := 0
  copyIndex : Nat := 0
  dumpSeq : Nat := 0
  pi : Bytes := []
  data : Sector := []
deriving DecidableEq, Repr

/-- What recovery reads from the members of one array (R181, R182, R184). `slices` gives, for each stripe and slice,
the sectors of its roles; a role that is absent could not be read. -/
structure RecoveryInput where
  array : Nat := 0
  ring : List Rec := []
  ownBad : List Nat := []
  markWriterOk : Bool := true
  vault : List VaultSector := []
  slices : List (Nat × Nat × List (Nat × RawSector)) := []
deriving DecidableEq, Repr

/-- One line as a Slip LINE message carries it (R245). -/
structure SlipLine where
  key : Nat := 0
  lba : Nat := 0
  volume : Nat := 0
  index : Nat := 0
  count : Nat := 1
  intentGen : Nat := 0
  admitSeq : Nat := 0
  pi : Bytes := []
  data : Sector := []
deriving DecidableEq, Repr

/-- A Slip message of R244; the header fields MSG_SEQ, SIDE and ARRAY_KEY travel in the rows' operands. -/
inductive SlipMsg where
  | hello (device bound : BitVec 128) (powerCycle mode lenSel part : Nat)
  | records (recs : List Rec)
  | line (l : SlipLine) (twinSeq : Nat)
  | ends (seqs : List Nat)
  | progress (markGen directRound : Nat) (entries : List (Nat × Nat × Nat))
  | snapshotBegin
  | snapshotEnd
  | handover (done : Bool) (lastAdmit : Nat)
  | statePage (pageSeq : Nat) (lines : List (SlipLine × Nat)) (recs : List Rec) (ends : List Nat)
deriving DecidableEq, Repr

/-- The header of a Slip flit as the receiver sees it (R239); `crcOk` is the outcome of the CRC check. -/
structure Flit where
  crcOk : Bool := true
  kind : Nat := 0
  start : Bool := false
  nak : Bool := false
  linkSeq : Nat := 0
  linkAck : Nat := 0
  session : Nat := 0
  mirrorAck : Nat := 0
deriving DecidableEq, Repr

/-- The header of a received Coil packet (R270, R271). `authentic` is the outcome of the GCM check of R281 step 3. -/
structure CoilHdr where
  version : Nat := 1
  sizeOk : Bool := true
  authentic : Bool := true
  keySlot : Bool := false
  src : Nat := 0
  dst : Nat := 0
  epoch : Nat := 0
  block : Nat := 0
  index : Nat := 0
  msgId : Nat := 0
  msgLen : Nat := 1
  offset : Nat := 0
  tag : Nat := 0
  ackIndex : Nat := 0
  xmit : Nat := 0
  ece : Bool := false
  ce : Bool := false
  pmax : Bool := false
  notify : Bool := false
  port : Nat := 0
deriving DecidableEq, Repr

/-- Unfinished granted work that a unit reports at a turn boundary (R36). -/
structure Overrun where
  loc : LocCode := 0
  kiln : Option Nat := none
  channel : Option Nat := none
  charge : Nat := 0
deriving DecidableEq, Repr

/-- What a kiln car burst served (R424): a channel's stream bytes with the destination offsets read from its index table, a
job of the array engine, or a sector of a host read. -/
inductive BurstRef where
  | channel (ch : Nat) (data : Bytes) (index : List Nat)
  | job (id slice : Nat)
  | hostRead (sqid cid sector : Nat)
deriving DecidableEq, Repr

/-- A link that can retrain (R22). -/
inductive LinkRef where
  | port (p : Nat)
  | slip
  | coil (p : Nat)
deriving DecidableEq, Repr

/-- Results of one lane of a pattern test (R533, R542). -/
structure LaneResult where
  lane : Nat := 0
  locked : Bool := false
  errors : Nat := 0
  bits : Nat := 0
  worst : Nat := 0
deriving DecidableEq, Repr

/-- The manifest of a flash slot as the boot chain reads it (R462, R463). -/
structure Manifest where
  wellFormed : Bool := true
  sigOk : Bool := true
  secVersion : Nat := 0
  fwVersion : Nat := 0
  microcode : Nat := 0
  cosigAlg : Nat := 0
  cosigOk : Bool := false
  /-- bytes 0 to 511 -/
  raw : Bytes := []
  digests : List (BitVec 256) := []
deriving DecidableEq, Repr

/-- A TAP instruction (R539). -/
inductive TapInstr where
  | bypass | idcode | sample | extest | extestPulse | extestTrain | clamp | highz
deriving DecidableEq, Repr

/-- A happening for the Kiln Log (R491, R492). -/
structure Happening where
  kind : Nat := 1
  keyA : Nat := 0
  keyB : Nat := 0
  sev : Nat := 0
  detail : List Nat := []
deriving DecidableEq, Repr

/-- The two sides of a crossing with a one-sided reset (R520). -/
structure CrossNote where
  unit : Nat := 0
  lastAccepted : Nat := 0
deriving DecidableEq, Repr

/-- The commands of the block. -/
inductive Instr where
  /-- AUX_POWER_ON: VDD_AUX comes within limits and the aux power-on reset releases, starting a cold reset. -/
  | auxPowerOn (straps : Straps) (torn : List Nat)
  /-- AUX_POWER_REMOVED: Aux supplies are removed, ending FATAL state and THERMTRIP#. -/
  | auxPowerRemoved
  /-- MAIN_PWROK_ASSERTED: Main supplies are good; PLLs lock, the die-to-die link trains and boot proceeds, or main power returns with aux held. -/
  | mainPwrokAsserted (failedLanes : List (Nat × Nat)) (failedKilns : List Nat)
  /-- MAIN_PWROK_DEASSERTED: A filtered MAIN_PWROK fall is an immediate loss of main power; the data path stops and no dump runs. -/
  | mainPwrokDeasserted
  /-- PFAIL_FALL: PFAIL# goes low and the 200 ns glitch filter starts. -/
  | pfailFall
  /-- PFAIL_RISE: PFAIL# goes high; a pulse shorter than the filter is counted in PFAIL_GLITCHES, and the 10 ms resume count starts. -/
  | pfailRise
  /-- FILTERED_ASSERTION: PFAIL# has been low for 200 ns; a dump, a hold or a stop of recovery follows at the next turn boundary. -/
  | filteredAssertion
  /-- RESUME_COUNT_EXPIRED: PFAIL# has been deasserted for 10 ms continuously; a hold may resume or power-on recovery may start. -/
  | resumeCountExpired
  /-- ARRAY_RECOVERY_START: After cold reset and 10 ms of PFAIL# deassertion the device recovers each array before admitting host commands. -/
  | arrayRecoveryStart (inputs : List RecoveryInput)
  /-- PERST_ASSERTED: PERST# asserts; the endpoint and queue engine reset and host-touching descriptors end with HOST_RESET. -/
  | perstAsserted
  /-- PERST_DEASSERTED: PERST# deasserts; configuration requests get CRS until the device is ready. -/
  | perstDeasserted
  /-- HOST_LINK_TRAINED: The host link finishes training; a low width or speed raises HOST_LINK_DEGRADED. -/
  | hostLinkTrained (speed width : Nat) (flit : Bool)
  /-- HOST_LINK_DOWN: A host link down without PERST# applies the PERST# effects at the next turn boundary and raises HOST_SURPRISE_DOWN. -/
  | hostLinkDown
  /-- CONFIG_REQUEST: A configuration request arrives and is answered, with CRS while the device is not ready. -/
  | configRequest (write : Bool) (reg value : Nat)
  /-- FLR: A function level reset is initiated; the function state resets and host requests are abandoned. -/
  | flr
  /-- FLR_COMPLETE: The FLR finishes within 10 ms and the function answers requests again. -/
  | flrComplete
  /-- D3HOT_ENTRY: The function enters D3hot; fetch and admission stop at the next turn boundary. -/
  | d3hotEntry
  /-- D3HOT_TO_D0: The function returns from D3hot to D0, performing the FLR effects. -/
  | d3hotToD0
  /-- BAR_SIZE_WRITE: A write to the BAR4 Size field takes effect only while Memory Space Enable is clear. -/
  | barSizeWrite (log2 : Nat)
  /-- EXPANSION_ROM_READ: A read of the expansion ROM window is served from the boot flash option ROM partition. -/
  | expansionRomRead (off len : Nat)
  /-- PEER_WINDOW_REQUEST: A memory request to BAR4 is translated through the active segment table or rejected with Unsupported Request. -/
  | peerWindowRequest (write : Bool) (off len : Nat) (poisoned : Bool) (data : Bytes)
  /-- PW_COMMIT: A write of COMMIT in PW_COMMIT sets PENDING for a copy of the staged segment table. -/
  | pwCommit (value : Nat)
  /-- MSIX_TABLE_WRITE: A write to an MSI-X table entry changes its mask; unmasking sends a pending message. -/
  | msixTableWrite (off : Nat) (data : Bytes)
  /-- TRANSLATION_COMPLETION: An ATS translation completion arrives and is cached or ends the command. -/
  | translationCompletion (sqid cid page : Nat) (needWrite : Bool) (res : AtsResult)
  /-- ATS_INVALIDATE_REQUEST: An Invalidate Request arrives; covered translations are no longer used. -/
  | atsInvalidateRequest (itag page pages : Nat)
  /-- INVALIDATION_COMPLETE: Requests issued with the invalidated translations have ended and the Invalidation Completion is sent. -/
  | invalidationComplete (itag : Nat)
  /-- HOST_COMPLETION_RECEIVED: A PCIe completion for a device request arrives; an error status is a bus error and a late one is discarded. -/
  | hostCompletionReceived (tag : Nat) (st : CplStatus) (addr : Nat)
  /-- COMPLETION_TIMEOUT: A non-posted request exceeds the completion timeout in force; this is a bus error. -/
  | completionTimeout (tag : Nat) (addr : Nat)
  /-- TAG_QUARANTINE_EXPIRED: A quarantined PCIe tag becomes reusable after the timeout value plus 10 ms. -/
  | tagQuarantineExpired (tag : Nat)
  /-- TURN_BOUNDARY: The turn field increments, budgets refresh and granted work starts. -/
  | turnBoundary (unfinished : List Overrun)
  /-- PLANNING_WINDOW: The last 1/16 of a turn opens and the scheduler plans the next turn. -/
  | planningWindow
  /-- GATHER_AGE_EXPIRED: An open stripe's gather age expires and it becomes ready to close. -/
  | gatherAgeExpired (array stripe : Nat)
  /-- FT_SNAP0_READ: A read of FT_SNAP0 latches fine time into FT_SNAP0 to FT_SNAP3. -/
  | ftSnap0Read
  /-- RC_REGISTER_READ: A read of an RC register returns its value and clears it. -/
  | rcRegisterRead (off : Nat)
  /-- LO_REGISTER_READ: A read of a LO register latches its HI partner. -/
  | loRegisterRead (off : Nat)
  /-- HI_REGISTER_READ: A read of a HI register returns the latched value and releases the latch. -/
  | hiRegisterRead (off : Nat)
  /-- REGISTER_WRITE: A write to a register that has no row of its own updates it under its access code. -/
  | registerWrite (off value : Nat)
  /-- RESERVED_ACCESS: An access to reserved space or a malformed write is ignored and counted in RESERVED_ACCESSES. -/
  | reservedAccess (off : Nat) (write : Bool)
  /-- ABSENT_UNIT_ACCESS: An access to a register of an absent unit reads zero, is ignored on write, is counted and raises a NOTE fault. -/
  | absentUnitAccess (off : Nat) (write : Bool)
  /-- GLOBAL_EVENT_WRITE: A W1C write to GLOBAL_EVENT clears bits, or a bit stays set and signals again when an event coincides. -/
  | globalEventWrite (value : Nat) (coincident : BitVec 4)
  /-- KILN_PIECE_COMPLETE: Both engines of a kiln have consumed the last source byte of a piece and its outputs are buffered. -/
  | kilnPieceComplete (job slice : Nat)
  /-- DECODE_MATRIX_DERIVED: A kiln matrix unit finishes deriving a decode matrix for an erasure set. -/
  | decodeMatrixDerived (kiln array : Nat) (erased : List Nat)
  /-- PERMUTATION_COMPUTED: The saggar controller finishes computing a round permutation into the placement cache. -/
  | permutationComputed (array descGen round : Nat)
  /-- KILN_MEM_ERROR: A kiln memory error is corrected in line or raises an uncorrectable fault that fences the kiln. -/
  | kilnMemError (kiln engine lane macroNo : Nat) (cell : Option Nat) (correctable : Bool)
  /-- SAGGAR_PIECE_COMPLETE: A saggar piece, such as the write of both copies of a PENDING line, completes. -/
  | saggarPieceComplete (line : Nat)
  /-- DDR_ECC_ERROR: A DDR access finds an ECC error; it is corrected or raised as uncorrectable with fallback to the paired copy. -/
  | ddrEccError (channel line : Nat) (pairedCopy correctable : Bool)
  /-- BURST_COMPLETE: A kiln car burst's reads have returned and its writes have been issued. -/
  | burstComplete (ref : BurstRef)
  /-- HOST_DATA_LANDED: Host write data lands and its protection information is checked. -/
  | hostDataLanded (sqid cid sector : Nat) (data : Sector) (pi : Bytes)
  /-- COMPLETION_POST: The queue engine posts a completion entry after the command's conditions are met, then signals the vector. -/
  | completionPost (sqid cid : Nat)
  /-- COMMAND_FETCH: The queue engine fetches a command from a submission queue into its holding area. -/
  | commandFetch (sqid : Nat) (entry : SqEntry)
  /-- COALESCING_TIMER: Coalescing time elapses for a vector's oldest unannounced entry and the vector signals. -/
  | coalescingTimer (vector : Nat)
  /-- CONTROLLER_READY: After CC.EN is set with valid fields, RDY is set. -/
  | controllerReady
  /-- CC_ENABLE: CC.EN changes from 0 to 1 and the controller starts becoming ready. -/
  | ccEnable (value : Nat)
  /-- CC_DISABLE: CC.EN changes from 1 to 0 and the controller resets, deleting every queue. -/
  | ccDisable (value : Nat)
  /-- SHUTDOWN_NOTIFICATION: SHN is written; fetch stops and SHST becomes complete when admitted commands finish. -/
  | shutdownNotification (value : Nat)
  /-- INTMS_WRITE: A write to INTMS sets interrupt mask bits in MSI and INTx modes. -/
  | intmsWrite (value : Nat)
  /-- INTMC_WRITE: A write to INTMC clears interrupt mask bits in MSI and INTx modes. -/
  | intmcWrite (value : Nat)
  /-- SQ_TAIL_DOORBELL: A submission queue tail doorbell write, ignored with an Error event when invalid. -/
  | sqTailDoorbell (qid value : Nat)
  /-- CQ_HEAD_DOORBELL: A completion queue head doorbell write releases entries, ignored with an Error event when invalid. -/
  | cqHeadDoorbell (qid value : Nat)
  /-- DELETE_IO_SUBMISSION_QUEUE: Admin command that stops fetch from a queue and completes after its admitted commands. -/
  | deleteIoSubmissionQueue (cid : Nat)
  /-- CREATE_IO_SUBMISSION_QUEUE: Admin command that creates an I/O submission queue after ordered checks. -/
  | createIoSubmissionQueue (cid : Nat)
  /-- GET_LOG_PAGE: Admin command that returns a supported log page. -/
  | getLogPage (cid : Nat)
  /-- DELETE_IO_COMPLETION_QUEUE: Admin command that deletes an I/O completion queue with no attached submission queue. -/
  | deleteIoCompletionQueue (cid : Nat)
  /-- CREATE_IO_COMPLETION_QUEUE: Admin command that creates an I/O completion queue after ordered checks. -/
  | createIoCompletionQueue (cid : Nat)
  /-- IDENTIFY: Admin command that returns controller or namespace identify data. -/
  | identify (cid : Nat)
  /-- ABORT: Admin command that removes a fetched, unadmitted target command. -/
  | abortCmd (cid : Nat)
  /-- SET_FEATURES: Admin command that sets a supported feature. -/
  | setFeatures (cid : Nat) (data : Bytes)
  /-- GET_FEATURES: Admin command that returns a feature value. -/
  | getFeatures (cid : Nat)
  /-- ASYNCHRONOUS_EVENT_REQUEST: Admin command that waits to report an asynchronous event. -/
  | asynchronousEventRequest (cid : Nat)
  /-- FLUSH: I/O command that completes after earlier writes, and with FLUSH_TO_MEDIA after their closes. -/
  | flush (sqid cid : Nat)
  /-- WRITE: I/O command that writes sectors through PENDING lines that commit together. -/
  | write (sqid cid : Nat)
  /-- READ: I/O command served sector by sector from saggar hits, cut-through misses or reconstruction. -/
  | read (sqid cid : Nat)
  /-- WRITE_ZEROES: I/O command that writes zero data with no host transfer. -/
  | writeZeroes (sqid cid : Nat)
  /-- DATASET_MANAGEMENT: Advisory I/O command with no effect on data. -/
  | datasetManagement (sqid cid : Nat)
  /-- VERIFY: I/O command that reads and checks like a Read without transfer. -/
  | verify (sqid cid : Nat)
  /-- MEMBER_COMMAND_COMPLETE: A member NVMe command completes, successfully or with an error. -/
  | memberCommandComplete (mcid : Nat) (st : MStatus) (data : List RawSector)
  /-- DONE_ROUND_PERSIST_TIMER: The 10 s timer expires and the exact DONE_ROUND values are written to the marks. -/
  | doneRoundPersistTimer
  /-- MEMBER_LINK_DOWN: A member port link goes down or starts to retrain and the member becomes UNAVAILABLE. -/
  | memberLinkDown (port : Nat)
  /-- LINK_ERROR_THRESHOLD: A member port, Slip link or Coil port reaches its error threshold and retrains. -/
  | linkErrorThreshold (link : LinkRef)
  /-- PORT_TRAINING_COMPLETE: A member port, Slip or Coil port link finishes training. -/
  | portTrainingComplete (link : LinkRef) (ok : Bool) (lanes : Nat)
  /-- MEMBER_IDENTITY_READ: After a link returns the identity read-back completes and the member returns to HEALTHY or is declared FAILED. -/
  | memberIdentityRead (ns : Nat) (ident : NsIdent)
  /-- UNAVAIL_LIMIT_EXPIRED: A member stays UNAVAILABLE past UNAVAIL_LIMIT and is declared FAILED. -/
  | unavailLimitExpired (ns : Nat)
  /-- CONTROLLER_FATAL: A member reports Controller Fatal Status and is declared FAILED at once. -/
  | controllerFatal (ns : Nat)
  /-- MEMBER_TIMEOUT_EXPIRED: A member command times out; an Abort is sent and the member becomes UNAVAILABLE. -/
  | memberTimeoutExpired (mcid : Nat)
  /-- MEMBER_ABORT_TIMEOUT: An Abort does not complete within 1,000 ms and the member controller is reset. -/
  | memberAbortTimeout (mcid : Nat)
  /-- MEMBER_CONTROLLER_RESET_DONE: A member controller reset completes, ending timed-out commands. -/
  | memberControllerResetDone (port : Nat) (ok : Bool)
  /-- MEMBER_LATE_COMPLETION: A member completion arrives after its timeout and is discarded and counted. -/
  | memberLateCompletion (mcid : Nat)
  /-- CID_QUARANTINE_EXPIRED: A quarantined member command identifier becomes reusable. -/
  | cidQuarantineExpired (mcid : Nat)
  /-- SLOW_READ_EXPIRED: A member read outstanding for SLOW_READ also triggers a reconstruction. -/
  | slowReadExpired (mcid : Nat)
  /-- PATROL_SCRUB_DUE: SCRUB_PERIOD days of op_minutes have passed and a REPAIR patrol scrub starts. -/
  | patrolScrubDue (array : Nat)
  /-- PRSNT_CHANGE: A member PRSNT# input changes and its 100 ms debounce starts. -/
  | prsntChange (port : Nat) (present : Bool)
  /-- PRSNT_DEBOUNCE_EXPIRED: A debounced insertion powers the port, or a removal stops it and declares the member FAILED. -/
  | prsntDebounceExpired (port : Nat)
  /-- MEMBER_PERST_DELAY_EXPIRED: 100 ms after insertion the port's PERST# deasserts and the link trains. -/
  | memberPerstDelayExpired (port : Nat)
  /-- SLIP_FLIT_RECEIVED: A Slip flit arrives and is accepted or discarded with NAK; NAK and acknowledgement fields act on the replay buffer. -/
  | slipFlitReceived (f : Flit)
  /-- SLIP_SILENCE_TIMEOUT: No valid flit for 100 µs takes the Slip link down. -/
  | slipSilenceTimeout
  /-- SLIP_LINK_UP: The Slip link comes UP with both HELLOs and the devices resynchronise by snapshot. -/
  | slipLinkUp
  /-- HELLO: Slip message naming partner, mode and turn length, checked before mirroring begins. -/
  | hello (seq : Nat) (device bound : BitVec 128) (powerCycle mode lenSel part : Nat)
  /-- RECORDS: Slip message carrying intent records, written to the partner area. -/
  | records (seq side : Nat) (recs : List Rec)
  /-- LINE: Slip message carrying one dirty line, held as a MIRROR line. -/
  | line (seq side twinSeq : Nat) (l : SlipLine)
  /-- END: Slip message naming writes that ended uncommitted; their MIRROR lines are freed. -/
  | endMsg (seq side key : Nat) (seqs : List Nat)
  /-- PROGRESS: Slip message carrying mark generation and round progress. -/
  | progress (seq key markGen directRound : Nat) (entries : List (Nat × Nat × Nat))
  /-- SNAPSHOT_BEGIN: Slip message opening a resynchronisation snapshot. -/
  | snapshotBegin (seq : Nat)
  /-- SNAPSHOT_END: Slip message closing a snapshot; once acknowledged, STATE becomes MIRRORING. -/
  | snapshotEnd (seq : Nat)
  /-- HANDOVER: Slip message RELEASE or DONE of a planned array move. -/
  | handover (seq key : Nat) (done : Bool) (lastAdmit : Nat)
  /-- STATE_PAGE: Full-state mode Slip message carrying lines, records and ends. -/
  | statePage (seq side pageSeq : Nat) (lines : List (SlipLine × Nat)) (recs : List Rec) (ends : List Nat)
  /-- PARTNER_LOST: The Slip link has not been UP for LOSS_WAIT; side 0 begins takeover. -/
  | partnerLost
  /-- SIDE1_DELAY_EXPIRED: Side 1 waits SIDE1_DELAY, checks its registrations and may begin takeover. -/
  | side1DelayExpired (registered : Bool)
  /-- RESERVATION_CHECK_DUE: Every 10 ms while the link is down a Reservation Report is issued for each owned array. -/
  | reservationCheckDue
  /-- RESERVATION_REPORT_DONE: A Reservation Report completes; a removed registration stands the array down. -/
  | reservationReportDone (array : Nat) (registered : Bool)
  /-- FENCE_WAIT_EXPIRED: FENCE_WAIT after the last acquire ends; the survivor restores lines, resynchronises and persists ownership. -/
  | fenceWaitExpired (array : Nat) (input : RecoveryInput)
  /-- MOVE_DRAIN_COMPLETE: The owner's admitted commands, closes and mirror messages have drained and HANDOVER RELEASE is sent. -/
  | moveDrainComplete (array : Nat)
  /-- DRILL_HOLD_EXPIRED: HOLD_S seconds after a swap drill move the array moves back. -/
  | drillHoldExpired (array : Nat)
  /-- OPEN: Coil packet opening an association; the responder replies with a CHALLENGE. -/
  | openReq (h : CoilHdr) (openerBase : Nat)
  /-- CHALLENGE: Coil packet carrying a cookie; the opener replies with CONFIRM. -/
  | challenge (h : CoilHdr) (openerBase cookie : Nat)
  /-- CONFIRM: Coil packet carrying the cookie; the responder takes an entry, closes older entries and sends ACCEPT. -/
  | confirm (h : CoilHdr) (openerBase cookie : Nat)
  /-- ACCEPT: Coil packet completing the handshake; the association is ESTABLISHED. -/
  | accept (h : CoilHdr) (openerBase responderBase : Nat)
  /-- ACK: Coil packet acknowledging sequences with a SACK bitmap. -/
  | ack (h : CoilHdr) (sack : List Nat)
  /-- NAK: Coil packet refusing with BUSY, STALE, NO_REGION, ACCESS or BOUNDS. -/
  | nak (h : CoilHdr) (reason refIndex : Nat)
  /-- CLOSE: Coil packet ending an association. -/
  | close (h : CoilHdr) (endSeq : Nat)
  /-- CLOSE_ACK: Coil packet echoing END_SEQ; the association becomes CLOSED. -/
  | closeAck (h : CoilHdr) (endSeq : Nat)
  /-- SEND: Coil data packet of a tagged message, matched to a posted receive or the unexpected area. -/
  | send (h : CoilHdr) (data : Bytes)
  /-- COIL_WRITE: Coil data packet writing an exposed region. -/
  | coilWrite (h : CoilHdr) (data : Bytes)
  /-- READ_REQ: Coil packet requesting bytes of an exposed region, answered with READ_RESP. -/
  | readReq (h : CoilHdr)
  /-- READ_RESP: Coil packet carrying bytes read into the buffer recorded at issue. -/
  | readResp (h : CoilHdr) (data : Bytes)
  /-- NON_COIL_PACKET: ARP, Neighbor Discovery or ICMP echo is answered by the control firmware; other packets are dropped. -/
  | nonCoilPacket (kind port : Nat)
  /-- PAUSE_FRAME: A received PAUSE or PFC frame is discarded and counted. -/
  | pauseFrame (port : Nat)
  /-- OPEN_RETRY_TIMER: The OPEN or CONFIRM retransmission interval expires and the packet is resent. -/
  | openRetryTimer (entry : Nat)
  /-- BUSY_BACKOFF_EXPIRED: After NAK BUSY the opener's backoff ends and it restarts the handshake. -/
  | busyBackoffExpired (entry : Nat)
  /-- ACK_TIMER: 16 µs after a data packet an ACK is sent. -/
  | ackTimer (entry : Nat)
  /-- RTO_EXPIRED: The retransmission timeout expires; the packet is resent and W set to 1. -/
  | rtoExpired (entry index : Nat)
  /-- GIVE_UP: A packet is unacknowledged half a horizon after first transmission; the association is closed and messages reported INDETERMINATE. -/
  | giveUp (entry index : Nat)
  /-- CLOSE_TIMEOUT: A quarter horizon after last transmission the association becomes CLOSED. -/
  | closeTimeout (entry : Nat)
  /-- REMOTE_KEEPALIVE_TIMER: Every 1 ms with remote member commands outstanding an ACK is sent. -/
  | remoteKeepaliveTimer (node : Nat)
  /-- REMOTE_SILENCE_TIMEOUT: Nothing received from a member's node for 20 ms; the association stops delivering and the member becomes UNAVAILABLE. -/
  | remoteSilenceTimeout (node : Nat)
  /-- COIL_PORT_LINK_DOWN: A Coil port leaves service and its associations move to the other port. -/
  | coilPortLinkDown (port : Nat)
  /-- MB_LOCK_WRITE: A write to MB_LOCK claims a free mailbox or releases an idle one. -/
  | mbLockWrite (mb value : Nat)
  /-- MB_RING: A RING write queues the mailbox's command or is ignored setting RING_IGNORED. -/
  | mbRing (mb : Nat) (withCancel : Bool)
  /-- MB_CANCEL: A CANCEL write ends a QUEUED command with CANCELLED. -/
  | mbCancel (mb : Nat)
  /-- SIDEBAND_MAILBOX_HOST_ACCESS: A host access to mailboxes 14 or 15 reads zero, is ignored and is counted. -/
  | sidebandMailboxHostAccess (mb off : Nat) (write : Bool)
  /-- MAILBOX_TAKE: The control firmware takes a queued mailbox in ring order and starts fetching its input. -/
  | mailboxTake
  /-- MCI_INPUT_READ_DONE: The whole input is inside the device and the command passes its ordered checks to EXECUTING. -/
  | mciInputReadDone (mb : Nat) (input : Option Bytes) (listsOk : Bool)
  /-- MCI_COMPLETE: A command finishes; the response fields, STATUS and DONE are written and the vector signalled. -/
  | mciComplete (mb : Nat) (outputWritten : Bool)
  /-- SIDEBAND_WRITE: MCTP Sarard WRITE to a sideband mailbox or its staging area. -/
  | sidebandWrite (mb off : Nat) (data : Bytes)
  /-- SIDEBAND_READ: MCTP Sarard READ from a sideband mailbox or its staging area. -/
  | sidebandRead (mb off len : Nat)
  /-- SIDEBAND_RING: MCTP Sarard RING of a sideband mailbox. -/
  | sidebandRing (mb : Nat)
  /-- SIDEBAND_CANCEL: MCTP Sarard CANCEL of a sideband mailbox. -/
  | sidebandCancel (mb : Nat)
  /-- GET_STATE: MCTP Sarard GET_STATE returning mailbox state, status, lifecycle and D-state. -/
  | getState (mb : Nat)
  /-- WAKE_HOST: MCTP Sarard WAKE_HOST asserting WAKE# in D3cold or sending PME in D3hot. -/
  | wakeHost (mb : Nat)
  /-- SET_ENDPOINT_ID: MCTP control command Set Endpoint ID. -/
  | setEndpointId (eid : Nat)
  /-- GET_ENDPOINT_ID: MCTP control command Get Endpoint ID. -/
  | getEndpointId
  /-- GET_MCTP_VERSION_SUPPORT: MCTP control command Get MCTP Version Support. -/
  | getMctpVersionSupport (msgType : Nat)
  /-- GET_MESSAGE_TYPE_SUPPORT: MCTP control command Get Message Type Support. -/
  | getMessageTypeSupport
  /-- GET_VENDOR_DEFINED_MESSAGE_SUPPORT: MCTP control command Get Vendor Defined Message Support. -/
  | getVendorDefinedMessageSupport (selector : Nat)
  /-- IDENTIFY_DEVICE: MCI command returning device identity, presence and state. -/
  | identifyDevice (mb : Nat)
  /-- GET_LIMITS: MCI command returning device limits. -/
  | getLimits (mb : Nat)
  /-- DEVICE_SET_CONFIG: MCI command storing turn length, subsystem IDs and device name. -/
  | deviceSetConfig (mb : Nat)
  /-- DEVICE_RESTART: MCI command that commits in MRAM and restarts the control complex. -/
  | deviceRestart (mb : Nat)
  /-- UNIT_CONTROL: MCI command to fence, return, retrain or query a unit. -/
  | unitControl (mb : Nat) (selfTestPasses : Bool)
  /-- MEMBER_LIST: MCI command listing every reachable namespace. -/
  | memberList (mb : Nat)
  /-- MEMBER_ADOPT: MCI command that formats, sizes and marks a namespace as an adopted member. -/
  | memberAdopt (mb : Nat)
  /-- MEMBER_RELEASE: MCI command that erases a member's marks and releases it. -/
  | memberRelease (mb : Nat)
  /-- MEMBER_FAIL: MCI command declaring a pool index FAILED with cause 7. -/
  | memberFail (mb : Nat)
  /-- MEMBER_REPLACE: MCI command starting replacement of a FAILED pool index. -/
  | memberReplace (mb : Nat)
  /-- ARRAY_CREATE: MCI command creating an array and writing its first mark. -/
  | arrayCreate (mb : Nat)
  /-- ARRAY_DELETE: MCI command deleting an array with no volumes. -/
  | arrayDelete (mb : Nat)
  /-- ARRAY_IMPORT: MCI command importing arrays from scanned members under R121. -/
  | arrayImport (mb : Nat) (scans : List MarkScan)
  /-- ARRAY_EXPAND: MCI command adding members through a migration. -/
  | arrayExpand (mb : Nat)
  /-- ARRAY_MIGRATE: MCI command starting a stripe-form migration. -/
  | arrayMigrate (mb : Nat)
  /-- ARRAY_GET: MCI command returning an array's state and mark body. -/
  | arrayGet (mb : Nat)
  /-- ARRAY_EXPORT: MCI command removing an array from service unchanged for import elsewhere. -/
  | arrayExport (mb : Nat)
  /-- VOLUME_CREATE: MCI command creating a volume with extents and a namespace identifier. -/
  | volumeCreate (mb : Nat)
  /-- VOLUME_DELETE: MCI command deleting a volume in two mark updates. -/
  | volumeDelete (mb : Nat)
  /-- VOLUME_RESIZE: MCI command growing or shrinking a volume. -/
  | volumeResize (mb : Nat)
  /-- VOLUME_SET_POLICY: MCI command setting a volume's policy bits and remote mirror target. -/
  | volumeSetPolicy (mb : Nat)
  /-- VOLUME_LIST: MCI command listing volume records. -/
  | volumeList (mb : Nat)
  /-- REBUILD_GET_STATUS: MCI command returning rebuild registers and per-array sections. -/
  | rebuildGetStatus (mb : Nat)
  /-- REBUILD_SET_POLICY: MCI command storing rebuild, scrub and timeout policy. -/
  | rebuildSetPolicy (mb : Nat)
  /-- REBUILD_START: MCI command planning relocation entries for FAILED indices with none. -/
  | rebuildStart (mb : Nat)
  /-- SCRUB_START: MCI command starting a CHECK or REPAIR scrub. -/
  | scrubStart (mb : Nat)
  /-- SCRUB_STOP: MCI command ending a scrub at the next slice boundary. -/
  | scrubStop (mb : Nat)
  /-- LOST_EXTENTS_GET: MCI command returning the lost extent lists. -/
  | lostExtentsGet (mb : Nat)
  /-- TWIN_PAIR: MCI command binding a twin partner, consuming a bind step for a new partner. -/
  | twinPair (mb : Nat)
  /-- TWIN_UNPAIR: MCI command making every shared array private. -/
  | twinUnpair (mb : Nat)
  /-- TWIN_GET_STATUS: MCI command returning twin registers and per-array ownership. -/
  | twinGetStatus (mb : Nat)
  /-- TWIN_SET_POLICY: MCI command storing takeover policy and timers. -/
  | twinSetPolicy (mb : Nat)
  /-- TWIN_MOVE_ARRAY: MCI command moving array ownership to the partner. -/
  | twinMoveArray (mb : Nat)
  /-- TWIN_SWAP_DRILL: MCI command checking the non-owner and moving the array there and back. -/
  | twinSwapDrill (mb : Nat) (lines records : List Nat) (members : Nat)
  /-- TWIN_TAKEOVER: MCI command taking over an array, with FORCE when stood down. -/
  | twinTakeover (mb : Nat)
  /-- COIL_GET_STATUS: MCI command returning Coil registers and association entries. -/
  | coilGetStatus (mb : Nat)
  /-- COIL_CONFIG: MCI command setting Coil addressing, timers and the node directory. -/
  | coilConfig (mb : Nat)
  /-- COIL_SET_TRUST: MCI command installing, selecting or invalidating a trust domain secret slot. -/
  | coilSetTrust (mb : Nat)
  /-- COIL_REGION_REGISTER: MCI command registering an exposed region and returning its key. -/
  | coilRegionRegister (mb : Nat)
  /-- COIL_REGION_DEREGISTER: MCI command deregistering an exposed region at the next boundary. -/
  | coilRegionDeregister (mb : Nat)
  /-- COIL_RECV_POST: MCI command posting receives for Coil SEND messages. -/
  | coilRecvPost (mb : Nat)
  /-- COIL_EXPORT_MEMBER: MCI command exporting a namespace as a remote member. -/
  | coilExportMember (mb : Nat)
  /-- OWNERSHIP_GET: MCI command returning lifecycle, epochs, policy and owner key. -/
  | ownershipGet (mb : Nat)
  /-- OWNERSHIP_CLAIM: MCI command moving the device from PROVISIONED to OWNED. -/
  | ownershipClaim (mb : Nat)
  /-- OWNERSHIP_TRANSFER: MCI command replacing the owner key and incrementing the epoch. -/
  | ownershipTransfer (mb : Nat)
  /-- POLICY_SET: MCI command storing owner policy and raising the security version floor. -/
  | policySet (mb : Nat)
  /-- DEBUG_UNLOCK: MCI command opening JTAG debug for the next boot. -/
  | debugUnlock (mb : Nat)
  /-- DECOMMISSION: MCI command erasing the owner key and setting DECOMMISSIONED. -/
  | decommission (mb : Nat)
  /-- FIRING_RECORD_GET: MCI command returning Firing Records and managing the boot nonce. -/
  | firingRecordGet (mb : Nat)
  /-- ATTEST_QUOTE: MCI command returning a quote signed with the attestation key. -/
  | attestQuote (mb : Nat)
  /-- CERT_GET: MCI command returning the mark certificate. -/
  | certGet (mb : Nat)
  /-- KILN_LOG_GET: MCI command returning Kiln Log slots. -/
  | kilnLogGet (mb : Nat)
  /-- KILN_LOG_CLEAR: MCI command clearing entries at or below a severity with a clear-record. -/
  | kilnLogClear (mb : Nat)
  /-- HOST_TIME_HINT: MCI command supplying a claimed wall-clock time. -/
  | hostTimeHint (mb : Nat)
  /-- FW_DOWNLOAD: MCI command writing a firmware chunk to the target slot and checking it on FINAL. -/
  | fwDownload (mb : Nat) (manifest : Manifest) (badPartition : Option Nat)
  /-- FW_ACTIVATE: MCI command activating the target at next boot, live, or reverting. -/
  | fwActivate (mb : Nat)
  /-- FW_GET_STATUS: MCI command returning slot and firmware state. -/
  | fwGetStatus (mb : Nat)
  /-- FAULT_GET: MCI command returning collector registers and per-source state. -/
  | faultGet (mb : Nat)
  /-- FAULT_ACK: MCI command acknowledging one or all pending episodes. -/
  | faultAck (mb : Nat) (coincident : List FaultIn)
  /-- FAULT_SET_SEVERITY: MCI command setting a source's configured severity and AUTO_ACK. -/
  | faultSetSeverity (mb : Nat)
  /-- FAULT_INJECT: MCI command scheduling RECORD or LIVE fault injection. -/
  | faultInject (mb : Nat)
  /-- DIAG_PATTERN: MCI command running a pattern test on a unit's lanes. -/
  | diagPattern (mb : Nat)
  /-- DIAG_MBIST: MCI command running memory self-test on a unit. -/
  | diagMbist (mb : Nat)
  /-- DIAG_MARGIN: MCI command margining one receiver lane. -/
  | diagMargin (mb : Nat)
  /-- SAGGAR_GET_STATUS: MCI command returning saggar registers and write-through volumes. -/
  | saggarGetStatus (mb : Nat)
  /-- SAGGAR_SET_POLICY: MCI command storing gather age, high water and dirty budget. -/
  | saggarSetPolicy (mb : Nat)
  /-- VAULT_CONFIG: MCI command storing hold-up, copies and vault members, disarming the vault. -/
  | vaultConfig (mb : Nat)
  /-- VAULT_TEST: MCI command measuring vault member write rates. -/
  | vaultTest (mb : Nat)
  /-- VAULT_TEST_END: DURATION_MS of a vault test expires and the result and cap are computed. -/
  | vaultTestEnd (rates : List Nat) (memberError : Bool)
  /-- VAULT_GET_STATUS: MCI command returning vault registers and configuration. -/
  | vaultGetStatus (mb : Nat)
  /-- PEER_WINDOW_CONFIG: MCI command storing staging size and default BAR4 size. -/
  | peerWindowConfig (mb : Nat)
  /-- KC_COMMIT: A write of 1 to a channel's COMMIT copies the shadow set into the pending committed copy. -/
  | kcCommit (ch : Nat)
  /-- KC_START: CMD START resumes a STOPPED channel or re-runs a HALTED maintenance channel. -/
  | kcStart (ch : Nat)
  /-- KC_STOP: CMD STOP makes a running channel stop at its next descriptor boundary. -/
  | kcStop (ch : Nat)
  /-- REQ_SET: A write to REQ_SET adds one request on each chosen software request line. -/
  | reqSet (mask : BitVec 8)
  /-- REQUEST_LINE_PULSE: An on-die unit adds a request on its request line, dropped when the count is 255. -/
  | requestLinePulse (line : Nat)
  /-- DESCRIPTOR_FETCHED: A descriptor is fetched; the hop count rises and an invalid or over-limit descriptor stops the channel. -/
  | descriptorFetched (ch : Nat) (d : KcDesc)
  /-- DESCRIPTOR_BOUNDARY: A descriptor completes with its CRC and record written. -/
  | descriptorBoundary (ch : Nat) (commitNow : Bool)
  /-- KC_MEM_ERROR: A kiln car register set or holding register error is corrected or stops the channel with INTERNAL. -/
  | kcMemError (ch macroNo : Nat) (cell : Option Nat) (correctable : Bool)
  /-- FAULT_ARRIVAL: A fault reaches the collector; it is stamped, ordered, captured and opens or escalates an episode. -/
  | faultArrival (faults : List FaultIn)
  /-- PENDING_WRITE: A write of 1 to a PENDING bit acknowledges that source's episode. -/
  | pendingWrite (index : Nat) (value : W32) (coincident : List FaultIn)
  /-- CLEAR_FIRST: FC_CMD CLEAR_FIRST clears FIRST_VALID and the first-error capture. -/
  | clearFirst (coincident : List FaultIn)
  /-- AUTO_ACK: The control firmware acknowledges an AUTO_ACK source once its capture is written to the Kiln Log. -/
  | autoAck (source : Nat)
  /-- INJECTION_APPLY: A scheduled injection applies one fault at its cycle, or ends when it would be FATAL. -/
  | injectionApply (source : Nat) (coincident : List FaultIn)
  /-- KILN_LOG_HAPPENING: The recorder takes one happening and merges, places or drops it. -/
  | kilnLogHappening (h : Happening)
  /-- OP_MINUTE_TICK: op_minutes increments and histogram samples merge into MRAM. -/
  | opMinuteTick (linkErrors : List (LocCode × Nat))
  /-- TEMPERATURE_SAMPLE: Each second the temperature sensors are sampled into histograms and checked against thresholds. -/
  | temperatureSample (t0 t1 t2 t3 : Int)
  /-- DIRTY_LINES_SAMPLE: Each millisecond the dirty line count is sampled. -/
  | dirtyLinesSample
  /-- THERMAL_TRIP: A sensor reads 120 °C or more; THERMTRIP# asserts and a FATAL fault is raised. -/
  | thermalTrip (sensor : Nat)
  /-- PARTITION_VERIFIED: A boot partition has been read, hashed and compared, and the next boot stage runs. -/
  | partitionVerified (partition : Nat) (slotB : Bool) (manifest : Manifest) (digestOk : Bool) (ddrFailed : List Nat) (ddrGiB ddrSpeed : Nat)
  /-- FIRING_RECORD_SIGNED: The security island signs a Firing Record into the MRAM ring and advances RECORD_SEQ. -/
  | firingRecordSigned
  /-- BOOT_OK: The control firmware reports BOOT_OK and the island clears TRIAL. -/
  | bootOk
  /-- RECOVERY_PROGRESS_REPORT: The control firmware reports recovery progress, moving the BOOT_OK deadline. -/
  | recoveryProgressReport (arrays stripes : Nat)
  /-- BOOT_OK_DEADLINE_EXPIRED: No BOOT_OK by the deadline; the island stops admission, dumps and reboots the other slot. -/
  | bootOkDeadlineExpired
  /-- NEW_IMAGE_READY: The new control image reports ready during a live activation. -/
  | newImageReady
  /-- ACTIVATION_READY_TIMEOUT: 50 ms pass without ready and the control complex restarts on the old image. -/
  | activationReadyTimeout
  /-- PLL_UNLOCK: A PLL loses lock and raises its fault source. -/
  | pllUnlock (pll : Nat)
  /-- RESET_NOTIFICATION: A one-sided reset notification arrives; the other side abandons items after the last accepted sequence. -/
  | resetNotification (n : CrossNote)
  /-- CROSSING_HANDSHAKE: When a one-sided reset ends the two sides handshake and sequences restart. -/
  | crossingHandshake (unit : Nat)
  /-- WAKE_REQUEST: An asynchronous wake request starts a stopped clock. -/
  | wakeRequest (domain index : Nat)
  /-- CLOCK_STOP: The device stops a domain's clock when its stop condition holds. -/
  | clockStop (domain index : Nat)
  /-- D2D_LANE_FAILED: A die-to-die data lane loses lock or reaches 16 parity errors; spare repair starts. -/
  | d2dLaneFailed (bundle lane : Nat)
  /-- D2D_SPARE_FAILED: An idle spare fails its PRBS31 check and is retired. -/
  | d2dSpareFailed (bundle lane : Nat)
  /-- TEST_DURATION_EXPIRED: A pattern test's duration ends and its results are returned. -/
  | testDurationExpired (mb : Nat) (results : List LaneResult)
  /-- MARGIN_DWELL_EXPIRED: A margin step's dwell ends and the step passes or fails. -/
  | marginDwellExpired (mb errors : Nat)
  /-- MBIST_COMPLETE: A memory self-test finishes and its result is returned. -/
  | mbistComplete (mb failing corrected : Nat) (loc : LocCode) (cell : Nat)
  /-- JTAG_INSTRUCTION: A TAP instruction is loaded; test instructions act only while PERST# is asserted before boot step 3. -/
  | jtagInstruction (instr : TapInstr)
  /-- TRST: TRST# resets the TAP asynchronously. -/
  | trst
  /-- PRSNT_HOLDOFF_EXPIRED: One second after a hot-plug event the port takes a debounced PRSNT# level that differs from its state as a new event. -/
  | prsntHoldoffExpired (port : Nat)
  /-- RESTART_WAIT_EXPIRED: DEVICE_RESTART has waited 1 s for executing commands and restarts the control complex, cutting off the commands still running. -/
  | restartWaitExpired
  /-- CONTROL_COMPLEX_RESTARTED: A control complex restart finishes; committed commands are finished with RESTARTED, queued mailboxes are taken and RESTARTING clears. -/
  | controlComplexRestarted
  /-- TRIAL_DIRTY_WAIT_EXPIRED: After a failed trial with the vault unarmed, the wait for dirty lines to drain has lasted 1 s, and the island runs the dump of R176 when its conditions hold. -/
  | trialDirtyWaitExpired
  /-- CHECKER_LOCK_CHANGE: A lane pattern checker gains lock after 64 error-free bits, or loses it after 64 errors in 1,024 bits, which starts or stops bit counting. -/
  | checkerLockChange (mb lane : Nat) (locked : Bool)
deriving DecidableEq, Repr

end Sys2Proof
end

