-- ==== Sys2Proof/Decode.lean ====
section
/-! DEFINITION. The words of spec/opcode_table.json. No row of the table gives bits: the block takes its commands as
events and register accesses, so no word spells one (log entry 2). -/
namespace Sys2Proof

/-- The command that a word spells by the table's bits: none, as the table gives no row any. -/
def decodeTableWord (_nbits _w : Nat) : Option Instr := none

end Sys2Proof
end

