-- ==== Sys2Proof/Config.lean ====
section
/-! DEFINITION. What one device fixes, and the free values: every constant below is opaque, so no proof can see
its value. Each is named in the assumption log (notes/assumptions). -/
namespace Sys2Proof.Config

/-- The n-th number drawn from the random number generator, as a 64-bit word (R59, R276, R391, R396, R404). -/
opaque random64 : Nat → BitVec 64
/-- The default severity of a fault source that R436 does not name (R435). -/
opaque srcDefault : Nat → BitVec 3
/-- The lower end of the allowed range of a source that R436 does not name (R435). -/
opaque srcMin : Nat → BitVec 3
/-- The upper end of the allowed range of a source that R436 does not name (R435). -/
opaque srcMax : Nat → BitVec 3
/-- The NAME of a source that R436 does not name, 32 bytes (R435, R450). -/
opaque srcName : Nat → BitVec 256
/-- SHA-256 of a byte string (a standard the spec refers to). -/
opaque sha256 : Bytes → BitVec 256
/-- AES-256-GCM, HKDF and cookie computations of Coil, as one keyed function (R275 to R277). -/
opaque keyed : Bytes → Bytes → BitVec 256
/-- Whether a signature verifies: key, message, signature (R460: SLH-DSA and the owner key algorithms). -/
opaque verifies : Bytes → Bytes → Bytes → Bool
/-- The public key of the Sarard service key that the boot ROM holds (R454). -/
opaque serviceKey : Bytes
/-- The public half of the device attestation key (R454). -/
opaque attestKey : Bytes
/-- DEVICE_ID: bytes 0 to 15 of the SHA-256 of the attestation public key (R457). -/
def deviceId : BitVec 128 := (sha256 attestKey).setWidth 128
/-- A signature made with the attestation key over a message (R470, R473). -/
opaque signs : Bytes → Bytes
/-- What the mark certificate of R472 holds that nothing else gives: the certificate key, PROVISION_DT and the signature. -/
opaque certKey : Bytes
opaque provisionDt : BitVec 64
opaque certSignature : Bytes
/-- The digest of fuse bytes 0 to 511 (R459), whose layout the spec does not give: lifecycle and the four counters decide it. -/
opaque fuseDigest : Nat → Nat → Nat → Nat → Nat → BitVec 256
/-- A byte of peer window staging that nothing has written since the reset that began an era: era, address (R319: undefined). -/
opaque stagingByte : Nat → Nat → BitVec 8
/-- A byte of the boot flash at a slot, partition and offset: the flash is outside the block (R309, R461). -/
opaque flashByte : Nat → Nat → Nat → BitVec 8
/-- Subsystem Vendor ID and Subsystem ID of the boot flash configuration, where it gives them (R302, R385). -/
opaque flashSubVendor : Option Nat
opaque flashSubId : Option Nat
/-- The sector that VAULT_TEST writes (R190 gives no pattern). -/
opaque testPattern : Bytes
/-- A value the spec leaves open, drawn by the model's own counter. -/
opaque freeValue : Nat → BitVec 64

end Sys2Proof.Config
end

