-- ==== Sys2Proof/Machine/State.lean ====
section
/-! DEFINITION. The state of the RTK7480 as plain data, its reset value, and the ways a step can stop.
Field defaults are the reset values; where the spec gives none, INVENTORY.md names the log entry. -/
namespace Sys2Proof.Machine

/-- Why a step stops. Faults of the hardware (R435) are state of the fault collector and stop nothing. -/
inductive Fault where
  /-- Raised when aux power is removed while a main supply is present (R10, R560: outside the specification). Safe. -/
  | auxRemovedWithMain
  /-- Raised when main power comes without aux power (R10, R559: outside the supply order). Safe. -/
  | mainWithoutAux
deriving DecidableEq, Repr

/-- Why a command has no meaning. -/
inductive Refusal where
  /-- Raised by an arm whose meaning is not written; safe. -/
  | notModelled (mnemonic : String)
deriving DecidableEq, Repr

/-! ### What the device emits -/

/-- One thing the device sends to the outside. `State.out` lists them, latest first. -/
inductive Output where
  /-- An interrupt message for source vector `v` in mode 1 INTx, 2 MSI, 3 MSI-X with the entry's address and data. -/
  | intr (mode v : Nat) (addr data : Nat)
  | regRead (off value : Nat)
  | cfgCompletion (value : Nat)
  | cfgRetry
  | memCompletion (data : Bytes)
  | unsupportedCompletion
  | poisonedCompletion
  | pme
  | atsRequest (page : Nat)
  | invalidationCompletion (itag : Nat)
  | hostRequest (tag : Nat) (kind : Nat)
  | hostData (sqid cid sector : Nat) (data : Sector) (pi : Bytes)
  | adminData (cid : Nat) (data : Bytes)
  | cqe (cqid sqid cid dw0 status sqhd : Nat) (phase : Bool)
  | memberCmd (mcid ns op lba count : Nat) (fua : Bool)
  | memberData (mcid : Nat) (data : List RawSector)
  | memberAbort (mcid : Nat)
  | memberReset (port : Nat)
  | slipMsg (seq : Nat) (key twinSeq : Nat) (m : SlipMsg)
  | slipNak (expected : Nat)
  | slipResend (from_ count : Nat)
  | coil (entry typ node index xmit : Nat) (args : List Nat) (data : Bytes)
  | mctp (completion : Nat) (data : Bytes)
  | mciOut (mb : Nat) (data : Bytes)
  | kcWrite (ch space addr : Nat) (data : Bytes)
  | kcRecord (ch tag crc bytes status flags seq turn cycle ring : Nat)
  | coilRing (postId tag src len status : Nat) (phase : Bool)
  | flashWrite (slot off : Nat) (data : Bytes)
  | netReply (port kind : Nat)
deriving DecidableEq, Repr

/-! ### Time, lifecycle and power (the protected part: only the rows that own it change it) -/

/-- Lifecycle (R456), in order. -/
inductive Life where
  | manufacture | provisioned | owned | decommissioned
deriving DecidableEq, Repr

/-- Time, fuses and straps. Every meaning but its owners' leaves this whole structure alone (`done` in Ops). -/
structure Hw where
  powerCycle : Nat := 1
  opMinutes : Nat := 0
  turn : Nat := 0
  cycle : Nat := 0
  present : W32 := 0x001FFFFF
  lifecycle : Life := .provisioned
  epoch : Nat := 0
  svFloor : Nat := 0
  debugUnlocks : Nat := 0
  twinBinds : Nat := 0
  straps : Straps := {}
deriving DecidableEq, Repr

/-- Pins and supplies (R171, R545 to R552, R559, R560). -/
structure Pins where
  aux : Bool := true
  main : Bool := false
  perst : Bool := true
  /-- PFAIL# is low now, as the board holds it at power-on (R559); a low level is being filtered; a filtered assertion is in
  force (R171, R187) -/
  pfailRaw : Bool := true
  pfailFilter : Bool := false
  pfailFiltered : Bool := true
  resumeCounting : Bool := false
  resumeDone : Bool := false
  wake : Bool := false
  faultPin : Bool := false
  thermtrip : Bool := false
  /-- sideband mailboxes 14 and 15 whose DONE no GET_STATE has read: they hold SMB_ALERT# asserted -/
  smbAlert : BitVec 2 := 0
  temps : List Int := [25, 25, 25, 25]
  tempOver : Bool := false
deriving DecidableEq, Repr

/-- Clock, reset and crossing state (R512 to R526). -/
structure Clk where
  ccAny : Bool := false
  ports : BitVec 6 := 0
  ddr : BitVec 8 := 0
  slipx : Bool := false
  eth : Bool := false
  pllCore : Bool := false
  pllData : Bool := false
  pllIo : Bool := false
  pllEth : Bool := false
  pllAux : Bool := true
  startCause : Nat := 0
  /-- main power has come since the aux supplies did (R524) -/
  started : Bool := false
  crossDrops : Nat := 0
  oneSided : Nat := 0
  wakes : Nat := 0
  keeper : Nat := 0
  /-- crossings to member ports: port, next sequence number, and whether the port's side is in reset (R516, R520) -/
  crossings : List (Nat × Nat × Bool) := []
  /-- held HI values by the LO register's offset (R518) -/
  latches : List (Nat × Nat) := []
deriving DecidableEq, Repr

/-! ### The turn scheduler -/

/-- Turn scheduler registers and the grants of the turn (R29 to R45). -/
structure Sched where
  lenSel : Nat := 0
  running : Bool := false
  planned : Bool := false
  snap : FT := {}
  floor : Nat := 10
  overrunCount : Nat := 0
  overrunLast : LocCode := 0xFFFFFFFF
  kilnCur : List Nat := [0, 0, 0, 0]
  bgCur : Nat := 0
  saggarCur : Nat := 0
  admitCur : Nat := 0
  admitLast : Nat := 0
  admitPlanned : Nat := 0
  bgShareLast : Nat := 0
  kilnUse : List Nat := [0, 0, 0, 0]
  kilnPlanned : List Nat := [0, 0, 0, 0]
  kilnBgPlanned : Nat := 0
  saggarUse : Nat := 0
  saggarPlanned : Nat := 0
  /-- carried charge per unit (R36): kilns, then DDR channels -/
  carryKiln : List Nat := [0, 0, 0, 0]
  carryChan : List Nat := [0, 0, 0, 0, 0, 0, 0, 0]
  /-- kilns in service in planning (R35) -/
  kilnSet : BitVec 4 := 0
  service : W32 := 0
  servicePending : W32 := 0
  /-- kilns in service in the turn planned (R23) -/
  serviceNext : W32 := 0
  globalEvent : BitVec 4 := 0
  globalEventEn : BitVec 4 := 0
  globalVector : Nat := 0
  reservedAccesses : Nat := 0
  absentAccesses : Nat := 0
deriving DecidableEq, Repr

/-- DEVICE_STATUS, and GLOBAL_EVENT bits that set at the next boundary (R571, R572). -/
structure DevStatus where
  holding : Bool := false
  recovering : Bool := false
  recordSigned : Bool := false
  recoveryBoot : Bool := false
  trial : Bool := false
  debugActive : Bool := false
  activating : Bool := false
  restarting : Bool := false
  /-- the values DEVICE_STATUS shows, taken at the latest boundary: holding, recovering, restarting or activating -/
  shownHolding : Bool := false
  shownRecovering : Bool := false
  shownBusy : Bool := false
deriving DecidableEq, Repr

/-! ### The saggar -/

/-- State of a line-pool line; FREE lines are not listed (R130). -/
inductive LineState where
  | pending | dirty | closing | clean | mirror
deriving DecidableEq, Repr

/-- One line that is not FREE (R127, R130). -/
structure Line where
  no : Nat := 0
  st : LineState := .pending
  array : Nat := 0
  lba : Nat := 0
  volume : Nat := 0
  seq : Nat := 0
  pi : Bytes := []
  data : Sector := []
  prim : Bool := true
  pair : Bool := true
  /-- both copies written (R134), for a PENDING line; for a MIRROR line, its write is complete here (R248) -/
  written : Bool := false
  /-- a saggar piece of it is granted: its landing, or its rewriting (R155) -/
  granted : Bool := false
  /-- host write that owns a PENDING line -/
  sqid : Nat := 0
  cid : Nat := 0
  intentGen : Nat := 0
  stamp : Nat := 0
  /-- for a MIRROR line: key, index, count and admission sequence at the owner (R245) -/
  key : Nat := 0
  idx : Nat := 0
  count : Nat := 1
  twinSeq : Nat := 0
deriving DecidableEq, Repr

/-- An open stripe's gather state (R138 to R140). -/
structure OpenStripe where
  array : Nat := 0
  stripe : Nat := 0
  /-- DESC_GEN of the stripe -/
  dg : Nat := 1
  start : Nat := 0
  ready : Bool := false
  order : Nat := 0
deriving DecidableEq, Repr

/-- The saggar controller (R125 to R160). -/
structure Saggar where
  chanOut : BitVec 8 := 0
  ueSeen : BitVec 8 := 0
  capacityLines : Nat := 0
  speed : Nat := 6400
  poolLines : Nat := 0
  lines : List Line := []
  openStripes : List OpenStripe := []
  nextOrder : Nat := 0
  nextStamp : Nat := 0
  closesFull : Nat := 0
  closesPartial : Nat := 0
  hitSectors : Nat := 0
  missSectors : Nat := 0
  eccCorrected : Nat := 0
  heldTurns : Nat := 0
  budgetHeld : Bool := false
  journalHeld : Bool := false
  highWaterActive : Bool := false
  gatherAge : Nat := 20
  gatherTurns : Nat := 1954
  highWater : Nat := 90
  highWaterNext : Nat := 90
  dirtyBudget : Option Nat := none
  dirtyBudgetNext : Option Nat := none
  /-- write-through causes in force: VAULT_NOT_ARMED, ECC_DEGRADED, TWIN_LOST (R151) -/
  causeVault : Bool := true
  causeEcc : Bool := false
  causeTwin : Bool := true
  rxAreaLines : Nat := 0
  /-- lines to be rewritten to a new line (R127) -/
  rewrites : List Nat := []
deriving DecidableEq, Repr

/-! ### Journal and vault -/

/-- A vault member (R179, R189): its UID, V region length, measured rate and whether this dump dropped it. -/
structure VaultMember where
  uid : Nat := 0
  vaultSectors : Nat := 0
  rate : Nat := 0
  dropped : Bool := false
deriving DecidableEq, Repr

/-- Vault phase (R187). -/
inductive VPhase where
  | idle | dumping | holding | resuming | restoring | testing
deriving DecidableEq, Repr

/-- MRAM vault status (R172, R174). -/
inductive VStatus where
  | idle | dumping | complete
deriving DecidableEq, Repr

/-- The intent journal, its ring and the vault (R161 to R191). -/
structure Vault where
  own : List Rec := []
  partner : List Rec := []
  recCounter : Nat := 1
  frozen : Bool := false
  /-- records waiting for the ring, oldest first -/
  ringPending : List Rec := []
  /-- ring sectors in flight: job id, array and records -/
  ringFlight : List (Nat × Nat × List Rec) := []
  /-- ring writer: array key, half, highest RING_SEQ written, sectors written since it began on the half (R115) -/
  ringSeq : List (Nat × Nat × Nat × Nat) := []
  /-- where a member named later stands in its half, relative to the array's position (R115, R169) -/
  ringOff : List (Nat × Nat) := []
  /-- place of the newest ring copy of a live record: INTENT_GEN, sectors written then (R168) -/
  ringAt : List (Nat × Nat) := []
  /-- MRAM binding: array key, MARK_GEN (R181) -/
  binding : List (Nat × Nat) := []
  status : VStatus := .idle
  dumpSeq : Nat := 0
  setsWhole : Nat := 0
  phase : VPhase := .idle
  dumpPending : Bool := false
  holdPending : Bool := false
  /-- a FATAL fault asks for the dump of R177, after which the data path halts -/
  emergency : Bool := false
  /-- dump: lines taken (array key, LBA, line number) and member writes outstanding -/
  dumpLines : Nat := 0
  dumpTime : Nat := 0
  dumpStart : Nat := 0
  /-- device time at the start and the end of the latest dump (R118) -/
  dumpFrom : Nat := 0
  dumpTo : Nat := 0
  /-- a filtered assertion stopped recovery until the next power-on (R180) -/
  stopped : Bool := false
  configured : Bool := false
  tested : Bool := false
  armed : Bool := false
  holdupUs : Nat := 10000
  copies : Nat := 2
  members : List VaultMember := []
  pfailGlitches : Nat := 0
  pfailEvents : Nat := 0
  journalPeak : Nat := 0
  /-- INTENT_GENs of records taken over, which stay in their partner-area slots (R255) -/
  takenOver : List Nat := []
  testMb : Option Nat := none
deriving DecidableEq, Repr

/-! ### Members, arrays, jobs -/

/-- Runtime condition of a member (R192); `unavailable` carries the cause code it would fail with. -/
inductive Cond where
  | healthy
  | unavailable (cause : Nat)
deriving DecidableEq, Repr

/-- A namespace the device reaches (R388, R389). -/
structure Ns where
  id : Nat := 0
  loc : NsLoc := {}
  ident : NsIdent := {}
  journal : Nat := 65536
  vault : Nat := 0
  dataStart : Nat := 0
  dataSectors : Nat := 0
  markValid : Bool := false
  arrayUid : Nat := 0
  markGen : Nat := 0
  /-- the current mark is copy B (R84) -/
  markB : Bool := false
  poolIndex : Nat := 0xFFFF
  adopted : Bool := false
  byPartner : Bool := false
  stale : Bool := false
  exported : Option Nat := none
  cond : Cond := .healthy
  /-- what made the member UNAVAILABLE involved a link, a controller reset or an association: its identity must be read back (R193) -/
  reread : Bool := false
  /-- the member is to be declared FAILED at the next boundary, with this cause (R195) -/
  declare : Option Nat := none
  /-- the declaration is in force and waits to be persisted (R195) -/
  failing : Option Nat := none
  mended : List Nat := []
  wearRaised : Bool := false
deriving DecidableEq, Repr

/-- A member port (R547, R548, R551). -/
structure Port where
  present : Bool := false
  /-- a debounce is running towards this level -/
  debounce : Option Bool := none
  level : Bool := false
  holdoff : Bool := false
  power : Bool := false
  perst : Bool := true
  refclk : Bool := false
  training : Bool := false
  up : Bool := false
  led : Bool := false
deriving DecidableEq, Repr

/-- Operations the device sends to members. -/
inductive MOp where
  | read | write | writeZeroes | deallocate | format | reservationAcquire | reservationRelease | reservationReport | reservationRegister
  /-- a command of another opcode, served for a remote node (R293) -/
  | other (opc : Nat)
deriving DecidableEq, Repr

/-- An outstanding member command (R76, R197). -/
structure MCmd where
  id : Nat := 0
  ns : Nat := 0
  op : MOp := .read
  lba : Nat := 0
  count : Nat := 1
  job : Nat := 0
  /-- which slice and role of the job it serves -/
  slice : Nat := 0
  role : Nat := 0
  turn : Nat := 0
  data : List RawSector := []
  /-- carries Force Unit Access (R85, R120, R391, R392) -/
  fua : Bool := false
  /-- its sequence number in the port's crossing (R516) -/
  xseq : Nat := 0
  /-- sent to the member; until then it waits for its port's budget (R30) -/
  sent : Bool := false
  /-- class of R38: 0 vault dump, 1 host, 2 background -/
  cls : Nat := 1
  /-- 0 the command itself; 1 reading, 2 writing the tag sectors of a 4096+0 member's Write (R112); 3 a read-back -/
  step : Nat := 0
  /-- for a tag update: LBA of the data written, and its sectors -/
  tagLba : Nat := 0
  keep : List RawSector := []
  retried : Bool := false
  timedOut : Bool := false
  abortSent : Bool := false
  discard : Bool := false
deriving DecidableEq, Repr

/-- Kinds of work of the array engine. -/
inductive JobKind where
  | fullClose | partialClose | repair | hostRead | rebuild | mend | scrub (fix : Bool) | direct | copyback | migrate
  | mark | zero | adopt | release | ring | snapshot | dump | headers | testWrite | resync | reserve | served
deriving DecidableEq, Repr

/-- A role's sector as a job holds it. -/
structure RoleSec where
  role : Nat := 0
  data : Sector := []
  gen : Nat := 0
  flags : Nat := 0
  volume : Nat := 0
  pi : Bytes := []
  ok : Bool := true
  lost : Bool := false
  unwritten : Bool := false
deriving DecidableEq, Repr

/-- Phase of one slice of a job. -/
inductive Phase where
  | waiting | reading | ready | granted | encoded | writing | verify | done
deriving DecidableEq, Repr

/-- One slice (column) of a job: what it has, what is erased, what it will write (R53, R55, R57). -/
structure Slice where
  o : Nat := 0
  phase : Phase := .waiting
  have_ : List RoleSec := []
  erased : List Nat := []
  outs : List RoleSec := []
  /-- roles whose lines the close carries (C of R142) -/
  changed : List Nat := []
  delta : Bool := false
  kiln : Nat := 0
  width : Nat := 4096
  charge : Nat := 0
  /-- granted to a kiln that failed: runs ahead of new pieces (R23) -/
  rerun : Bool := false
  /-- bytes of the slice's width that pieces have done (R34), and whether a burst for its outputs is granted (R57) -/
  pos : Nat := 0
  burst : Bool := false
deriving DecidableEq, Repr

/-- A unit of array work: a close, a rebuild step, a mark update and so on. -/
structure Job where
  id : Nat := 0
  kind : JobKind := .fullClose
  array : Nat := 0
  stripe : Nat := 0
  gen : Nat := 0
  intentGen : Nat := 0
  dg : Nat := 1
  slices : List Slice := []
  /-- namespaces whose commands succeeded, for jobs without slices -/
  succeeded : List Nat := []
  failed : Bool := false
  /-- what waits for it: a mailbox or a host command -/
  mb : Option Nat := none
  sqid : Nat := 0
  cid : Nat := 0
  sector : Nat := 0
  /-- mailboxes whose commands this mark update persists -/
  mbs : List Nat := []
  /-- a close may not write before its CLOSING record is in a written ring sector (R167) -/
  ringed : Bool := true
  /-- the change a mark update persists -/
  body : Option MarkBody := none
  ns : List Nat := []
  stage : Nat := 0
  /-- every surviving parity row is read, because the array has no journal source (R186) -/
  allRows : Bool := false
  fixed : List (Nat × Nat) := []
deriving DecidableEq, Repr

/-- A scrub (R213 to R215, R229). -/
structure Scrub where
  array : Nat := 0
  repair : Bool := true
  next : Nat := 0
  stop : Nat := 0
  patrol : Bool := false
deriving DecidableEq, Repr

/-- ANA state of a shared array on this side (R237). -/
inductive Ana where
  | optimized | inaccessible | change | persistentLoss
deriving DecidableEq, Repr

/-- A volume being deleted or shrunk (R408, R409). `stage` 0 waits for the boundary, 1 for commands and closes, 2 for the mark. -/
structure VolOp where
  delete : Bool := true
  vol : Nat := 0
  cap : Nat := 0
  mb : Nat := 0
  stage : Nat := 0
deriving DecidableEq, Repr

/-- An array the device knows (R88, R110, R235, R397). `service` is 1 RECOVERING, 2 IN_SERVICE, 3 CLOSING_OUT. -/
structure Arr where
  id : Nat := 0
  service : Nat := 1
  body : MarkBody := {}
  gen : Nat := 1
  /-- exact DONE_ROUND and HOME_ROUND per relocation SEQ (R100, R217) -/
  exact : List (Nat × Nat × Nat) := []
  /-- progress committed in this turn, in force at the next boundary (R66) -/
  exactNext : List (Nat × Nat × Nat) := []
  directRound : List (Nat × Nat) := []
  /-- cause codes of failed pool indices, and lost extents not yet persisted -/
  causes : List (Nat × Nat) := []
  pendingLost : List LostExt := []
  writesHeld : Bool := false
  migrationPaused : Bool := false
  /-- migration of the current round: next LBA to stage, and 1 staging, 2 mark update, 3 closing (R222) -/
  stageLba : Nat := 0
  stageStep : Nat := 0
  markWaiting : Option MarkBody := none
  /-- mailboxes that wait with `markWaiting`; the update persisted and due at the next boundary, with its mailboxes -/
  markMbs : List Nat := []
  persisted : Option MarkBody := none
  persistedMbs : List Nat := []
  persistedLost : Nat := 0
  /-- next stripe index of the round being swept, and rounds done ahead of an entry's own sweep: SEQ, from, to (R204) -/
  sweep : Nat := 0
  early : List (Nat × Nat × Nat) := []
  /-- last MARK_GEN used (R85) -/
  markGen : Nat := 0
  shared : Bool := false
  owner : Bool := true
  ana : Ana := .optimized
  anaNext : Option Ana := none
  stoodDown : Bool := false
  /-- R258 on the owner: 1 asked, 2 draining, 3 released; on the other side: 4 acquiring, 5 mark update -/
  moving : Nat := 0
  moveTurn : Nat := 0
  /-- the mailbox that waits for the move or takeover -/
  moveMb : Option Nat := none
  /-- R255: 1 acquiring, 2 FENCE_WAIT, 3 resynchronising, 4 mark update -/
  takeover : Nat := 0
  /-- turn at which the outstanding reservation check was issued, and of the last good one (R253) -/
  checkIssued : Nat := 0
  checkGood : Option Nat := none
  /-- a forced takeover that flags volumes STALE_POSSIBLE is under way (R257) -/
  stalePossible : Bool := false
  forcedNoJournal : Bool := false
  patrolDue : Nat := 0
  /-- its first mark is not persisted yet (R396) -/
  creating : Bool := false
  /-- it came by ARRAY_IMPORT: 1 to be recovered, 2 being recovered (R400) -/
  importing : Nat := 0
  /-- volumes are out of service for new commands (R399) -/
  gone : Bool := false
  /-- capacity of a volume for new commands, 0 for none (R408, R409): in force, and from the next boundary -/
  limits : List (Nat × Nat) := []
  limitsNext : List (Nat × Nat) := []
  volOp : Option VolOp := none
  /-- ARRAY_EXPORT: 1 taken, 2 waiting for closes, 3 final mark; ARRAY_DELETE: 4 -/
  closeOut : Nat := 0
  closeMb : Nat := 0
deriving DecidableEq, Repr

/-- Members, arrays and the work on them (chapters 03, 04, 06, 07, 13). -/
structure Arrays where
  ns : List Ns := []
  ports : List Port := List.replicate 48 {}
  arrays : List Arr := []
  cmds : List MCmd := []
  quarantine : List Nat := []
  jobs : List Job := []
  nextJob : Nat := 1
  /-- sectors to mend: array, DESC_GEN, stripe, slice, role (R207) -/
  mendQueue : List (Nat × Nat × Nat × Nat × Nat) := []
  scrubs : List Scrub := []
  /-- resident decode matrices: kiln, array, erasure set (R58) -/
  matrices : List (Nat × Nat × List Nat) := []
  /-- resident permutations: array, DESC_GEN, round (R68) -/
  perms : List (Nat × Nat × Nat) := []
  kilnBufUsed : List Nat := [0, 0, 0, 0]
  releases : List (Nat × NsLoc) := []
  rebuilt : Nat := 0
  mendedCount : Nat := 0
  mendDropped : Nat := 0
  lostSlices : Nat := 0
  scrubSlices : Nat := 0
  parityFixes : Nat := 0
  /-- bytes that rebuild, copy-back and migration have written ahead of RATE_CAP (R206) -/
  rateDebt : Nat := 0
  lateCompletions : Nat := 0
  slowReads : Nat := 0
  dataLost : Bool := false
deriving DecidableEq, Repr

/-- Rebuild, scrub and timeout policy (R227), the stored device configuration (R385, R331) and totals in MRAM. -/
structure Policy where
  floor : Nat := 10
  autoRebuild : Bool := true
  autoReplace : Bool := false
  scrubPeriod : Nat := 28
  unavailLimit : Nat := 2000
  memberTimeout : Nat := 8000
  slowRead : Nat := 50
  mendLimit : Nat := 1024
  rateCap : Nat := 1000000
  lenSel : Nat := 0
  subVendor : Option Nat := none
  subId : Option Nat := none
  name : Bytes := []
  pwStagingMib : Nat := 1024
  bar4Default : Nat := 30
  unsafeShutdowns : Nat := 0
  slicesLostEver : Nat := 0
  /-- remote mirror target per volume: array uid, volume id, node, NGUID (R410) -/
  remoteTargets : List (Nat × Nat × Nat × Nat) := []
deriving DecidableEq, Repr

/-! ### Twin -/

/-- TWIN_STATE.STATE (R261). -/
inductive TwinSt where
  | unpaired | linkDown | syncing | mirroring | partnerLost | stoodDown | mismatch
deriving DecidableEq, Repr

/-- A message sent on the Slip link and not yet acknowledged by MIRROR_ACK: MSG_SEQ, turn sent, ARRAY_KEY, the TWIN_SEQ values it
carries, and whether it ends a snapshot. -/
structure SentMsg where
  seq : Nat := 0
  turn : Nat := 0
  key : Nat := 0
  tseqs : List Nat := []
  snapshotEnd : Bool := false
deriving DecidableEq, Repr

/-- Twin operation and the Slip link (R231 to R265). -/
structure Twin where
  /-- the bound partner in MRAM, and the one in force since the latest cold reset (R231, R263) -/
  bound : Option (BitVec 128) := none
  partner : Option (BitVec 128) := none
  mode : Nat := 0
  stagedMode : Nat := 0
  declaredBudget : Nat := 0
  areaReady : Bool := false
  st : TwinSt := .unpaired
  up : Bool := false
  training : Bool := false
  /-- training is complete; the partner's HELLO has come, and passed R233 -/
  trained : Bool := false
  helloGot : Bool := false
  helloOk : Bool := false
  lanes : Nat := 0
  session : Nat := 0
  msgSeqTx : Nat := 0
  msgSeqRx : Nat := 0
  mirrorAckRx : Nat := 0
  heldRx : List Nat := []
  replays : Nat := 0
  crcErrors : Nat := 0
  duplicates : Nat := 0
  linkDowns : Nat := 0
  ackLag : Nat := 0
  nextLinkSeq : Nat := 0
  expected : Nat := 0
  /-- NAKs received for one LINK_SEQ, and sent for the one expected (R241) -/
  nakSeq : Nat := 0
  nakCount : Nat := 0
  nakSent : Nat := 0
  /-- LINK_SEQ values in the replay buffer (R240), and resent flits to charge -/
  replay : List Nat := []
  resent : Nat := 0
  /-- messages queued: a snapshot, then by class journal records, metadata, dirty lines (R38, R251): ARRAY_KEY, TWIN_SEQ, ADMIT_SEQ -/
  queueSnap : List (Nat × Nat × Nat × SlipMsg) := []
  queueRec : List (Nat × Nat × Nat × SlipMsg) := []
  queueMeta : List (Nat × Nat × Nat × SlipMsg) := []
  queueLine : List (Nat × Nat × Nat × SlipMsg) := []
  sent : List SentMsg := []
  twinSeq : Nat := 1
  /-- TWIN_SEQ values held from the partner, and writes that ended (R247, R248) -/
  heldTwinSeq : List Nat := []
  ended : List Nat := []
  pageSeq : Nat := 0
  /-- a snapshot starts at the next boundary; SNAPSHOT_END is acknowledged (R251) -/
  snapshotDue : Bool := false
  snapshotAcked : Bool := false
  /-- per array key: turn of the last PROGRESS, and what it said (R246) -/
  progressAt : List (Nat × Nat × SlipMsg) := []
deriving DecidableEq, Repr

/-- Twin policy (R264): values in force, then values that take effect at the next boundary. -/
structure TwinPolicy where
  auto : Bool := true
  lossWait : Nat := 200
  side1Delay : Nat := 500
  fenceWait : Nat := 30
deriving DecidableEq, Repr

/-! ### Coil -/

/-- State of an association entry (R280); FREE entries are not listed. -/
inductive AssocSt where
  | opening | confirming | established | closing | closed
deriving DecidableEq, Repr

/-- A sent, unacknowledged sequenced packet (R284). -/
structure Unacked where
  index : Nat := 0
  xmit : Nat := 0
  firstTurn : Nat := 0
  msgId : Nat := 0
  typ : Nat := 9
  offset : Nat := 0
  msgLen : Nat := 1
  tag : Nat := 0
  data : Bytes := []
deriving DecidableEq, Repr

/-- An association cache entry (R280). An entry with `opener` false that is CONFIRMING owes its ACCEPT. -/
structure Assoc where
  no : Nat := 0
  peer : Nat := 0
  st : AssocSt := .opening
  opener : Bool := true
  slot : Bool := false
  epoch : Nat := 0
  block : Nat := 0
  peerEpoch : Nat := 0
  peerBlock : Nat := 0
  peerPmax : Bool := false
  dataCtr : Nat := 0
  ctrlCtr : Nat := 0
  msgCtr : Nat := 1
  /-- the send window W: whole packets, and acknowledgements counted towards the next one (R286) -/
  wNum : Nat := 16
  wFrac : Nat := 0
  halvedAt : Nat := 0
  unacked : List Unacked := []
  /-- retransmission timeout, smoothed round trip and its variation, in microseconds (R284) -/
  rto : Nat := 100
  srtt : Nat := 0
  rttvar : Nat := 0
  highest : Nat := 0
  anyRx : Bool := false
  bitmap : List Nat := []
  lastRx : Nat := 0
  sinceAck : Nat := 0
  eceOwed : Bool := false
  retryUs : Nat := 100
  busy : Bool := false
  busyUs : Nat := 0
  cookie : Nat := 0
deriving DecidableEq, Repr

/-- A message that waits to be sent or is being sent: the entry and MSG_ID it has, and bytes given to packets (R284, R287). -/
structure OutMsg where
  node : Nat := 0
  typ : Nat := 9
  tag : Nat := 0
  data : Bytes := []
  entry : Option Nat := none
  msgId : Nat := 0
  off : Nat := 0
deriving DecidableEq, Repr

/-- Where a reassembled message goes (R287, R288). -/
inductive CoilDest where
  | posted (postId seg off len : Nat)
  | unexpected
  | region (idx : Nat)
  | readBuffer (id : Nat)
  | service
deriving DecidableEq, Repr

/-- A reassembly context (R287). -/
structure Reasm where
  entry : Nat := 0
  msgId : Nat := 0
  msgLen : Nat := 1
  tag : Nat := 0
  src : Nat := 0
  granules : List Nat := []
  bytes : List (Nat × Bytes) := []
  dest : CoilDest := .unexpected
  notify : Bool := false
  complete : Bool := false
deriving DecidableEq, Repr

/-- A posted receive (R299). -/
structure Posted where
  postId : Nat := 0
  tag : Nat := 0
  mask : Nat := 0
  seg : Nat := 0
  off : Nat := 0
  len : Nat := 0
deriving DecidableEq, Repr

/-- An exposed region, or the generation kept of a free index (R290). -/
structure Region where
  idx : Nat := 0
  live : Bool := false
  leaving : Bool := false
  retired : Bool := false
  gen : Nat := 0
  seg : Nat := 0
  off : Nat := 0
  len : Nat := 0
  read : Bool := false
  write : Bool := false
  node : Nat := 0
deriving DecidableEq, Repr

/-- COIL_CONFIG values (R297). -/
structure CoilCfg where
  nodeId : Nat := 1
  udpPort : Nat := 44590
  ipv4 : Bool := false
  payload8k : Bool := false
  horizonMs : Nat := 100
  windowMax : Nat := 1024
  dscp : Nat := 0
  unexpectedMib : Nat := 16
  vlan : Nat := 4095
  ringSegment : Nat := 255
  ringEntries : Nat := 1024
  vector : Nat := 0
  addr0 : Nat := 0
  prefix0 : Nat := 64
  gw0 : Nat := 0
  addr1 : Nat := 0
  prefix1 : Nat := 64
  gw1 : Nat := 0
deriving DecidableEq, Repr

/-- One trust slot of the key store and its counters (R274, R276). -/
structure TrustSlot where
  valid : Bool := false
  secret : BitVec 256 := 0
  epoch : Nat := 0
  blockCtr : Nat := 0
  exhausted : Bool := false
  /-- the stateless block: epoch, block number, sequences used -/
  statelessEpoch : Nat := 0
  stateless : Nat := 0
  statelessCtr : Nat := 0
deriving DecidableEq, Repr

/-- The Coil engine (R266 to R299). -/
structure Coil where
  linkUp : BitVec 2 := 0
  training : BitVec 2 := 0
  slot0 : TrustSlot := {}
  slot1 : TrustSlot := {}
  txSlot : Bool := false
  fingerprints : List Nat := []
  cookieKey : BitVec 256 := 0
  /-- the sending slot has changed since the latest boundary (R298) -/
  txChanged : Bool := false
  cfg : CoilCfg := {}
  cfgNext : CoilCfg := {}
  directory : List (Nat × Nat) := []
  directoryNext : Option (List (Nat × Nat)) := none
  assocs : List Assoc := []
  reasm : List Reasm := []
  posted : List Posted := []
  ringIdx : Nat := 0
  ringPhase : Bool := true
  outbox : List OutMsg := []
  /-- packets and bytes sent in this turn, per port (R292) -/
  spent : List (Nat × Nat) := [(0, 0), (0, 0)]
  regions : List Region := []
  exports : List (Nat × Nat) := []
  /-- reads issued: entry, MSG_ID, staging address of the local buffer (R291) -/
  reads : List (Nat × Nat × Nat) := []
  /-- remote mirror streams: ARRAY_KEY, side, F, TWIN_SEQ values held above F (R294) -/
  streams : List (Nat × Nat × Nat × List Nat) := []
  rxBuffer : List Nat := [0, 0]
  tx : Nat := 0
  rx : Nat := 0
  retransmits : Nat := 0
  duplicates : Nat := 0
deriving DecidableEq, Repr

/-- The Coil counters of R295 that follow DUPLICATES, and the limiter of NAK STALE (R281). -/
structure CoilCnt where
  staleRefused : Nat := 0
  authFailures : Nat := 0
  busySent : Nat := 0
  giveUps : Nat := 0
  ecnMarks : Nat := 0
  rxDrops : Nat := 0
  staleNaks : List (Nat × Nat) := []
deriving DecidableEq, Repr

/-! ### Host endpoint -/

/-- One MSI-X table entry and its PBA bit (R311). -/
structure MsixEntry where
  addr : Nat := 0
  data : Nat := 0
  mask : Bool := true
  pba : Bool := false
deriving DecidableEq, Repr

/-- A peer window segment entry (R320). -/
structure Seg where
  valid : Bool := false
  read : Bool := false
  write : Bool := false
  pages : Nat := 0
  off : Nat := 0
deriving DecidableEq, Repr

/-- What a host request was for (R317, R431). -/
inductive HostReq where
  | writeData (sqid cid sector : Nat)
  | channel (ch : Nat) (prefetch : Bool)
  | mciInput (mb : Nat)
deriving DecidableEq, Repr

/-- The host endpoint (R300 to R331). -/
structure Ep where
  speed : Nat := 0
  width : Nat := 0
  flit : Bool := false
  up : Bool := false
  degraded : Bool := false
  d3hot : Bool := false
  d3Stop : Bool := false
  flrActive : Bool := false
  downPending : Bool := false
  cplTimeouts : Nat := 0
  lateCompletions : Nat := 0
  urReceived : Nat := 0
  poisoned : Nat := 0
  atsInvalidations : Nat := 0
  perstCount : Nat := 0
  flrCount : Nat := 0
  surpriseDowns : Nat := 0
  reqs : List (Nat × HostReq) := []
  quarantined : List Nat := []
  /-- cached translations: page, read, write permission (R314) -/
  atc : List (Nat × Bool × Bool) := []
  atcFlush : Bool := false
  /-- invalidations in progress: ITag, page, pages, tags awaited (R315) -/
  invalidations : List (Nat × Nat × Nat × List Nat) := []
  /-- Advanced Error Reporting uncorrectable error status, sticky (R320, R327) -/
  aer : W32 := 0
deriving DecidableEq, Repr

/-- Configuration space fields that hold state (R302, R303, R307, R308). -/
structure Cfg where
  mse : Bool := false
  busMaster : Bool := false
  intDisable : Bool := false
  pmeEn : Bool := false
  pmeStatus : Bool := false
  msiEn : Bool := false
  mme : Nat := 0
  msiMask : W32 := 0
  msiPending : W32 := 0
  msiAddr : Nat := 0
  msiData : Nat := 0
  msixEn : Bool := false
  msixMaskAll : Bool := false
  relaxed : Bool := false
  mps : Nat := 0
  mrrs : Nat := 2
  tag10 : Bool := false
  cplField : Nat := 0
  atsEn : Bool := false
  bar0 : Nat := 0
  bar2 : Nat := 0
  bar4 : Nat := 0
  barSize : Nat := 30
  rom : Nat := 0
  intLine : Nat := 0
  /-- interrupt mode in force and source vectors pending: 0 none, 1 INTx, 2 MSI, 3 MSI-X (R310) -/
  irqMode : Nat := 0
  pending : List Nat := []
deriving DecidableEq, Repr

/-- The peer window (R319 to R323, R330). -/
structure Pw where
  staged : List (Nat × Seg) := []
  active : List (Nat × Seg) := []
  pending : Bool := false
  error : Bool := false
  gen : Nat := 0
  rejected : List Nat := []
  stagingMib : Nat := 1024
  /-- BAR4_DEFAULT in force (R308, R331) -/
  bar4Default : Nat := 30
  /-- staging bytes written since cold reset, addresses strictly rising (R319) -/
  mem : List (Nat × BitVec 8) := []
  /-- resets that left the contents undefined -/
  era : Nat := 0
deriving DecidableEq, Repr

/-! ### The queue engine -/

/-- A submission queue (R337 to R341). -/
structure Sq where
  qid : Nat := 0
  size : Nat := 2
  base : Nat := 0
  cqid : Nat := 0
  tail : Nat := 0
  head : Nat := 0
  deleting : Bool := false
  delCid : Option Nat := none
deriving DecidableEq, Repr

/-- A completion queue (R337 to R345). -/
structure Cq where
  qid : Nat := 0
  size : Nat := 2
  base : Nat := 0
  iv : Nat := 0
  ien : Bool := false
  head : Nat := 0
  tail : Nat := 0
  phase : Bool := true
  used : Nat := 0
  reserved : Nat := 0
deriving DecidableEq, Repr

/-- Stage of an admitted command. -/
inductive CStage where
  | admitted | running | committed | ready (dw0 status : Nat) | posted
deriving DecidableEq, Repr

/-- A command in the queue engine: fetched and waiting, or admitted (R339, R340, R154). -/
structure Cmd where
  sqid : Nat := 0
  e : SqEntry := {}
  admittedAt : Option Nat := none
  stage : CStage := .admitted
  seq : Nat := 0
  array : Nat := 0
  volume : Nat := 0
  slba : Nat := 0
  nlb : Nat := 0
  /-- sectors whose data has landed and passed R133; sectors still to be sent or read -/
  landed : List Nat := []
  todo : List Nat := []
  /-- sectors of a read whose bytes are ready to move to the host: sector, data, protection information -/
  arrived : List (Nat × Sector × Bytes) := []
  /-- sectors of a read that wait for their member or a reconstruction -/
  fetching : List Nat := []
  /-- sectors with a granted kiln car burst -/
  granted : List Nat := []
  /-- stripes (array, stripe, INTENT_GEN) whose close this command waits for -/
  waits : List (Nat × Nat × Nat) := []
  /-- Slip messages that must be acknowledged before commit (R247) -/
  twinWait : List Nat := []
  error : Option Nat := none
  admitTurn : Nat := 0
deriving DecidableEq, Repr

/-- Features that hold values (R353). -/
structure Features where
  arbitration : Nat := 0
  tempOver : Nat := 378
  tempUnder : Nat := 0
  nsq : Nat := 4095
  ncq : Nat := 4095
  queuesSet : Bool := false
  coalThr : Nat := 0
  coalTime : Nat := 0
  coalDisabled : List Nat := []
  atomicity : Nat := 0
  aecHealth : Nat := 0
  aecNs : Bool := false
  aecAna : Bool := false
deriving DecidableEq, Repr

/-- The queue engine and the NVM Express controller (R332 to R359). -/
structure Nvme where
  intMask : W32 := 0
  cc : W32 := 0
  rdy : Bool := false
  readying : Bool := false
  cfs : Bool := false
  shst : Nat := 0
  fetchStop : Bool := false
  aqa : W32 := 0
  asq : Nat := 0
  acq : Nat := 0
  sqs : List Sq := []
  cqs : List Cq := []
  fetched : List Cmd := []
  admitted : List Cmd := []
  admitSeq : Nat := 1
  feat : Features := {}
  aers : List Nat := []
  events : List (Nat × Nat × Nat) := []
  changedNs : List Nat := []
  errorLog : List (Nat × Nat × Nat) := []
  /-- unannounced entries per vector and the turn of the oldest (R345) -/
  unannounced : List (Nat × Nat × Nat) := []
  coalDue : List Nat := []
  critical : Nat := 0
deriving DecidableEq, Repr

/-- RC counters of the queue engine block (R359). -/
structure NvmeCnt where
  admitted : Nat := 0
  cqFullHeld : Nat := 0
  piErrors : Nat := 0
  piRegenerated : Nat := 0
  cidConflicts : Nat := 0
  doorbellErrors : Nat := 0
  abortsDone : Nat := 0
  nsNotReady : Nat := 0
deriving DecidableEq, Repr

/-! ### MCI -/

/-- MB_STATE.STATE (R361). -/
inductive MbState where
  | idle | queued | fetching | executing | finished
deriving DecidableEq, Repr

/-- One entry of the clamp report (R374). -/
structure Clamp where
  field : Nat := 0
  flags : Nat := 0
  requested : Nat := 0
  applied : Nat := 0
deriving DecidableEq, Repr

/-- The response fields of a mailbox (R361, R376). -/
structure MbResp where
  status : Nat := 0
  clampCount : Nat := 0
  respFlags : Nat := 0
  respLength : Nat := 0
  outWritten : Nat := 0
  errField : Nat := 0
  errDetail : Nat := 0
  doneFt : FT := {}
  clamps : List Clamp := []
deriving DecidableEq, Repr

/-- A mailbox (R360 to R378). -/
structure Mailbox where
  lock : Nat := 0
  st : MbState := .idle
  ringIgnored : Bool := false
  opcode : Nat := 0
  flags : Nat := 0
  paramLen : Nat := 0
  tag : Nat := 0
  vector : Nat := 0
  inAddr : Nat := 0
  inLen : Nat := 0
  outAddr : Nat := 0
  outLen : Nat := 0
  resp : MbResp := {}
  submitFt : FT := {}
  inline : Bytes := []
  ringFt : FT := {}
  /-- the command being run: its parameters, payload, staged response and the objects held -/
  params : Bytes := []
  payload : Bytes := []
  staged : Option MbResp := none
  stagedInline : Bytes := []
  stagedOut : Bytes := []
  objects : List (Nat × Nat) := []
  /-- the adjustments made so far, in handling order (R374) -/
  adj : List Clamp := []
  started : Bool := false
  committed : Bool := false
  hostReset : Bool := false
  restarted : Bool := false
  sideband : Bytes := []
deriving DecidableEq, Repr

/-- MCI (R360 to R380). -/
structure Mci where
  mbs : List Mailbox := List.replicate 16 {}
  rings : Nat := 0
  busy : Nat := 0
  authFails : Nat := 0
  sbHostAccess : Nat := 0
  counter : Nat := 0
  eid : Nat := 0
  /-- 0 none, 1 waiting for executing commands, 2 restarting; and the mailbox of DEVICE_RESTART -/
  restart : Nat := 0
  restartMb : Option Nat := none
  activation : Nat := 0
  activationMb : Option Nat := none
deriving DecidableEq, Repr

/-! ### Kiln car -/

/-- A set of channel fields (R414). -/
structure KcSet where
  chain : Nat := 0
  chainSpace : Nat := 0
  ring : Nat := 0
  count : Nat := 0
  hopLimit : Nat := 65536
  seq : Nat := 0
deriving DecidableEq, Repr

/-- Channel state (R434). -/
inductive KcSt where
  | idle | running | stopping | stopped | halted | finished
deriving DecidableEq, Repr

/-- Stop cause (R434). -/
inductive KcCause where
  | none | endOfCount | stop | hopLimit | descError | busError | engineHalt | hostReset | internal
deriving DecidableEq, Repr

/-- A kiln car channel (R412 to R434). -/
structure Chan where
  st : KcSt := .idle
  cause : KcCause := .none
  shadow : KcSet := {}
  committed : Option KcSet := none
  active : KcSet := {}
  commitSeq : Nat := 0
  shadowTaken : Nat := 0
  takenAtCommit : Bool := false
  irqDone : Bool := false
  irqHalted : Bool := false
  irqError : Bool := false
  irqEnable : Bool := false
  vector : Nat := 0
  descDone : Nat := 0
  bytesDone : Nat := 0
  hops : Nat := 0
  curDesc : Nat := 0
  desc : Option KcDesc := none
  crc : Nat := 0
  running : Option (BitVec 64) := none
  startRunning : Option (BitVec 64) := none
  rerun : Bool := false
  handedOver : Bool := false
  granted : Bool := false
  stopWanted : Bool := false
  /-- the descriptor that completed last ended the chain or the count -/
  ended : Bool := false
  /-- the pending copy is due for a hand-over that a halt held back (R430) -/
  dueOver : Bool := false
deriving DecidableEq, Repr

/-- The kiln car (R412 to R434). -/
structure Kc where
  chans : List Chan := List.replicate 64 {}
  reqs : List Nat := List.replicate 96 0
  halted : Bool := false
  restartAt : Nat := 0
  haltCount : Nat := 0
  haltAddr : Nat := 0
  haltChannel : Nat := 0x3F
  haltKind : Nat := 0
  haltPrefetch : Bool := false
  burstsLast : Nat := 0
  burstsCur : Nat := 0
  burstsPlanned : Nat := 0
  reqOverflow : Nat := 0
  hopStops : Nat := 0
  descErrors : Nat := 0
  reruns : Nat := 0
  superseded : Nat := 0
  dataWriteIgnored : Nat := 0
  /-- host requests to issue again after the restart (R429, R154) -/
  reissue : List HostReq := []
deriving DecidableEq, Repr

/-! ### Fault collector and Kiln Log -/

/-- A capture record (R443). -/
structure Capture where
  source : Nat := 0
  sev : Nat := 0
  injected : Bool := false
  masked : Bool := false
  escalated : Bool := false
  live : Bool := false
  loc : LocCode := 0
  cell : Option Nat := none
  master : Option Nat := none
  access : Nat := 0
  size : Nat := 0xFF
  addr : Option Nat := none
  ft : FT := {}
  space : Nat := 0xFF
  seq : Nat := 0
deriving DecidableEq, Repr

/-- A pending episode (R439, R447). -/
structure Episode where
  sev : Nat := 0
  escalated : Bool := false
  recordOnly : Bool := false
deriving DecidableEq, Repr

/-- What the collector keeps for a source; a source not listed has its defaults (R436, R444). -/
structure Src where
  id : Nat := 0
  configured : Nat := 0
  next : Option Nat := none
  autoAck : Bool := false
  autoAckNext : Option Bool := none
  episode : Option Episode := none
  count : Nat := 0
  latest : Option Capture := none
deriving DecidableEq, Repr

/-- A running injection (R447, R453). -/
structure Injection where
  source : Nat := 0
  live : Bool := false
  left : Nat := 1
  cycle : Nat := 0
  loc : LocCode := 0
  addr : Option Nat := none
  /-- the turn after the command was taken -/
  fromTurn : Nat := 0
deriving DecidableEq, Repr

/-- The fault collector (R435 to R453). -/
structure Fc where
  srcs : List Src := []
  first : Option Capture := none
  queue : List Capture := []
  seq : Nat := 0
  irqMinSev : Nat := 2
  irqEnable : Bool := false
  vector : Nat := 0
  faultCount : Nat := 0
  escalations : Nat := 0
  injectedCount : Nat := 0
  queueDrops : Nat := 0
  fatal : Bool := false
  injections : List Injection := []
deriving DecidableEq, Repr

/-- A Kiln Log entry in a slot from 257 to 65,535 (R490 to R494). -/
structure LogEntry where
  slot : Nat := 257
  kind : Nat := 1
  sev : Nat := 0
  hist : Bool := false
  decreased : Bool := false
  saturated : Bool := false
  updates : Nat := 0
  keyA : Nat := 0
  keyB : Nat := 0
  firstFt : FT := {}
  lastFt : FT := {}
  claimed : Nat := 0
  count : Nat := 0
  latest : List Nat := []
  firstDetail : List Nat := []
  sum : Nat := 0
  minV : Nat := 0
  minFt : FT := {}
  maxV : Nat := 0
  maxFt : FT := {}
  bins : List Nat := []
deriving DecidableEq, Repr

/-- A clear-record (R504). -/
structure ClearRec where
  index : Nat := 1
  maxSev : Nat := 3
  epoch : Nat := 0
  counter : Nat := 0
  ft : FT := {}
  claimed : Nat := 0
  cleared : List Nat := []
  dropped : List Nat := []
  digest : BitVec 256 := 0
  ownerDigest : BitVec 256 := 0
  allFreed : Bool := true
deriving DecidableEq, Repr

/-- The Kiln Log (R489 to R510). -/
structure Klog where
  entries : List LogEntry := []
  clears : List ClearRec := []
  dropped : List Nat := [0, 0, 0, 0]
  hintValue : Nat := 0
  hintFt : FT := {}
  hintDecreased : Bool := false
  hintValid : Bool := false
  updates : Nat := 0
  torn : Nat := 0
  /-- KILN_LOG_CLEAR: its MAX_SEVERITY, mailbox, OWNERSHIP_EPOCH and envelope COUNTER (R505) -/
  clearing : Option (Nat × Nat × Nat × Nat) := none
  /-- 1 the clear waits for boundary T; 2 steps 1 to 5 of R505 run -/
  clearStep : Nat := 0
  /-- samples accumulated on-die: kind, keyA, keyB, value, FT, severity (R497) -/
  samples : List (Nat × Nat × Nat × Nat × FT) := []
  waiting : List (Happening × FT) := []
deriving DecidableEq, Repr

/-! ### Security -/

/-- One flash slot as the device knows it (R461, R488): 0 INVALID, 1 DOWNLOADING, 2 VALID. -/
structure FlashSlot where
  st : Nat := 2
  m : Manifest := {}
  written : Nat := 0
  chunk0 : Bool := false
deriving DecidableEq, Repr

/-- A Firing Record's varying body fields (R468). -/
structure FireRec where
  seq : Nat := 1
  life : Life := .provisioned
  slot : Nat := 0
  epoch : Nat := 0
  svFloor : Nat := 0
  debugUnlocks : Nat := 0
  twinBinds : Nat := 0
  powerCycle : Nat := 0
  opMinutes : Nat := 0
  clears : Nat := 0
  flags : Nat := 0
  attempts : Nat := 1
  trustInstalls : Nat := 0
  manifest : Manifest := {}
  config : BitVec 256 := 0
  nonce : BitVec 256 := 0
  ownerDigest : BitVec 256 := 0
  prev : BitVec 256 := 0
deriving DecidableEq, Repr

/-- Owner policy (R479, R481). -/
structure OwnerPolicy where
  requireCosig : Bool := false
  liveActivation : Bool := true
  recoveryHost : Bool := true
  debugAllowed : Bool := true
deriving DecidableEq, Repr

/-- The security island (R454 to R488). -/
structure Sec where
  ownerAlg : Nat := 0
  ownerKey : BitVec 512 := 0
  policy : OwnerPolicy := {}
  slotA : FlashSlot := {}
  slotB : FlashSlot := { st := 0 }
  preferredB : Bool := false
  trialFlag : Bool := false
  bootedB : Bool := false
  fallback : Bool := false
  /-- the boot was started by FW_DOWNLOAD in recovery boot (R467) -/
  fromRecovery : Bool := false
  /-- 0 no boot; 1 the boot ROM runs; verified so far: 2 STAGE1, 3 OPTION_ROM, 4 STAGE2, 5 MICROCODE, 6 CONTROL (R464) -/
  bootStep : Nat := 0
  /-- the manifest of the running boot, with the CONTROL digest and version of the running image (R469, R476) -/
  running : Manifest := {}
  bootAttempts : Nat := 0
  recordSeq : Nat := 0
  records : List FireRec := []
  /-- records to be signed, with the FLAGS of R469 that tell them apart: 0 boot, 4 live activation, 64 decommission -/
  recordDue : List Nat := []
  nonce : Option (BitVec 256) := none
  trustInstalls : Nat := 0
  debugNext : Bool := false
  lastFinal : Nat := 0xFF
  fwVersion : Nat := 0
  microcode : Nat := 0
  progress : Nat × Nat := (0, 0)
  trialFailed : Bool := false
  configDigest : BitVec 256 := 0
deriving DecidableEq, Repr

/-! ### Test -/

/-- A running test (R527 to R542): kind 1 pattern, 2 MBIST, 3 margin. -/
structure Test where
  mb : Nat := 0
  kind : Nat := 1
  unit : Nat := 1
  index : Nat := 0
  lanes : Nat := 0
  pattern : Nat := 5
  algorithm : Nat := 3
  lane : Nat := 0
  axisVoltage : Bool := false
  limit : Nat := 16
  up : Bool := false
  steps : Nat := 0
  below : Nat := 0
  errBelow : Nat := 0
  locked : List Nat := []
  /-- its unit has left service at a turn boundary (R527) -/
  begun : Bool := false
  interrupted : Bool := false
deriving DecidableEq, Repr

/-- A die-to-die bundle (R12, R535, R536). -/
structure Bundle where
  inService : Bool := true
  retired : List Nat := []
  /-- spare lane serving a data lane: (data lane, spare) -/
  subst : List (Nat × Nat) := []
  /-- repair in progress: failed lane, spare, phase 1 waiting, 2 comparing; turn it may start -/
  repair : Option (Nat × Nat × Nat) := none
  repairTurn : Nat := 0
  waiting : List Nat := []
deriving DecidableEq, Repr

/-- Test and diagnostics (R527 to R542). -/
structure Tst where
  tests : List Test := []
  bundles : List Bundle := List.replicate 16 {}
  d2dRepairs : Nat := 0
  mbistFails : Nat := 0
  extestSeen : Bool := false
  tap : TapInstr := .idcode
  tapReset : Bool := true
deriving DecidableEq, Repr

/-! ### The whole state -/

/-- The state of the block. `pending` is the queue of commands, first in, first out; `out` is what the device has sent,
latest first; `free` counts the free values drawn (log entry 3). -/
structure State where
  hw : Hw := {}
  pins : Pins := {}
  clk : Clk := {}
  sched : Sched := {}
  dev : DevStatus := {}
  sag : Saggar := {}
  vault : Vault := {}
  arr : Arrays := {}
  pol : Policy := {}
  polNext : Policy := {}
  twin : Twin := {}
  tpol : TwinPolicy := {}
  tpolNext : TwinPolicy := {}
  coil : Coil := {}
  ccnt : CoilCnt := {}
  ep : Ep := {}
  cfg : Cfg := {}
  msix : List (Nat × MsixEntry) := []
  pw : Pw := {}
  nvme : Nvme := {}
  ncnt : NvmeCnt := {}
  mci : Mci := {}
  kc : Kc := {}
  fc : Fc := {}
  klog : Klog := {}
  sec : Sec := {}
  tst : Tst := {}
  out : List Output := []
  free : Nat := 0
  pending : List Instr := []
deriving DecidableEq, Repr

/-- The machine right after the aux power-on reset has released, before main power (R524, R559): log entry 4. -/
def State.reset : State := {}

end Sys2Proof.Machine
end

