-- ==== Sys2Proof/Machine/Ops.lean ====
section
/-! DEFINITION. The named operations every family of commands shares: byte order, lists, time, output, the finishers of
a meaning, interrupts, the Kiln Log and the state of units. -/
namespace Sys2Proof.Machine

/-- The answer of a meaning. -/
abbrev Out := Host.Outcome State Fault Refusal

/-! ### Numbers, bytes and lists -/

/-- A number as a 32-bit register field. -/
def u32 (n : Nat) : Nat := n % 4294967296
/-- A counter of access RC, which saturates (R7, R330, R449, R526). -/
def sat32 (n : Nat) : Nat := min n 4294967295
/-- One more in a counter that saturates. -/
def bump (n : Nat) : Nat := sat32 (n + 1)
/-- Division rounding up. -/
def cdiv (a b : Nat) : Nat := (a + b - 1) / b

/-- `n` as `k` bytes, little-endian (R4). -/
def leBytes (k n : Nat) : Bytes :=
  match k with
  | 0 => []
  | k + 1 => BitVec.ofNat 8 n :: leBytes k (n / 256)

/-- `n` as `k` bytes, big-endian (R4). -/
def beBytes (k n : Nat) : Bytes := (leBytes k n).reverse

/-- The number that bytes spell, little-endian (R4). -/
def leNat : Bytes → Nat
  | [] => 0
  | b :: bs => b.toNat + 256 * leNat bs

/-- `len` bytes at `off`; bytes past the end read as zero (R373: a parameter block is zero-extended). -/
def slice (b : Bytes) (off len : Nat) : Bytes :=
  let p := (b.drop off).take len
  p ++ List.replicate (len - p.length) 0

/-- The little-endian field of `len` bytes at `off`. -/
def field (b : Bytes) (off len : Nat) : Nat := leNat ((b.drop off).take len)

/-- `b` with `data` written over it at `off`, extended with zeros where it is shorter. -/
def putBytes (b : Bytes) (off : Nat) (data : Bytes) : Bytes :=
  slice b 0 off ++ data ++ b.drop (off + data.length)

/-- Trailing zero bytes left out: the canonical form of a `Sector`. -/
def trimZeros (b : Bytes) : Bytes := (b.reverse.dropWhile (fun x => x == 0)).reverse

/-- The bytes of a name. -/
def ascii (s : String) : Bytes := s.toList.map (fun c => BitVec.ofNat 8 c.toNat)
/-- `b` cut or zero-padded to `k` bytes. -/
def padTo (k : Nat) (b : Bytes) : Bytes := slice b 0 k

/-- Bit `i` of a number. -/
def bit (n i : Nat) : Bool := n.testBit i
/-- A Boolean as a bit at position `i`. -/
def flag (b : Bool) (i : Nat) : Nat := if b then 2 ^ i else 0
/-- A list of Booleans as a bit map, index 0 lowest. -/
def bitmap : List Bool → Nat
  | [] => 0
  | b :: bs => flag b 0 + 2 * bitmap bs

/-- The element at `i`, or `d`. -/
def nth {α : Type} (l : List α) (i : Nat) (d : α) : α := (l[i]?).getD d
/-- `l` with the element at `i` changed by `f`. -/
def nthMod {α : Type} (l : List α) (i : Nat) (f : α → α) : List α := l.modify i f
/-- Every element that meets `p` changed by `f`. -/
def mapIf {α : Type} (l : List α) (p : α → Bool) (f : α → α) : List α := l.map (fun a => if p a then f a else a)
/-- Whether a list names `n`. -/
def mem (n : Nat) (l : List Nat) : Bool := l.contains n
/-- `n` put into a list that has no repeats. -/
def addOnce (n : Nat) (l : List Nat) : List Nat := if l.contains n then l else l ++ [n]
/-- The sum of a list. -/
def total (l : List Nat) : Nat := l.foldl (· + ·) 0
/-- A clamp to a range. -/
def clampTo (lo hi n : Nat) : Nat := min hi (max lo n)

/-- The value a sorted association list gives a key. -/
def lookup {α : Type} (l : List (Nat × α)) (k : Nat) : Option α := (l.find? (fun p => p.1 == k)).map (·.2)
/-- An association list with strictly rising keys, with `k` set to `v`. -/
def insert {α : Type} (k : Nat) (v : α) : List (Nat × α) → List (Nat × α)
  | [] => [(k, v)]
  | p :: l => if k < p.1 then (k, v) :: p :: l else if k = p.1 then (k, v) :: l else p :: insert k v l
/-- An association list without the key `k`. -/
def erase {α : Type} (k : Nat) (l : List (Nat × α)) : List (Nat × α) := l.filter (fun p => p.1 != k)

/-! ### Changing one part of the state -/

def State.onPins (f : Pins → Pins) (s : State) : State := { s with pins := f s.pins }
def State.onClk (f : Clk → Clk) (s : State) : State := { s with clk := f s.clk }
def State.onSched (f : Sched → Sched) (s : State) : State := { s with sched := f s.sched }
def State.onDev (f : DevStatus → DevStatus) (s : State) : State := { s with dev := f s.dev }
def State.onSag (f : Saggar → Saggar) (s : State) : State := { s with sag := f s.sag }
def State.onVault (f : Vault → Vault) (s : State) : State := { s with vault := f s.vault }
def State.onArr (f : Arrays → Arrays) (s : State) : State := { s with arr := f s.arr }
def State.onTwin (f : Twin → Twin) (s : State) : State := { s with twin := f s.twin }
def State.onCoil (f : Coil → Coil) (s : State) : State := { s with coil := f s.coil }
def State.onCcnt (f : CoilCnt → CoilCnt) (s : State) : State := { s with ccnt := f s.ccnt }
def State.onEp (f : Ep → Ep) (s : State) : State := { s with ep := f s.ep }
def State.onCfg (f : Cfg → Cfg) (s : State) : State := { s with cfg := f s.cfg }
def State.onPw (f : Pw → Pw) (s : State) : State := { s with pw := f s.pw }
def State.onNvme (f : Nvme → Nvme) (s : State) : State := { s with nvme := f s.nvme }
def State.onNcnt (f : NvmeCnt → NvmeCnt) (s : State) : State := { s with ncnt := f s.ncnt }
def State.onMci (f : Mci → Mci) (s : State) : State := { s with mci := f s.mci }
def State.onKc (f : Kc → Kc) (s : State) : State := { s with kc := f s.kc }
def State.onFc (f : Fc → Fc) (s : State) : State := { s with fc := f s.fc }
def State.onKlog (f : Klog → Klog) (s : State) : State := { s with klog := f s.klog }
def State.onSec (f : Sec → Sec) (s : State) : State := { s with sec := f s.sec }
def State.onTst (f : Tst → Tst) (s : State) : State := { s with tst := f s.tst }
def State.onPol (f : Policy → Policy) (s : State) : State := { s with pol := f s.pol }

/-! ### Finishers -/

/-- The end of a meaning: the queue's rest, time and fuses stay, and FATAL is never left (R441, R458). -/
def done (s t : State) : Out :=
  .next { t with pending := s.pending, hw := s.hw, fc := { t.fc with fatal := s.fc.fatal || t.fc.fatal } }

/-- The end of a meaning that owns time or fuses and gives them the value `h`. -/
def doneHw (h : Hw) (s t : State) : Out :=
  .next { t with pending := s.pending, hw := h, fc := { t.fc with fatal := s.fc.fatal || t.fc.fatal } }

/-- The device sends `o`. -/
def emit (o : Output) (s : State) : State := { s with out := o :: s.out }

/-- A value the spec leaves open (log entry 3). -/
def freeNat (k : Nat) (s : State) : Nat := (Config.freeValue s.free).toNat % 2 ^ k
/-- The free value just read is used up. -/
def tookFree (s : State) : State := { s with free := s.free + 1 }
/-- A number drawn from the random number generator, `k` words of 64 bits (R59, R276, R391, R396, R404). -/
def drawn (k : Nat) (s : State) : Nat :=
  match k with
  | 0 => 0
  | k + 1 => (Config.random64 s.free).toNat + 2 ^ 64 * drawn k { s with free := s.free + 1 }
/-- A MEMBER_UID or ARRAY_UID: random and never zero (R82). Two words are drawn. -/
def drawnUid (s : State) : Nat := drawn 2 s % (2 ^ 128 - 1) + 1

/-! ### Time -/

/-- Cycles per turn (R29). -/
def cyclesOf (lenSel : Nat) : Nat := match lenSel with | 1 => 1024 | 2 => 4096 | _ => 2048
/-- Turn length in nanoseconds (R29). -/
def nsOf (lenSel : Nat) : Nat := match lenSel with | 1 => 512 | 2 => 2048 | _ => 1024
/-- Cycles per turn in force. -/
def State.cycles (s : State) : Nat := cyclesOf s.sched.lenSel
/-- Turn length in force, in nanoseconds. -/
def State.turnNs (s : State) : Nat := nsOf s.sched.lenSel
/-- Fine time now. -/
def State.now (s : State) : FT := ⟨s.hw.powerCycle, s.hw.opMinutes, s.hw.turn, s.hw.cycle⟩

/-- Fine time `a` precedes `b` (R8). -/
def ftBefore (a b : FT) : Bool :=
  a.powerCycle < b.powerCycle ||
    (a.powerCycle == b.powerCycle && (a.turn < b.turn || (a.turn == b.turn && a.cycle < b.cycle)))

/-- The 16 bytes of a fine time (Time, in 00_scope). -/
def ftBytes (t : FT) : Bytes :=
  leBytes 4 t.powerCycle ++ leBytes 4 t.opMinutes ++ leBytes 6 t.turn ++ leBytes 2 (t.cycle % 4096)

/-- Time at the next turn boundary: R42, with the rollover of R43. -/
def Hw.nextTurn (h : Hw) : Hw :=
  if h.turn + 1 < 2 ^ 48 then { h with turn := h.turn + 1, cycle := 0 }
  else { h with powerCycle := h.powerCycle + 1, turn := 0, cycle := 0 }

/-- The turn that a planning window plans (R32). -/
def State.planTurn (s : State) : Nat := s.hw.nextTurn.turn

/-- One data-path cycle inside the turn: what an empty queue lets happen (log entry 5). -/
def idleTick (s : State) : State :=
  if s.sched.running ∧ s.hw.cycle + 1 < s.cycles then { s with hw := { s.hw with cycle := s.hw.cycle + 1 } } else s

/-! ### Unit presence (R19, R21) -/

def State.kilnPresent (s : State) (n : Nat) : Bool := n < 4 && s.hw.present.getLsbD n
def State.groupPresent (s : State) (g : Nat) : Bool := g < 6 && s.hw.present.getLsbD (4 + g)
def State.ddrPresent (s : State) (c : Nat) : Bool := c < 8 && s.hw.present.getLsbD (10 + c)
def State.coilPresent (s : State) (p : Nat) : Bool := p < 2 && s.hw.present.getLsbD (18 + p)
def State.slipPresent (s : State) : Bool := s.hw.present.getLsbD 20
/-- The -C grade runs its data path from a PLL of its own (Feature grades, R512); it has no Slip link. -/
def State.gradeC (s : State) : Bool := !s.slipPresent

/-- UNIT_SERVICE as it reads: a bit is never set for an absent unit (R21). -/
def State.unitService (s : State) : W32 := s.sched.service &&& s.hw.present
/-- A unit is in service now. -/
def State.inService (s : State) (b : Nat) : Bool := s.unitService.getLsbD b

/-- A change of a unit's service, which takes effect at the next boundary (R21, R23). -/
def wantService (b : Nat) (on : Bool) (s : State) : State :=
  s.onSched fun c => { c with servicePending :=
    if on then c.servicePending ||| (BitVec.ofNat 32 (2 ^ b)) else c.servicePending &&& ~~~(BitVec.ofNat 32 (2 ^ b)) }

/-- The kilns in service for planning (R35). -/
def State.kilns (s : State) : List Nat := (List.range 4).filter (fun n => s.sched.kilnSet.getLsbD n && s.kilnPresent n)

/-- A kiln joins or leaves the set of R35; UNIT_SERVICE follows at the boundary. -/
def setKiln (n : Nat) (on : Bool) (s : State) : State :=
  wantService n on (s.onSched fun c => { c with kilnSet :=
    if on then c.kilnSet ||| (BitVec.ofNat 4 (2 ^ n)) else c.kilnSet &&& ~~~(BitVec.ofNat 4 (2 ^ n)) })

/-! ### Location codes (R14 to R18) -/

/-- The code of an element: die, cluster, engine, lane and macro. -/
def loc (die cluster engine lane macroNo : Nat) : LocCode :=
  BitVec.ofNat 32 (die * 2 ^ 30 + cluster * 2 ^ 24 + engine * 2 ^ 19 + lane * 2 ^ 13 + macroNo * 2 ^ 8)
/-- The code of a cluster, an engine, the package. -/
def locCluster (die cluster : Nat) : LocCode := loc die cluster 31 63 31
def locEngine (die cluster engine : Nat) : LocCode := loc die cluster engine 63 31
def locLane (die cluster engine lane : Nat) : LocCode := loc die cluster engine lane 31
def locDie (die : Nat) : LocCode := loc die 63 31 63 31
def locPkg : LocCode := 0xFFFFFF00#32

def locDieOf (l : LocCode) : Nat := l.toNat / 2 ^ 30
def locClusterOf (l : LocCode) : Nat := l.toNat / 2 ^ 24 % 64
def locEngineOf (l : LocCode) : Nat := l.toNat / 2 ^ 19 % 32
def locLaneOf (l : LocCode) : Nat := l.toNat / 2 ^ 13 % 64
def locMacroOf (l : LocCode) : Nat := l.toNat / 2 ^ 8 % 32

/-- A code as a reader takes it: every field below an all-ones field is all ones, and a die of 2 or 3 is the package (R15). -/
def locRead (l : LocCode) : LocCode :=
  if 2 ≤ locDieOf l then locPkg
  else if locClusterOf l = 63 then locDie (locDieOf l)
  else if locEngineOf l = 31 then locCluster (locDieOf l) (locClusterOf l)
  else if locLaneOf l = 63 then locEngine (locDieOf l) (locClusterOf l) (locEngineOf l)
  else loc (locDieOf l) (locClusterOf l) (locEngineOf l) (locLaneOf l) (locMacroOf l)

/-- The port of engine `e` in group `g` (R18, R547). -/
def portOfEngine (x4 : BitVec 6) (g e : Nat) : Option Nat :=
  if e < 4 then some (4 * g + e) else if e < 8 ∧ ¬ x4.getLsbD g then some (4 * g + e - 4 + 24) else none
/-- The group of a port (R547): ports 24 to 47 are the second ports of a bifurcated group. -/
def groupOfPort (p : Nat) : Nat := (if p < 24 then p else p - 24) / 4
/-- The location code of a member port (R18, R575). -/
def locPort (p : Nat) : LocCode :=
  locEngine 1 (groupOfPort p + 1) (if p < 24 then p % 4 else 4 + (p - 24) % 4)

/-! ### Interrupts (R310 to R312) -/

/-- The MSI-X entry of a vector; every entry is masked after a reset (R327). -/
def State.msixAt (s : State) (v : Nat) : MsixEntry := (lookup s.msix v).getD {}

/-- Source vector `v` stays pending. -/
def irqPend (v : Nat) (s : State) : State := s.onCfg fun c => { c with pending := addOnce v c.pending }

/-- The block's source no longer asks: nothing is pending for `v`, and INTA falls when nothing is (R312). -/
def irqClear (v : Nat) (s : State) : State := s.onCfg fun c => { c with pending := c.pending.filter (· != v) }

/-- The MSI-X message of entry `v`, sent or held in the PBA (R311). -/
def sendMsix (v : Nat) (s : State) : State :=
  let e := s.msixAt v
  if s.cfg.msixMaskAll || e.mask then { s with msix := insert v { e with pba := true } s.msix }
  else emit (.intr 3 v e.addr e.data) { s with msix := insert v { e with pba := false } s.msix }

/-- The MSI message of source vector `v`: MSI vector v mod A (R312). -/
def sendMsi (v : Nat) (s : State) : State :=
  let m := v % 2 ^ s.cfg.mme
  if s.cfg.msiMask.getLsbD m then s.onCfg fun c => { c with msiPending := c.msiPending ||| BitVec.ofNat 32 (2 ^ m) }
  else emit (.intr 2 m s.cfg.msiAddr (s.cfg.msiData + m)) s

/-- Source vector `v` signals in the mode in force (R310). Nothing but PME is sent in D3hot (R324). -/
def signal (v : Nat) (s : State) : State :=
  if s.ep.d3hot then irqPend v s
  else match s.cfg.irqMode with
    | 3 => sendMsix v s
    | 2 => sendMsi v s
    | 1 => emit (.intr 1 v 0 0) (irqPend v s)
    | _ => irqPend v s

/-- Source vector `v` of the queue engine signals: INTMS masks it in MSI and INTx modes (R312, R333). -/
def signalNvme (v : Nat) (s : State) : State :=
  let m := if s.cfg.irqMode = 2 then v % 2 ^ s.cfg.mme else v % 32
  if (s.cfg.irqMode = 1 ∨ s.cfg.irqMode = 2) ∧ s.nvme.intMask.getLsbD m then irqPend v s else signal v s

/-- The interrupt mode that the configuration fields choose (R310). -/
def Cfg.chosenMode (c : Cfg) : Nat := if c.msixEn then 3 else if c.msiEn then 2 else if c.intDisable then 0 else 1

/-- A PME message in D3hot with PME_Status set (R326). -/
def sendPme (s : State) : State := emit .pme (s.onCfg fun c => { c with pmeStatus := true })

/-- A GLOBAL_EVENT bit sets, and signals when enabled (R572). -/
def globalEvent (b : Nat) (s : State) : State :=
  let t := s.onSched fun c => { c with globalEvent := c.globalEvent ||| BitVec.ofNat 4 (2 ^ b) }
  if s.sched.globalEventEn.getLsbD b then signal s.sched.globalVector t else t

/-! ### The Kiln Log (R489 to R503) -/

/-- The claimed time at fine time `f` (R503): the hint, plus the turns elapsed in its power cycle. -/
def State.claimedAt (s : State) (f : FT) : Nat :=
  if s.klog.hintValid then s.klog.hintValue + (f.turn - s.klog.hintFt.turn) * s.turnNs / 1000000 else 0

/-- The lowest-numbered free slot from `n` on, in a list whose slots rise (R500). -/
def lowestFree (n : Nat) : List LogEntry → Nat
  | [] => n
  | e :: es => if n < e.slot then n else lowestFree (e.slot + 1) es

/-- An entry put in slot order. -/
def placeEntry (x : LogEntry) : List LogEntry → List LogEntry
  | [] => [x]
  | e :: es => if x.slot < e.slot then x :: e :: es else if x.slot = e.slot then x :: es else e :: placeEntry x es

/-- The entry a full log gives up to a happening of severity `sev` (R500): lowest severity, then lowest LAST_FT, then
lowest slot. -/
def victim (sev : Nat) (es : List LogEntry) : Option LogEntry :=
  es.foldl (fun best e =>
    if sev < e.sev then best else match best with
      | none => some e
      | some b => if e.sev < b.sev || (e.sev == b.sev && ftBefore e.lastFt b.lastFt) then some e else best) none

/-- Entry slots of the log (R489). -/
def logSlots : Nat := 65279

/-- A merge into the entry of the key (R491). -/
def mergeEntry (h : Happening) (f : FT) (claimed : Nat) (decr : Bool) (e : LogEntry) : LogEntry :=
  { e with count := min (e.count + 1) (2 ^ 64 - 1), lastFt := f, claimed := claimed, latest := h.detail, sev := max e.sev h.sev,
           saturated := e.saturated || decide (2 ^ 64 - 1 ≤ e.count + 1),
           updates := min (e.updates + 1) 4294967295, decreased := e.decreased || decr }

/-- A new entry for a happening (R490, R492). -/
def newEntry (slot : Nat) (h : Happening) (f : FT) (claimed : Nat) (decr : Bool) : LogEntry :=
  { slot := slot, kind := h.kind, sev := h.sev, decreased := decr, updates := 1, keyA := h.keyA, keyB := h.keyB,
    firstFt := f, lastFt := f, claimed := claimed, count := 1, latest := h.detail, firstDetail := h.detail }

/-- Counts a happening that finds no slot (R501). -/
def dropHappening (sev : Nat) (k : Klog) : Klog := { k with dropped := nthMod k.dropped sev (fun n => min (n + 1) (2 ^ 64 - 1)) }

/-- Whether an entry holds a key (R491). -/
def LogEntry.hasKey (e : LogEntry) (kind a b : Nat) : Bool := e.kind == kind && e.keyA == a && e.keyB == b

/-- The recorder takes one happening of fine time `f`: merged, placed or dropped (R491, R500, R501). -/
def takeHappening (h : Happening) (f : FT) (claimed : Nat) (k : Klog) : Klog :=
  let decr := k.hintDecreased
  if k.entries.any (fun e => e.hasKey h.kind h.keyA h.keyB) then
    { k with entries := mapIf k.entries (fun e => e.hasKey h.kind h.keyA h.keyB) (mergeEntry h f claimed decr),
             updates := bump k.updates }
  else if k.entries.length < logSlots then
    { k with entries := placeEntry (newEntry (lowestFree 257 k.entries) h f claimed decr) k.entries, updates := bump k.updates }
  else match victim h.sev k.entries with
    | some e => { k with entries := placeEntry (newEntry e.slot h f claimed decr) k.entries, updates := bump k.updates }
    | none => dropHappening h.sev k

/-- A happening reaches the recorder: while a clear runs it waits in the input queue of 4,096 entries (R505). -/
def record (h : Happening) (s : State) : State :=
  s.onKlog fun k =>
    if k.clearStep = 2 then
      if k.waiting.length < 4096 then { k with waiting := k.waiting ++ [(h, s.now)] } else dropHappening h.sev k
    else takeHappening h s.now (s.claimedAt s.now) k

/-- A SECURITY happening (R492). -/
def recordSecurity (sub keyB : Nat) (detail : List Nat) : State → State :=
  record { kind := 5, keyA := sub, keyB := keyB, sev := if sub = 6 then 2 else 3, detail := detail }
/-- An ARRAY happening (R492). -/
def recordArray (array sub : Nat) (detail : List Nat) : State → State :=
  record { kind := 6, keyA := array + 1, keyB := sub, sev := if sub = 2 then 3 else 2, detail := detail }
/-- A CONFIG happening with the applied parameters (R492). -/
def recordConfig (opcode : Nat) (params : Bytes) : State → State :=
  record { kind := 7, keyA := opcode, keyB := 0, sev := 1, detail := (params.take 48).map BitVec.toNat }

/-- A histogram sample, accumulated on-die until R497 merges it. -/
def sample (kind a b v : Nat) (s : State) : State :=
  s.onKlog fun k => { k with samples := k.samples ++ [(kind, a, b, v, s.now)] }

/-- The bin of a sample (R495, R496). -/
def binOf (kind v : Nat) : Nat :=
  let logBin (b : Nat) : Nat := if v < 2 ^ b then 0 else min 15 (Nat.log2 v - b + 1)
  match kind with
  | 0x0101 => logBin 2
  | 0x0102 => logBin 4
  | 0x0103 => if v < 24 then 0 else min 15 ((v - 24) / 8)
  | 0x0104 => logBin 10
  | 0x0105 => logBin 10
  | _ => logBin 0

/-- One sample merged into its entry's body (R494). -/
def mergeSample (v : Nat) (f : FT) (claimed : Nat) (decr : Bool) (e : LogEntry) : LogEntry :=
  let bins := nthMod e.bins (binOf e.kind v) (fun n => min (n + 1) 4294967295)
  { e with count := min (e.count + 1) (2 ^ 64 - 1), sum := min (e.sum + v) (2 ^ 64 - 1), lastFt := f, claimed := claimed,
           updates := min (e.updates + 1) 4294967295, decreased := e.decreased || decr,
           saturated := e.saturated || bins.any (· == 4294967295) || decide (2 ^ 64 - 1 ≤ e.sum + v) || decide (2 ^ 64 - 1 ≤ e.count + 1),
           minV := if v < e.minV then v else e.minV, minFt := if v < e.minV then f else e.minFt,
           maxV := if e.maxV < v then v else e.maxV, maxFt := if e.maxV < v then f else e.maxFt, bins := bins }

/-- A fresh histogram entry holding one sample (R494). -/
def newHist (slot kind a b v : Nat) (f : FT) (claimed : Nat) (decr : Bool) : LogEntry :=
  { slot := slot, kind := kind, sev := if kind = 0x0104 then 1 else 0, hist := true, decreased := decr, updates := 1,
    keyA := a, keyB := b, firstFt := f, lastFt := f, claimed := claimed, count := 1, sum := v, minV := v, minFt := f,
    maxV := v, maxFt := f, bins := nthMod (List.replicate 16 0) (binOf kind v) (· + 1) }

/-- One accumulated sample merges into MRAM (R494, R497), taking a slot under R500 where its key has none. -/
def takeSample (claim : FT → Nat) (k : Klog) (x : Nat × Nat × Nat × Nat × FT) : Klog :=
  let (kind, a, b, v, f) := x
  let decr := k.hintDecreased
  let sev := if kind = 0x0104 then 1 else 0
  if k.entries.any (fun e => e.hasKey kind a b) then
    { k with entries := mapIf k.entries (fun e => e.hasKey kind a b) (mergeSample v f (claim f) decr), updates := bump k.updates }
  else if k.entries.length < logSlots then
    { k with entries := placeEntry (newHist (lowestFree 257 k.entries) kind a b v f (claim f) decr) k.entries, updates := bump k.updates }
  else match victim sev k.entries with
    | some e => { k with entries := placeEntry (newHist e.slot kind a b v f (claim f) decr) k.entries, updates := bump k.updates }
    | none => dropHappening sev k

/-- Every accumulated sample merges (R497). -/
def mergeSamples (s : State) : State :=
  s.onKlog fun k => { (k.samples.foldl (takeSample s.claimedAt) k) with samples := [] }

end Sys2Proof.Machine
end

