-- ==== Sys2Proof/Machine/Codes.lean ====
section
/-! DEFINITION. Check codes (R77), the field GF(2^8) with the parity equations (R49 to R53, R55), and the staging memory
of the peer window (R319). -/
namespace Sys2Proof.Machine

/-! ### CRC (R77) -/

/-- Eight steps of a reflected CRC-64 register. -/
def crc64Bits (k : Nat) (c : BitVec 64) : BitVec 64 :=
  match k with
  | 0 => c
  | k + 1 => crc64Bits k (if c.getLsbD 0 then (c >>> 1) ^^^ 0x9A6C9329AC4BC9B5#64 else c >>> 1)
/-- One byte into the running CRC-64. -/
def crc64Step (c : BitVec 64) (b : Byte) : BitVec 64 := crc64Bits 8 (c ^^^ b.setWidth 64)
/-- The CRC-64 guard of R77. -/
def crc64 (bs : Bytes) : BitVec 64 := ~~~ bs.foldl crc64Step (~~~ 0#64)

/-- Eight steps of a reflected CRC-32C register. -/
def crc32Bits (k : Nat) (c : BitVec 32) : BitVec 32 :=
  match k with
  | 0 => c
  | k + 1 => crc32Bits k (if c.getLsbD 0 then (c >>> 1) ^^^ 0x82F63B78#32 else c >>> 1)
/-- One byte into the running CRC-32C. -/
def crc32Step (c : BitVec 32) (b : Byte) : BitVec 32 := crc32Bits 8 (c ^^^ b.setWidth 32)
/-- CRC-32C (R77). -/
def crc32 (bs : Bytes) : BitVec 32 := ~~~ bs.foldl crc32Step (~~~ 0#32)

/-- The initial running value of a descriptor's CRC: 1 CRC-32C, 2 CRC-64 (R423). -/
def crcInit (kind : Nat) : BitVec 64 := if kind = 1 then (0xFFFFFFFF#32).setWidth 64 else ~~~ 0#64
/-- Stream bytes into a running CRC of a kind. -/
def crcRun (kind : Nat) (c : BitVec 64) (bs : Bytes) : BitVec 64 :=
  if kind = 1 then (bs.foldl crc32Step (c.setWidth 32)).setWidth 64 else bs.foldl crc64Step c
/-- The final value after the final XOR. -/
def crcFinal (kind : Nat) (c : BitVec 64) : Nat := if kind = 1 then (~~~ (c.setWidth 32)).toNat else (~~~ c).toNat

/-- A structure with its CRC-32C at `off`, computed with that field zero (R77). -/
def withCrc32 (off : Nat) (b : Bytes) : Bytes := putBytes b off (leBytes 4 (crc32 (putBytes b off (leBytes 4 0))).toNat)

def RecCode : RecState → Nat
  | .opened => 1 | .closing => 2 | .retired => 3

/-- An intent record (R161). -/
def recBytes (r : Rec) : Bytes :=
  withCrc32 60 (leBytes 8 r.key ++ leBytes 8 r.stripe ++ leBytes 8 r.intentGen ++ leBytes 8 r.closeGen ++ leBytes 8 r.roleMask ++
    leBytes 8 r.twinSeq ++ leBytes 4 r.descGen ++ leBytes 1 (RecCode r.st) ++
    leBytes 1 (flag r.full 0 + flag r.mirrored 1 + flag r.repair 2) ++ leBytes 2 0 ++ leBytes 4 r.dirty ++ leBytes 4 0)

/-! ### GF(2^8) (R49) -/

/-- Multiplication by 2: a shift, with 0x1D added when a 1 is shifted out. -/
def gfDouble (a : Byte) : Byte := if a.getLsbD 7 then (a <<< 1) ^^^ 0x1D#8 else a <<< 1
/-- gf_mul over the low `k` bits of the multiplier. -/
def gfMulBits : Nat → Byte → Byte → Byte
  | 0, _, _ => 0
  | k + 1, a, b => (if b.getLsbD 0 then a else 0) ^^^ gfMulBits k (gfDouble a) (b >>> 1)
/-- gf_mul (R49). -/
def gfMul (a b : Byte) : Byte := gfMulBits 8 a b
/-- `a` to the power `n`. -/
def gfPow (a : Byte) : Nat → Byte
  | 0 => 1
  | n + 1 => gfMul a (gfPow a n)
/-- The inverse of a nonzero element: a^254, by squarings. -/
def gfInv (a : Byte) : Byte :=
  let a2 := gfMul a a
  let a4 := gfMul a2 a2
  let a8 := gfMul a4 a4
  let a16 := gfMul a8 a8
  let a32 := gfMul a16 a16
  let a64 := gfMul a32 a32
  let a128 := gfMul a64 a64
  gfMul (gfMul (gfMul a2 a4) (gfMul a8 a16)) (gfMul (gfMul a32 a64) a128)
/-- gf_div (R49). -/
def gfDiv (a b : Byte) : Byte := gfMul a (gfInv b)

/-- The coefficient c(j, i) of R50; `form` is 2 classic, 3 Cauchy. -/
def coef (form j i : Nat) : Byte :=
  if form = 2 then (if j = 0 then 1 else gfPow 2 i)
  else gfDiv (BitVec.ofNat 8 (4 + i)) (BitVec.ofNat 8 j ^^^ BitVec.ofNat 8 (4 + i))

/-! ### Sectors as vectors over the field -/

/-- The sum of two sectors; a shorter one stands for its zero-extension. -/
def xorBytes : Bytes → Bytes → Bytes
  | [], b => b
  | a, [] => a
  | x :: a, y :: b => (x ^^^ y) :: xorBytes a b
/-- A sector times a coefficient. -/
def scale (c : Byte) (b : Bytes) : Bytes := if c = 1 then b else b.map (gfMul c)

/-- Parity sector j of data sectors (R50, R51). -/
def parityOf (form j : Nat) (data : List (Nat × Bytes)) : Bytes :=
  trimZeros (data.foldl (fun p d => xorBytes p (scale (coef form j d.1) d.2)) [])

/-- One row of a linear system: coefficients and the right side. -/
abbrev Row := List Byte × Bytes

/-- A row scaled, and one added to another. -/
def rowScale (c : Byte) (r : Row) : Row := (r.1.map (gfMul c), scale c r.2)
def rowAdd (r t : Row) : Row := (List.zipWith (· ^^^ ·) r.1 t.1, xorBytes r.2 t.2)

/-- Gauss-Jordan elimination from column `col` on, over `n` columns (R53). Rows before `done` are pivots already. -/
def eliminate : Nat → Nat → List Row → List Row → List Row
  | 0, _, pivots, _ => pivots
  | n + 1, col, pivots, rest =>
    match rest.find? (fun r => nth r.1 col 0 != 0) with
    | none => pivots
    | some p =>
      let q := rowScale (gfInv (nth p.1 col 0)) p
      let clear (r : Row) : Row := rowAdd r (rowScale (nth r.1 col 0) q)
      eliminate n (col + 1) (pivots.map clear ++ [q]) ((rest.erase p).map clear)

/-- The solution of a square system, in the order of its unknowns. -/
def solve (rows : List Row) : List Bytes := (eliminate rows.length 0 [] rows).map (fun r => trimZeros r.2)

/-- Reconstruction of R53: `have_` gives the surviving roles (data below k, parity from k on); the answer gives every
erased role its bytes, or none when the erasures exceed m. -/
def reconstruct (form k m : Nat) (have_ : List (Nat × Bytes)) (erased : List Nat) : Option (List (Nat × Bytes)) :=
  let ed := erased.filter (· < k)
  let ep := erased.filter (fun r => k ≤ r)
  if m < erased.length then none
  else
    let rows := ((List.range m).filter (fun j => !ep.contains (k + j))).take ed.length
    let data := have_.filter (fun d => d.1 < k)
    let sys : List Row := rows.map fun j =>
      (ed.map (coef form j), data.foldl (fun p d => xorBytes p (scale (coef form j d.1) d.2)) ((lookup have_ (k + j)).getD []))
    let solved := ed.zip (solve sys)
    let all := data ++ solved
    some (solved ++ ep.map (fun r => (r, parityOf form (r - k) all)))

/-- Delta update of parity j over the changed roles: (role, old, new) (R55). -/
def deltaParity (form j : Nat) (old : Bytes) (changes : List (Nat × Bytes × Bytes)) : Bytes :=
  trimZeros (changes.foldl (fun p c => xorBytes p (scale (coef form j c.1) (xorBytes c.2.1 c.2.2))) old)

/-! ### Peer window staging (R319) -/

/-- A staging byte; one that nothing has written is undefined. -/
def stagingByte (s : State) (a : Nat) : Byte := (lookup s.pw.mem a).getD (Config.stagingByte s.pw.era a)
/-- `n` staging bytes from `a`. -/
def stagingBytes (s : State) (a n : Nat) : Bytes := (List.range n).map (fun i => stagingByte s (a + i))
/-- Bytes written to a sparse memory from address `a`. -/
def memWrite (a : Nat) : Bytes → List (Nat × BitVec 8) → List (Nat × BitVec 8)
  | [], m => m
  | b :: bs, m => memWrite (a + 1) bs (insert a b m)
/-- Bytes written to staging. -/
def stagingWrite (a : Nat) (data : Bytes) (s : State) : State := s.onPw fun w => { w with mem := memWrite a data w.mem }

end Sys2Proof.Machine
end

