-- ==== Sys2Proof/Machine/Units.lean ====
section
/-! DEFINITION. Units leaving and entering service, tests cut short, host reads with tags, and the start of a FATAL
state: what faults, commands and links share. -/
namespace Sys2Proof.Machine

/-- A slice granted to a kiln that leaves it unfinished runs again ahead of new pieces (R23). -/
def rerunSlice (n : Nat) (x : Slice) : Slice :=
  if x.kiln = n ∧ x.phase = .granted then { x with phase := .ready, rerun := true } else x

/-- The unfinished pieces of a faulty kiln go back to be dealt (R23). -/
def rerunKiln (n : Nat) (s : State) : State :=
  s.onArr fun a => { a with jobs := a.jobs.map (fun j => { j with slices := j.slices.map (rerunSlice n) }),
                            matrices := a.matrices.filter (fun m => m.1 != n), kilnBufUsed := nthMod a.kilnBufUsed n (fun _ => 0) }

/-- A fault fences kiln `n` (R22, R23). -/
def faultFence (n : Nat) (s : State) : State := rerunKiln n (setKiln n false s)

/-- A member becomes UNAVAILABLE with the cause it would fail with. Unless a timeout alone was the cause, its identity must be
read back before it returns (R193). -/
def makeUnavailable (p : Ns → Bool) (cause : Nat) (s : State) (reread : Bool := true) : State :=
  s.onArr fun a => { a with ns := mapIf a.ns p (fun n =>
    { n with cond := if n.cond = .healthy then .unavailable cause else n.cond, reread := n.reread || reread }) }

/-- Whether a namespace is a local one on a port. -/
def Ns.onPort (p : Nat) (n : Ns) : Bool := !n.loc.remote && n.loc.port == p

/-- Tests that `p` picks are interrupted (R530): their end row reports RESULT INTERRUPTED. -/
def interruptTests (p : Test → Bool) (s : State) : State :=
  s.onTst fun t => { t with tests := mapIf t.tests p (fun x => { x with interrupted := true }) }

/-- A retrain of a link ends margining of its lanes (R534). -/
def endMargin (unit index : Nat) (s : State) : State := interruptTests (fun x => x.kind == 3 && x.unit == unit && x.index == index) s

/-- A member port starts to retrain: its member becomes UNAVAILABLE (R22, R193). -/
def retrainPort (p : Nat) (s : State) : State :=
  makeUnavailable (Ns.onPort p) 2
    ((endMargin 2 p s).onArr fun a => { a with ports := nthMod a.ports p (fun q => { q with up := false, training := true }) })

/-- The Slip link goes down: replay buffer and queued messages are discarded, registrations must be checked again, and a move
that has not been released stays here (R241, R253, R258). -/
def slipDown (s : State) : State :=
  let t := s.onTwin fun t => { t with
    up := false, trained := false, helloGot := false, helloOk := false, lanes := 0, linkDowns := if t.up then bump t.linkDowns else t.linkDowns,
    replay := [], resent := 0, queueSnap := [], queueRec := [], queueMeta := [], queueLine := [], sent := [], snapshotDue := false, snapshotAcked := false,
    st := if t.st = .syncing ∨ t.st = .mirroring ∨ t.st = .mismatch then .linkDown else t.st }
  let t := t.onArr fun x => { x with arrays := mapIf x.arrays (fun a => s.twin.up && a.shared && a.owner) (fun a =>
    { a with checkGood := none, moving := if a.moving = 1 ∨ a.moving = 2 then 0 else a.moving, anaNext := if a.moving = 2 then some .optimized else a.anaNext }) }
  wantService 20 false t
/-- The Slip link starts to retrain (R22). -/
def retrainSlip (s : State) : State := (slipDown (endMargin 3 0 s)).onTwin fun t => { t with training := true }
/-- A Coil port starts to retrain and leaves service (R22, R292). -/
def retrainCoil (p : Nat) (s : State) : State :=
  wantService (18 + p) false
    ((endMargin 4 p s).onCoil fun c => { c with linkUp := c.linkUp &&& ~~~(BitVec.ofNat 2 (2 ^ p)), training := c.training ||| BitVec.ofNat 2 (2 ^ p) })

/-- The bit of UNIT_SERVICE that holds an element, if one does (R19). -/
def serviceBitOf (l : LocCode) : Option Nat :=
  let c := locClusterOf l
  match locDieOf l with
  | 0 => if c < 4 then some c else if c = 8 ∧ locEngineOf l < 8 then some (10 + locEngineOf l)
         else if c = 10 ∧ locEngineOf l < 2 then some (18 + locEngineOf l) else if c = 11 then some 20 else none
  | 1 => if 1 ≤ c ∧ c ≤ 6 then some (3 + c) else if c = 7 ∧ locEngineOf l < 2 then some (18 + locEngineOf l)
         else if c = 8 then some 20 else if c = 9 ∧ locEngineOf l < 8 then some (10 + locEngineOf l) else none
  | _ => none

/-- The unit of a running test as UNIT_CONTROL and DIAG commands name it (R387, R531): 1 kiln, 2 member port, 3 Slip,
4 Coil port, 5 host port, 6 die-to-die bundle, 7 DDR channel. -/
def unitOfLoc (x4 : BitVec 6) (l : LocCode) : Option (Nat × Nat) :=
  let c := locClusterOf l
  let e := locEngineOf l
  match locDieOf l with
  | 0 => if c < 4 then some (1, c) else if c = 8 ∧ e < 8 then some (7, e) else if c = 10 ∧ e < 2 then some (4, e)
         else if c = 11 then some (3, 0) else if c = 13 ∧ e < 16 then some (6, e) else none
  | 1 => if 1 ≤ c ∧ c ≤ 6 then (portOfEngine x4 (c - 1) e).map (fun p => (2, p)) else if c = 7 ∧ e < 2 then some (4, e)
         else if c = 8 then some (3, 0) else if c = 9 ∧ e < 8 then some (7, e) else if c = 0 then some (5, 0)
         else if c = 11 ∧ e < 16 then some (6, e) else none
  | _ => none

/-- The action of CONTAINED on the unit that a location code names (R437): a kiln is fenced; a member port, the Slip link
or a Coil port retrains; nothing is done to the units of R27. -/
def unitAction (l : LocCode) (s : State) : State :=
  match unitOfLoc s.hw.straps.mportX4 (locRead l) with
  | some (1, n) => faultFence n s
  | some (2, p) => retrainPort p s
  | some (3, _) => retrainSlip s
  | some (4, p) => retrainCoil p s
  | _ => s

/-- The first fault at FATAL (R441): FAULT# asserts, CFS sets and the emergency vault attempt of R177 is due. -/
def enterFatal (s : State) : State :=
  if s.fc.fatal then s
  else { s with fc := { s.fc with fatal := true }, pins := { s.pins with faultPin := true },
                nvme := { s.nvme with cfs := true }, vault := { s.vault with emergency := true } }

/-! ### Host requests and their tags (R306, R317, R318) -/

/-- The lowest tag that is free and not quarantined. -/
def freeTag (used : List Nat) : Nat → Nat → Nat
  | 0, n => n
  | k + 1, n => if used.contains n then freeTag used k (n + 1) else n

/-- The device sends a non-posted host request and keeps its tag (R306). -/
def hostRead (kind : Nat) (r : HostReq) (s : State) : State :=
  let used := s.ep.reqs.map (·.1) ++ s.ep.quarantined
  let t := freeTag used used.length 0
  emit (.hostRequest t kind) (s.onEp fun e => { e with reqs := e.reqs ++ [(t, r)] })

/-- A host request has ended. -/
def endRequest (r : HostReq) (s : State) : State :=
  s.onEp fun e => { e with reqs := e.reqs.filter (fun q => q.2 != r) }

/-- Every outstanding host request is abandoned and its tag quarantined (R318). -/
def abandonRequests (s : State) : State :=
  s.onEp fun e => { e with quarantined := e.quarantined ++ e.reqs.map (·.1), reqs := [] }

end Sys2Proof.Machine
end

