-- ==== Sys2Proof/Machine/MciOps.lean ====
section
/-! DEFINITION. The Mehrut Command Interface as operations: mailboxes, field handling with its clamp report (R373,
R374), the order of checks of R366, envelopes (R371, R372) and responses (R375, R376). -/
namespace Sys2Proof.Machine

/-- Mailbox `i`. -/
def State.mb (s : State) (i : Nat) : Mailbox := nth s.mci.mbs i {}
/-- Mailbox `i` changed by `f`. -/
def onMb (i : Nat) (f : Mailbox → Mailbox) (s : State) : State := s.onMci fun m => { m with mbs := nthMod m.mbs i f }

/-- Status codes of R375. -/
def stNoObject : Nat := 0x0100
def stAuthority : Nat := 0x0101
def stOpcode : Nat := 0x0102
def stSideband : Nat := 0x0103
def stBusy : Nat := 0x0200
def stConflict : Nat := 0x0201
def stExhausted : Nat := 0x0202
def stMode : Nat := 0x0203
def stBuffer : Nat := 0x0300
def stAbortRestart : Nat := 0x0301
def stAbortReset : Nat := 0x0302
def stCancelled : Nat := 0x0303
def stInternal : Nat := 0x0304

/-! ### The catalogue (R381) -/

/-- Authority class: 1 OPERATOR, 2 OWNER, 3 SERVICE (R370). -/
def authorityOf (op : Nat) : Nat :=
  if [0x0211, 0x0501, 0x0502, 0x0507, 0x0603, 0x0702, 0x0703, 0x0704, 0x0706, 0x0902, 0x0A02, 0x0B03, 0x0B04].contains op then 2
  else if op = 0x0705 then 3 else 1

/-- Where a command runs (R379, R381): 2 Any, 1 Hold, 0 Normal. -/
def runsIn (op : Nat) : Nat :=
  if [0x0101, 0x0102, 0x0201, 0x0215, 0x0305, 0x0401, 0x0503, 0x0601, 0x0701, 0x0705, 0x0801, 0x0802, 0x0803, 0x0901,
      0x0A03, 0x0B01, 0x0B02, 0x0C01, 0x0C05].contains op then 2
  else if [0x0104, 0x0903].contains op then 1 else 0

/-- Whether the opcode is in the catalogue of R381. -/
def inCatalogue (op : Nat) : Bool :=
  (0x0101 ≤ op && op ≤ 0x0105) || (0x0201 ≤ op && op ≤ 0x0205) || (0x0210 ≤ op && op ≤ 0x0216) ||
  (0x0301 ≤ op && op ≤ 0x0305) || (0x0401 ≤ op && op ≤ 0x0406) || (0x0501 ≤ op && op ≤ 0x0507) ||
  (0x0601 ≤ op && op ≤ 0x0607) || (0x0701 ≤ op && op ≤ 0x0706) || (0x0801 ≤ op && op ≤ 0x0803) ||
  (0x0901 ≤ op && op ≤ 0x0903) || (0x0A01 ≤ op && op ≤ 0x0A03) || (0x0B01 ≤ op && op ≤ 0x0B07) ||
  (0x0C01 ≤ op && op ≤ 0x0C06)

/-! ### Field handling (R373, R374) -/

/-- Parameters being handled: the inline bytes, their length in force, and the adjustments so far. -/
structure Parse where
  bytes : Bytes := []
  len : Nat := 0
  adj : List Clamp := []
deriving DecidableEq, Repr

/-- A field that lies wholly within PARAM_LENGTH is present. -/
def Parse.has (p : Parse) (off size : Nat) : Bool := off + size ≤ p.len
/-- The value a field holds. -/
def Parse.raw (p : Parse) (off size : Nat) : Nat := if p.has off size then field p.bytes off size else 0
/-- An adjustment enters the clamp report (R374). -/
def Parse.note (p : Parse) (id flags req app : Nat) : Parse := { p with adj := p.adj ++ [⟨id, flags, req, app⟩] }

/-- The settings of a number field: its range, its default and whether its bounds come from another field. -/
structure Num where
  lo : Nat := 0
  hi : Nat := 2 ^ 64 - 1
  dflt : Nat := 0
  depLo : Bool := false
  depHi : Bool := false
  /-- rounded down (1) or up (2) to a multiple of `gran`, or down to a power of two after clamping (3) -/
  round : Nat := 0
  gran : Nat := 1
deriving DecidableEq, Repr

/-- The applied value of a number and the flags of its adjustment. -/
def Num.apply (c : Num) (v : Nat) : Nat × Nat :=
  let r := match c.round with | 1 => v / c.gran * c.gran | 2 => cdiv v c.gran * c.gran | _ => v
  let fr := if r = v then 0 else 4
  let q := clampTo c.lo c.hi r
  let fc := if r < c.lo then 1 + flag c.depLo 4 else if c.hi < r then 2 + flag c.depHi 4 else 0
  let w := if c.round = 3 ∧ q ≠ 0 then 2 ^ Nat.log2 q else q
  (w, fr + fc + (if w = q then 0 else 4))

/-- A number field (R373). -/
def Parse.num (p : Parse) (id off size : Nat) (c : Num) : Nat × Parse :=
  if ¬ p.has off size then (c.dflt, p)
  else
    let v := field p.bytes off size
    if v = 0 ∧ 0 < c.lo then (c.dflt, p)
    else
      let (w, fl) := c.apply v
      (w, if w = v then p else p.note id fl v w)

/-- An enumerated field (R373). -/
def Parse.enum (p : Parse) (id off size : Nat) (codes : List Nat) (dflt : Nat) : Nat × Parse :=
  if ¬ p.has off size then (dflt, p)
  else
    let v := field p.bytes off size
    if codes.contains v then (v, p) else if v = 0 then (dflt, p) else (dflt, p.note id 8 v dflt)

/-- A field of bytes: all zero takes the default. -/
def Parse.raws (p : Parse) (off size : Nat) (dflt : Bytes) : Bytes :=
  if p.has off size ∧ (slice p.bytes off size).any (· != 0) then slice p.bytes off size else dflt

/-- A bit-map field whose reserved or fixed bits are forced (R374, FORCED). -/
def Parse.forced (p : Parse) (id off size : Nat) (f : Nat → Nat) : Nat × Parse :=
  let v := p.raw off size
  (f v, if f v = v then p else p.note id 64 v (f v))

/-- The ARRAY field of R226 and R382: an array ID plus 1; above 64 becomes 64. -/
def Parse.array (p : Parse) (id off : Nat) : Nat × Parse := p.num id off 1 { hi := 64 }

/-! ### Responses -/

/-- A response with the clamp report of the adjustments so far: 32 entries, the rest CLAMP_OVERFLOW (R374). -/
def mkResp (adj : List Clamp) (st errField errDetail : Nat) : MbResp where
  status := st
  errField := errField
  errDetail := errDetail
  clamps := adj.take 32
  clampCount := min adj.length 32
  respFlags := flag (32 < adj.length) 0

/-- The command in mailbox `i` ends with a status of its own and no effect (R366, R375). -/
def mciFail (i st errField errDetail : Nat) (s : State) : State :=
  let t := onMb i (fun m => { m with started := true, staged := some (mkResp m.adj st errField errDetail),
                                     stagedInline := [], stagedOut := [] }) s
  if st = stBusy then t.onMci fun m => { m with busy := bump m.busy }
  else if st = stAuthority then t.onMci fun m => { m with authFails := bump m.authFails } else t

/-- The command in mailbox `i` succeeds, with its response staged for completion (R374 to R376). -/
def mciOk (i : Nat) (inline out : Bytes) (s : State) : State :=
  onMb i (fun m => { m with staged := some (mkResp m.adj (if m.adj = [] then 0 else 1) 0 0),
                            stagedInline := inline, stagedOut := out }) s

/-- A refusal of a decommissioned device comes first (R483). -/
def State.unlessDecommissioned (s : State) (r : Option (Nat × Nat × Nat)) : Option (Nat × Nat × Nat) :=
  if s.hw.lifecycle = .decommissioned then some (stConflict, 0, 255) else r

/-- What a command found when it handled its fields and looked at the device (steps 5 to 7 of R366). -/
structure Plan where
  p : Parse := {}
  /-- the field that names no object -/
  noObject : Option Nat := none
  /-- objects that R365 holds for the command -/
  objects : List (Nat × Nat) := []
  /-- a further reason for BUSY_OBJECT (R24, R25) -/
  busy : Bool := false
  /-- status, ERROR_FIELD and ERROR_DETAIL of the device state's refusal -/
  refuse : Option (Nat × Nat × Nat) := none

/-- Objects that other commands hold now (R365). -/
def State.heldObjects (s : State) (i : Nat) : List (Nat × Nat) :=
  ((List.range 16).filter (fun j => j != i && (s.mb j).st == .executing)).flatMap (fun j => (s.mb j).objects)

/-- Whether the device state of R379 lets opcode `op` be taken. -/
def State.stateAllows (s : State) (op : Nat) : Bool :=
  runsIn op == 2 || (!s.fc.fatal && (runsIn op == 1 || !s.dev.holding))

/-- Whether mailbox `i` holds command `op`, taken and not yet run. -/
def State.mbReady (s : State) (i op : Nat) : Bool :=
  i < 16 && (s.mb i).st == .executing && !(s.mb i).started && (s.mb i).opcode == op

/-- Steps 5 to 7 of R366 and then the effect `act`, for a taken command. -/
def runPlan (i op : Nat) (pl : Plan) (act : State → State) (s : State) : State :=
  let t := onMb i (fun m => { m with adj := m.adj ++ pl.p.adj }) s
  match pl.noObject with
  | some f => mciFail i stNoObject f 0 t
  | none =>
    if pl.busy ∨ pl.objects.any (fun o => (s.heldObjects i).contains o) then mciFail i stBusy 0 0 t
    else if ¬ s.stateAllows op then mciFail i stConflict 0 0 t
    else match pl.refuse with
      | some (st, f, d) => mciFail i st f d t
      | none => act (onMb i (fun m => { m with started := true, objects := pl.objects }) t)

/-- A command row's meaning: nothing where the mailbox does not hold that command (log entry 6). -/
def mciRun (i op : Nat) (s : State) (plan : Mailbox → Plan) (act : Mailbox → State → State) : State :=
  if s.mbReady i op then runPlan i op (plan (s.mb i)) (act (s.mb i)) s else s

/-- Whether a command passes steps 5 to 7 of R366, so that its effect and its fuse steps are made. -/
def planRuns (i op : Nat) (s : State) (plan : Mailbox → Plan) : Bool :=
  let pl := plan (s.mb i)
  s.mbReady i op && pl.noObject.isNone && !pl.busy && !(pl.objects.any (fun o => (s.heldObjects i).contains o)) && s.stateAllows op && pl.refuse.isNone

/-- The parse of a mailbox's parameters. -/
def Mailbox.parse (m : Mailbox) : Parse := { bytes := m.params, len := m.params.length }

/-! ### Objects of R365 -/

def objDeviceConfig : Nat × Nat := (1, 0)
def objDevice : Nat × Nat := (2, 0)
def objUnit (kind index : Nat) : Nat × Nat := (3, kind * 256 + index)
def objNs (id : Nat) : Nat × Nat := (4, id)
def objArray (id : Nat) : Nat × Nat := (5, id)
def objArrayTable : Nat × Nat := (6, 0)
def objRebuildPolicy : Nat × Nat := (7, 0)
def objTwin : Nat × Nat := (8, 0)
def objTwinPolicy : Nat × Nat := (9, 0)
def objCoil : Nat × Nat := (10, 0)
def objKeyStore : Nat × Nat := (11, 0)
def objOwnership : Nat × Nat := (12, 0)
def objKilnLog : Nat × Nat := (13, 0)
def objFirmware : Nat × Nat := (14, 0)
def objCollector : Nat × Nat := (15, 0)
def objSaggar : Nat × Nat := (16, 0)
def objVault : Nat × Nat := (17, 0)
def objPeerWindow : Nat × Nat := (18, 0)
def objRegions : Nat × Nat := (19, 0)
def objReceives : Nat × Nat := (20, 0)

/-! ### Envelopes (R371, R372, R460) -/

/-- Where the payload starts behind an envelope: the next multiple of 8 after the signature (R371). -/
def envelopeEnd (b : Bytes) : Nat := 128 + field b 88 4 + field b 92 4
def payloadStart (b : Bytes) : Nat := cdiv (envelopeEnd b) 8 * 8
/-- Whether an envelope lies wholly in an input. -/
def envelopeWhole (b : Bytes) : Bool := 128 ≤ b.length && envelopeEnd b ≤ b.length

/-- The signature size of an owner key's algorithm: 1 SLH-DSA-SHA2-128s, 2 SLH-DSA-SHA2-256s (R454, R477). -/
def sigSize (alg : Nat) : Nat := if alg = 2 then 29792 else 7856
/-- The public key size of an algorithm (R454). -/
def keySize (alg : Nat) : Nat := if alg = 2 then 64 else 32

/-- SHA-256 as bytes. -/
def sha (b : Bytes) : Bytes := leBytes 32 (Config.sha256 b).toNat
/-- DEVICE_ID as bytes (R457). -/
def deviceIdBytes : Bytes := leBytes 16 Config.deviceId.toNat

/-- The owner's public key as bytes; none before a claim (R456). -/
def State.ownerKeyBytes (s : State) : Bytes :=
  if s.sec.ownerAlg = 0 then [] else leBytes (keySize s.sec.ownerAlg) s.sec.ownerKey.toNat

/-- A service token passes step 8 of R372 under R460. -/
def tokenOk (powerCycle op : Nat) (t : Bytes) : Bool :=
  t.length == 29920 && t.take 8 == ascii "RLTKSTOK" && field t 8 2 == 1 && slice t 16 16 == deviceIdBytes &&
  (op == 0x0705 && bit (field t 32 4) 0) && powerCycle % 2 ^ 32 ≤ field t 36 4 &&
  slice t 40 8 == (sha Config.serviceKey).take 8 && Config.verifies Config.serviceKey (t.take 128) (t.drop 128)

/-- The first step of R372 that fails, 0 when none does. The key is the owner's, or for OWNERSHIP_CLAIM the one it brings. -/
def envelopeStep (s : State) (op enveloped : Nat) (params b key : Bytes) (alg : Nat) : Nat :=
  let cls := field b 10 1
  if enveloped = 0 ∨ ¬ envelopeWhole b then 1
  else if b.take 8 ≠ ascii "RLTKSENV" ∨ field b 8 2 ≠ 1 ∨ (cls ≠ 2 ∧ cls ≠ 3) ∨ cls < authorityOf op then 2
  else if slice b 16 16 ≠ deviceIdBytes then 3
  else if field b 32 4 ≠ s.hw.epoch then 4
  else if field b 40 8 ≤ s.mci.counter then 5
  else if field b 48 2 ≠ op ∨ slice b 56 32 ≠ sha (params ++ b.drop (payloadStart b)) then 6
  else if key = [] ∨ field b 92 4 ≠ sigSize alg ∨
      ¬ Config.verifies key (b.take (128 + field b 88 4)) (slice b (128 + field b 88 4) (field b 92 4)) then 7
  else if authorityOf op = 3 ∧ ¬ tokenOk s.hw.powerCycle op (slice b 128 (field b 88 4)) then 8
  else 0

end Sys2Proof.Machine
end

