-- ==== Sys2Proof/Machine/Faults.lean ====
section
/-! DEFINITION. The fault collector (chapter 15): sources and their settings, episodes and escalation, ordering of
arrivals, capture, acknowledgement, injection, and the collector's registers. -/
namespace Sys2Proof.Machine

/-- What R436 and R432 fix for a named source. -/
structure SrcInfo where
  dflt : Nat
  lo : Nat
  hi : Nat
  name : String
deriving DecidableEq, Repr

/-- The sources of R436 outside the per-unit ranges. -/
def namedSources : List (Nat × SrcInfo) := [
  (0x000, ⟨0, 0, 0, "ABSENT_UNIT_ACCESS"⟩), (0x001, ⟨1, 0, 2, "TURN_OVERRUN"⟩), (0x002, ⟨4, 4, 5, "LAST_KILN_LOST"⟩),
  (0x003, ⟨1, 0, 1, "FC_MEM_CORRECTED"⟩), (0x004, ⟨4, 4, 5, "FC_MEM_UE"⟩), (0x005, ⟨5, 5, 5, "PLL_CORE_UNLOCK"⟩),
  (0x006, ⟨5, 5, 5, "PLL_DATA_PATH_UNLOCK"⟩), (0x0C0, ⟨4, 4, 5, "PLL_AUX_UNLOCK"⟩),
  (0x0E0, ⟨2, 0, 4, "HOST_LINK_DEGRADED"⟩), (0x0E1, ⟨3, 1, 4, "HOST_CPL_TIMEOUT"⟩), (0x0E2, ⟨3, 1, 4, "HOST_CPL_ERROR"⟩),
  (0x0E3, ⟨0, 0, 2, "HOST_LATE_COMPLETION"⟩), (0x0E4, ⟨0, 0, 2, "ATS_TRANSLATION_FAIL"⟩), (0x0E5, ⟨0, 0, 2, "PEER_WINDOW_UR"⟩),
  (0x0E6, ⟨0, 0, 2, "PEER_WINDOW_ENTRY_REJECTED"⟩), (0x0E7, ⟨2, 1, 4, "HOST_SURPRISE_DOWN"⟩)] ++ [
  (0x100, ⟨0, 0, 2, "KC_CAR_HALT"⟩), (0x101, ⟨2, 1, 3, "KC_DESC_ERROR"⟩), (0x102, ⟨0, 0, 2, "KC_DESC_ERROR_MAINT"⟩),
  (0x103, ⟨2, 0, 3, "KC_HOP_LIMIT"⟩), (0x104, ⟨1, 0, 2, "KC_REQ_OVERFLOW"⟩), (0x105, ⟨1, 0, 1, "KC_MEM_CORRECTED"⟩),
  (0x106, ⟨3, 3, 4, "KC_MEM_UE"⟩), (0x107, ⟨0, 0, 2, "KC_HOP_LIMIT_MAINT"⟩), (0x130, ⟨4, 4, 5, "SAGGAR_LINE_LOST"⟩),
  (0x140, ⟨2, 2, 4, "JOURNAL_COPY_DEGRADED"⟩), (0x141, ⟨4, 4, 5, "JOURNAL_RECORD_LOST"⟩), (0x142, ⟨4, 4, 5, "VAULT_INCOMPLETE"⟩),
  (0x160, ⟨2, 2, 4, "MEMBER_FAILED"⟩), (0x161, ⟨0, 0, 2, "MEMBER_LATE_COMPLETION"⟩), (0x162, ⟨2, 2, 4, "SLICE_LOST"⟩),
  (0x163, ⟨2, 1, 4, "MEMBER_MEDIA_WEAR"⟩), (0x164, ⟨1, 0, 2, "PARITY_STALE"⟩), (0x165, ⟨2, 1, 4, "PARITY_MISMATCH"⟩),
  (0x166, ⟨2, 2, 4, "RELOCATION_FULL"⟩)] ++ [
  (0x180, ⟨2, 1, 4, "TWIN_MISMATCH"⟩), (0x181, ⟨1, 0, 2, "SLIP_REPLAY"⟩), (0x182, ⟨2, 2, 4, "PARTNER_LOST"⟩),
  (0x183, ⟨4, 4, 5, "TAKEOVER_STALE"⟩), (0x184, ⟨2, 2, 4, "TWIN_MIRROR_LATENT"⟩), (0x1A0, ⟨0, 0, 2, "COIL_AUTH_FAIL"⟩),
  (0x1A1, ⟨2, 1, 4, "COIL_GIVE_UP"⟩), (0x1A2, ⟨1, 0, 2, "COIL_UNEXPECTED_FULL"⟩), (0x1C0, ⟨1, 0, 2, "D2D_LANE_REPAIRED"⟩),
  (0x1C1, ⟨2, 2, 4, "D2D_BUNDLE_LOST"⟩), (0x1C2, ⟨4, 4, 5, "D2D_SIDEBAND_FAIL"⟩), (0x1C3, ⟨0, 0, 1, "D2D_SPARE_RETIRED"⟩),
  (0x1E0, ⟨2, 1, 4, "TEMP_WARNING"⟩), (0x1E1, ⟨5, 5, 5, "THERMAL_TRIP"⟩), (0x1E2, ⟨4, 4, 5, "PLL_IO_UNLOCK"⟩),
  (0x1E3, ⟨2, 2, 4, "PLL_ETHERNET_UNLOCK"⟩)]

/-- The settings of a named source (R436), the per-kiln and per-channel ones included. -/
def srcInfo (k : Nat) : Option SrcInfo :=
  if 0x020 ≤ k ∧ k < 0x0A0 ∧ k % 0x20 = 0 then some ⟨1, 0, 1, "KILN_MEM_CORRECTED"⟩
  else if 0x020 ≤ k ∧ k < 0x0A0 ∧ k % 0x20 = 1 then some ⟨3, 3, 4, "KILN_MEM_UE"⟩
  else if 0x120 ≤ k ∧ k < 0x128 then some ⟨1, 0, 1, "DDR_CE"⟩
  else if 0x128 ≤ k ∧ k < 0x130 then some ⟨2, 2, 4, "DDR_UE"⟩
  else lookup namedSources k

/-- Default severity of a source; the silicon fixes it where R436 names none (R435). -/
def srcDefault (k : Nat) : Nat := match srcInfo k with | some i => i.dflt | none => (Config.srcDefault k).toNat
def srcMin (k : Nat) : Nat := match srcInfo k with | some i => i.lo | none => (Config.srcMin k).toNat
def srcMax (k : Nat) : Nat := match srcInfo k with | some i => i.hi | none => (Config.srcMax k).toNat
/-- NAME of FAULT_GET (R450). -/
def srcName (k : Nat) : Bytes :=
  match srcInfo k with | some i => padTo 32 (ascii i.name) | none => leBytes 32 (Config.srcName k).toNat

/-- What the collector keeps for a source: configured severity and AUTO_ACK start at their defaults (R435, R440). -/
def State.src (s : State) (k : Nat) : Src :=
  (s.fc.srcs.find? (fun x => x.id == k)).getD { id := k, configured := srcDefault k, autoAck := srcDefault k ≤ 1 }

/-- A source's record replaced. -/
def putSrc (x : Src) (s : State) : State :=
  s.onFc fun c => { c with srcs := if c.srcs.any (fun y => y.id == x.id) then mapIf c.srcs (fun y => y.id == x.id) (fun _ => x)
                                   else c.srcs ++ [x] }
/-- A source's record changed by `f`. -/
def onSrc (k : Nat) (f : Src → Src) (s : State) : State := putSrc (f (s.src k)) s

/-- Whether the unit of a source is present: the sources of an absent unit are never raised (R436). -/
def State.srcPresent (s : State) (k : Nat) : Bool :=
  if 0x020 ≤ k ∧ k < 0x0A0 then s.kilnPresent ((k - 0x20) / 0x20)
  else if 0x120 ≤ k ∧ k < 0x130 then s.ddrPresent (k % 8)
  else if 0x180 ≤ k ∧ k < 0x1A0 then s.slipPresent
  else if 0x1A0 ≤ k ∧ k < 0x1C0 ∨ k = 0x1E3 then s.coilPresent 0 || s.coilPresent 1
  else if k = 0x006 then s.gradeC else true

/-- The LOCATION of R575 for a source that names one element, and the least of its elements otherwise. -/
def srcLoc (k : Nat) : LocCode :=
  if 0x020 ≤ k ∧ k < 0x0A0 then locCluster 0 ((k - 0x20) / 0x20)
  else if 0x120 ≤ k ∧ k < 0x130 then locEngine 0 8 (k % 8)
  else match k with
  | 0x001 => locCluster 0 8
  | 0x002 => locCluster 0 0
  | 0x003 => locEngine 0 14 0
  | 0x004 => locEngine 0 14 0
  | 0x005 => locDie 0
  | 0x006 => locDie 0
  | 0x0C0 => locCluster 0 5
  | 0x0E0 => locCluster 1 0
  | 0x0E1 => locCluster 1 0
  | 0x0E2 => locCluster 1 0
  | 0x0E3 => locCluster 1 0
  | 0x0E4 => locCluster 0 7
  | 0x0E5 => locCluster 0 6
  | 0x0E6 => locCluster 0 6
  | 0x0E7 => locCluster 1 0
  | 0x130 => locCluster 0 8
  | 0x140 => locCluster 0 12
  | 0x141 => locCluster 0 12
  | 0x142 => locCluster 0 12
  | 0x160 => locCluster 1 1
  | 0x161 => locCluster 1 1
  | 0x163 => locCluster 1 1
  | 0x1C2 => locCluster 0 13
  | 0x1E0 => locEngine 1 10 5
  | 0x1E1 => locEngine 1 10 5
  | 0x1E2 => locDie 1
  | 0x1E3 => locCluster 1 7
  | _ => if 0x100 ≤ k ∧ k < 0x108 then locCluster 0 7
         else if 0x180 ≤ k ∧ k < 0x1A0 then locCluster 0 11
         else if 0x1A0 ≤ k ∧ k < 0x1C0 then locEngine 0 10 2
         else if 0x1C0 ≤ k ∧ k < 0x1E0 then locCluster 0 13 else locPkg

/-! ### Episodes and escalation -/

/-- A fault arriving in one cycle. -/
structure Arrival where
  f : FaultIn
  injected : Bool := false
  live : Bool := false
deriving DecidableEq, Repr

/-- An arrival judged: its effective severity, ESCALATED, MASKED_BY_REAL, and whether it opened the episode. -/
structure Judged where
  a : Arrival
  sev : Nat
  escalated : Bool := false
  masked : Bool := false
  opened : Bool := false
deriving DecidableEq, Repr

/-- The severity that a real or LIVE fault of a source would have now (R439, R448). -/
def Src.wouldBe (x : Src) : Nat :=
  match x.episode with
  | none => x.configured
  | some e => if e.recordOnly then x.configured else if e.escalated then e.sev else min (e.sev + 1) 5

/-- One arrival against its source's episode (R439, R447, R448). `real` says that a real fault of the source arrives in
the same cycle. -/
def judge (real : Bool) (a : Arrival) (x : Src) : Judged × Src :=
  if a.injected ∧ real then
    ({ a := a, sev := (x.episode.map (·.sev)).getD x.configured, escalated := (x.episode.map (·.escalated)).getD false,
       masked := true }, x)
  else match x.episode with
    | none => ({ a := a, sev := x.configured, opened := true },
               { x with episode := some { sev := x.configured, recordOnly := a.injected && !a.live } })
    | some e =>
      if a.injected ∧ ¬ a.live then ({ a := a, sev := x.configured }, x)
      else if e.recordOnly then ({ a := a, sev := x.configured, opened := true }, { x with episode := some { sev := x.configured } })
      else if e.escalated then ({ a := a, sev := e.sev, escalated := true }, x)
      else ({ a := a, sev := min (e.sev + 1) 5, escalated := true },
            { x with episode := some { e with sev := min (e.sev + 1) 5, escalated := true } })

/-- One arrival of the cycle judged, with the source's record updated and the escalation counted. -/
def judgeStep (all : List Arrival) (acc : List Judged × State) (a : Arrival) : List Judged × State :=
  let real := all.any (fun b => !b.injected && b.f.source == a.f.source)
  let x := acc.2.src a.f.source
  let (j, y) := judge real a x
  let first := (y.episode.map (·.escalated)).getD false && !(x.episode.map (·.escalated)).getD false
  let t := putSrc y acc.2
  (acc.1 ++ [j], if first then t.onFc fun c => { c with escalations := bump c.escalations } else t)

/-- The order of arrivals of one cycle (R442). -/
def Judged.before (x y : Judged) : Bool :=
  y.sev < x.sev || (x.sev == y.sev && ((!x.a.injected && y.a.injected) ||
    (x.a.injected == y.a.injected && x.a.f.source ≤ y.a.f.source)))

/-- `x` put among judged arrivals that stand in order. -/
def putJudged (x : Judged) : List Judged → List Judged
  | [] => [x]
  | y :: ys => if x.before y then x :: y :: ys else y :: putJudged x ys

/-- Arrivals in the order of R442. -/
def orderJudged (l : List Judged) : List Judged := l.foldr putJudged []

/-- FLAGS of a capture record (R443). -/
def Capture.flags (c : Capture) : Nat :=
  flag c.injected 0 + flag c.masked 1 + flag c.escalated 2 + flag c.addr.isSome 3 + flag c.master.isSome 4 +
  flag c.cell.isSome 5 + flag c.live 6

/-- The 48 bytes of a capture record (R443). -/
def Capture.bytes (c : Capture) : Bytes :=
  leBytes 2 c.source ++ leBytes 1 c.sev ++ leBytes 1 c.flags ++ leBytes 4 c.loc.toNat ++ leBytes 4 (c.cell.getD 0xFFFFFFFF) ++
  leBytes 2 (c.master.getD 0) ++ leBytes 1 c.access ++ leBytes 1 c.size ++ leBytes 8 (c.addr.getD 0) ++ ftBytes c.ft ++
  leBytes 1 c.space ++ leBytes 3 0 ++ leBytes 4 c.seq

/-- The episode of a source ends (R440, R446). It undoes no action. -/
def ackSource (k : Nat) (s : State) : State :=
  if ((s.src k).episode).isSome then onSrc k (fun x => { x with episode := none }) s else s

/-- Whether some episode is pending at a source (R449). -/
def State.pendingSrcs (s : State) : List Src := s.fc.srcs.filter (fun x => x.episode.isSome)

/-- The capture record of a judged arrival (R443). -/
def captureOf (j : Judged) (seq : Nat) (s : State) : Capture where
  source := j.a.f.source
  sev := j.sev
  injected := j.a.injected
  masked := j.masked
  escalated := j.escalated
  live := j.a.injected && j.a.live
  loc := j.a.f.loc.getD (srcLoc j.a.f.source)
  cell := j.a.f.cell
  master := j.a.f.master
  access := j.a.f.access
  size := j.a.f.size
  addr := j.a.f.addr
  ft := s.now
  space := j.a.f.space
  seq := seq

/-- Capture: first error, latest record, counts and the event queue (R443 to R445). -/
def captureFault (j : Judged) (s : State) : State :=
  let c := captureOf j (u32 (s.fc.seq + 1)) s
  let room := decide (s.fc.queue.length < 256)
  let t := s.onFc fun f => { f with seq := u32 (f.seq + 1), first := some (f.first.getD c), faultCount := bump f.faultCount,
                                    injectedCount := if j.a.injected then bump f.injectedCount else f.injectedCount,
                                    queue := if room then f.queue ++ [c] else f.queue,
                                    queueDrops := if room then f.queueDrops else bump f.queueDrops }
  let u := onSrc c.source (fun x => { x with latest := some c, count := if j.masked then x.count else bump x.count }) t
  if ¬ room ∧ j.opened ∧ (u.src c.source).autoAck then ackSource c.source u else u

/-- The actions of a captured fault by its effective severity (R437, R441, R447, R449). -/
def actOnFault (j : Judged) (s : State) : State :=
  if j.masked then s
  else
    let l := j.a.f.loc.getD (srcLoc j.a.f.source)
    let s1 := if s.fc.irqEnable ∧ min s.fc.irqMinSev 5 ≤ j.sev then signal s.fc.vector s else s
    let s2 := if 2 ≤ j.sev ∧ s1.ep.d3hot then sendPme s1 else s1
    if j.a.injected ∧ ¬ j.a.live then s2
    else
      let s3 := if 3 ≤ j.sev then unitAction l s2 else s2
      let s4 := if 3 ≤ j.sev ∧ ¬ j.a.injected then
          interruptTests (fun x => unitOfLoc s.hw.straps.mportX4 (locRead l) == some (x.unit, x.index)) s3 else s3
      if 5 ≤ j.sev then enterFatal s4 else s4

/-- Faults that reach the collector in one cycle, in the order of R442. -/
def collect (arrivals : List Arrival) (s : State) : State :=
  let l := (arrivals.filter (fun a => !a.injected) ++ arrivals.filter (fun a => a.injected)).filter
    (fun a => a.f.source < 512 && s.srcPresent a.f.source)
  let (js, t) := l.foldl (judgeStep l) ([], s)
  (orderJudged js).foldl (fun u j => actOnFault j (captureFault j u)) t

/-- Kilns left in service went from some to none: LAST_KILN_LOST at DEVICE (R24). -/
def lastKiln (before : State) (s : State) : State :=
  match before.kilns, s.kilns with
  | k :: _, [] => collect [{ f := { source := 0x002, loc := some (locCluster 0 k) } }] s
  | _, _ => s

/-- Real faults arrive in one cycle. -/
def raiseAll (fs : List FaultIn) (s : State) : State := lastKiln s (collect (fs.map fun f => { f := f }) s)
/-- One real fault arrives. -/
def raise (f : FaultIn) (s : State) : State := raiseAll [f] s

/-! ### Registers (R449) -/

def highestPending (s : State) : Nat := (s.pendingSrcs.map (fun x => (x.episode.map (·.sev)).getD 0)).foldl max 0

/-- FC_STATUS. -/
def fcStatus (s : State) : Nat :=
  let p := s.pendingSrcs
  flag s.fc.first.isSome 0 + flag s.fc.fatal 1 + flag (4 ≤ highestPending s) 2 + flag (p != []) 3 + highestPending s * 16 +
  flag s.pins.faultPin 7 + flag (s.fc.injections != []) 8 + p.length * 512

/-- A 32-source word of PENDING or ESCALATED. -/
def srcWord (p : Src → Bool) (i : Nat) (s : State) : Nat := bitmap ((List.range 32).map (fun b => p (s.src (32 * i + b))))

/-- The value of a collector register; none is reserved space (R449). -/
def fcReg (off : Nat) (s : State) : Option Nat :=
  let c := s.fc.first
  match off with
  | 0x000 => some (fcStatus s)
  | 0x004 => some (s.fc.irqMinSev + flag s.fc.irqEnable 3)
  | 0x008 => some s.fc.vector
  | 0x00C => some 0
  | 0x010 => some s.fc.faultCount
  | 0x014 => some s.fc.escalations
  | 0x018 => some s.fc.injectedCount
  | 0x01C => some s.fc.queueDrops
  | 0x020 => some (match c with | some r => r.source + r.sev * 512 + r.flags * 4096 | none => 0)
  | 0x024 => some (match c with | some r => r.loc.toNat | none => 0)
  | 0x028 => some (match c with | some r => r.cell.getD 0 | none => 0)
  | 0x02C => some (match c with | some r => r.master.getD 0 + r.access * 65536 + min r.size 15 * 1048576 | none => 0)
  | _ =>
    if off % 4 ≠ 0 then none
    else if 0x080 ≤ off ∧ off < 0x0C0 then some (srcWord (fun x => x.episode.isSome) ((off - 0x080) / 4) s)
    else if 0x0C0 ≤ off ∧ off < 0x100 then some (srcWord (fun x => (x.episode.map (·.escalated)).getD false) ((off - 0x0C0) / 4) s)
    else if 0x800 ≤ off ∧ off < 0x1000 then
      let k := (off - 0x800) / 4
      some ((s.src k).configured + srcMin k * 16 + srcMax k * 256 + srcDefault k * 4096 + flag (s.src k).autoAck 16)
    else none

/-- The RC registers of the collector cleared by a read. -/
def fcClear (off : Nat) (s : State) : State :=
  s.onFc fun c => match off with
    | 0x010 => { c with faultCount := 0 }
    | 0x014 => { c with escalations := 0 }
    | 0x018 => { c with injectedCount := 0 }
    | 0x01C => { c with queueDrops := 0 }
    | _ => c

/-! ### Meanings -/

/-- FAULT_ARRIVAL: faults reach the collector in one cycle (R437, R439, R442 to R445). -/
def execFaultArrival (faults : List FaultIn) (s : State) : Out := done s (raiseAll faults s)

/-- Acknowledgement of sources in a cycle in which faults also arrive: the old episodes end first (R446). -/
def ackThen (ks : List Nat) (coincident : List FaultIn) (s : State) : State :=
  raiseAll coincident (ks.foldl (fun t k => ackSource k t) s)

/-- The sources whose bits are set in a write to PENDING register `index` (R449). -/
def pendingBits (index : Nat) (value : W32) : List Nat :=
  ((List.range 32).filter (fun b => value.getLsbD b)).map (fun b => 32 * index + b)

/-- PENDING_WRITE: a write of 1 acknowledges (R440, R446). -/
def execPendingWrite (index : Nat) (value : W32) (coincident : List FaultIn) (s : State) : Out :=
  done s (ackThen (if index < 16 then pendingBits index value else []) coincident s)

/-- CLEAR_FIRST: the clear takes effect, and a fault of the same cycle becomes the new first (R444). -/
def execClearFirst (coincident : List FaultIn) (s : State) : Out :=
  done s (raiseAll coincident (s.onFc fun c => { c with first := none }))

/-- AUTO_ACK: the control firmware acknowledges a source whose AUTO_ACK is set; a restart or an activation pauses it
(R440). Its captures have left the event queue for the Kiln Log. -/
def autoAckBody (source : Nat) (s : State) : State :=
  if (s.src source).autoAck ∧ ¬ s.dev.restarting ∧ ¬ s.dev.activating ∧ ¬ s.fc.queue.any (fun c => c.source == source)
  then ackSource source s else s
def execAutoAck (source : Nat) (s : State) : Out := done s (autoAckBody source s)

/-- An injection leaves the running list. -/
def endInjection (source : Nat) (s : State) : State :=
  s.onFc fun c => { c with injections := c.injections.filter (fun i => i.source != source) }

/-- INJECTION_APPLY: one application at the collector input or the unit's detector (R447), checked against FATAL. -/
def injectionBody (source : Nat) (coincident : List FaultIn) (s : State) : State :=
  let reals : List Arrival := coincident.map fun f => { f := f }
  match s.fc.injections.find? (fun i => i.source == source && i.fromTurn ≤ s.hw.turn) with
  | none => lastKiln s (collect reals s)
  | some i =>
    if i.live ∧ 5 ≤ (s.src source).wouldBe then
      recordConfig 0x0B04 (leBytes 2 source) (endInjection source (lastKiln s (collect reals s)))
    else
      let a : Arrival := { f := { source := source, loc := some i.loc, addr := i.addr }, injected := true, live := i.live }
      let t := lastKiln s (collect (reals ++ [a]) s)
      if i.left ≤ 1 then endInjection source t
      else t.onFc fun c => { c with injections := mapIf c.injections (fun x => x.source == source) (fun x => { x with left := x.left - 1 }) }
def execInjectionApply (source : Nat) (coincident : List FaultIn) (s : State) : Out := done s (injectionBody source coincident s)

/-! ### Commands (R450 to R453) -/

/-- The 96-byte entry of a source (R450). -/
def faultEntry (s : State) (k : Nat) : Bytes :=
  let x := s.src k
  leBytes 2 k ++ leBytes 1 (srcDefault k) ++ leBytes 1 (srcMin k) ++ leBytes 1 (srcMax k) ++ leBytes 1 x.configured ++
  leBytes 1 ((x.episode.map (·.sev)).getD 0xFF) ++
  leBytes 1 (flag x.episode.isSome 0 + flag ((x.episode.map (·.escalated)).getD false) 1 + flag x.autoAck 2 +
             flag ((x.episode.map (·.recordOnly)).getD false) 3) ++
  leBytes 4 x.count ++ leBytes 4 0 ++ srcName k ++ (match x.latest with | some c => c.bytes | none => leBytes 48 0)

/-- FIRST_SOURCE and SOURCE_COUNT of FAULT_GET (R450). -/
def faultGetFields (m : Mailbox) : Nat × Nat × Parse :=
  let (a, p) := m.parse.num 1 0 2 { hi := 511 }
  let (n, p) := p.num 2 2 2 { lo := 1, hi := 512 - a, dflt := 512 - a, depHi := true }
  (a, n, p)

/-- FAULT_GET (R450). -/
def faultGetAct (mb : Nat) (m : Mailbox) (s : State) : State :=
  let (a, n, _) := faultGetFields m
  let regs := ((List.range 8).map (fun i => leBytes 4 ((fcReg (4 * i) s).getD 0))).flatten
  let first := match s.fc.first with | some c => c.bytes | none => leBytes 48 0
  mciOk mb (regs ++ first) (((List.range n).map (fun i => faultEntry s (a + i))).flatten) s
/-- Fields, objects and refusals of the command (steps 5 to 7 of R366). -/
def faultGetPlan (_s : State) (m : Mailbox) : Plan :=
  { p := (faultGetFields m).2.2 }
def execFaultGet (mb : Nat) (s : State) : Out :=
  done s (mciRun mb 0x0B01 s (faultGetPlan s) (faultGetAct mb))

/-- SOURCE and SCOPE of FAULT_ACK (R451). -/
def faultAckFields (m : Mailbox) : Nat × Nat × Parse :=
  let (a, p) := m.parse.num 1 0 2 { hi := 511 }
  let (sc, p) := p.enum 2 2 1 [1, 2] 1
  (a, sc, p)

/-- FAULT_ACK: one source or every pending episode, in one cycle (R446, R451). -/
def faultAckAct (mb : Nat) (coincident : List FaultIn) (m : Mailbox) (s : State) : State :=
  let (a, sc, _) := faultAckFields m
  let ks := if sc = 2 then s.pendingSrcs.map (·.id) else if (s.src a).episode.isSome then [a] else []
  mciOk mb (leBytes 4 ks.length) [] (ackThen ks coincident s)
/-- Fields, objects and refusals of the command (steps 5 to 7 of R366). -/
def faultAckPlan (_s : State) (m : Mailbox) : Plan :=
  { p := (faultAckFields m).2.2, objects := [objCollector] }
def execFaultAck (mb : Nat) (coincident : List FaultIn) (s : State) : Out :=
  done s (mciRun mb 0x0B02 s (faultAckPlan s) (faultAckAct mb coincident))

/-- SOURCE, SEVERITY and AUTO_ACK of FAULT_SET_SEVERITY (R452). -/
def faultSetFields (s : State) (m : Mailbox) : Nat × Nat × Nat × Parse :=
  let (k, p) := m.parse.num 1 0 2 { hi := 511 }
  let (v, p) := p.num 2 2 1 { lo := srcMin k, hi := srcMax k, dflt := if srcMin k = 0 then 0 else srcDefault k, depLo := true, depHi := true }
  let (a, p) := p.enum 3 3 1 [1, 2] (if (s.src k).autoAck then 1 else 2)
  (k, v, a, p)

/-- FAULT_SET_SEVERITY: stored, in force at the next boundary, recorded in the Kiln Log (R438, R452). -/
def faultSetAct (mb : Nat) (m : Mailbox) (s : State) : State :=
  let (k, v, a, _) := faultSetFields s m
  mciOk mb [] [] (recordConfig 0x0B03 (leBytes 2 k ++ leBytes 1 v ++ leBytes 1 a)
    (onSrc k (fun x => { x with next := some v, autoAckNext := some (a == 1) }) s))
/-- Fields, objects and refusals of the command (steps 5 to 7 of R366). -/
def faultSetSeverityPlan (s : State) (m : Mailbox) : Plan :=
  { p := (faultSetFields s m).2.2.2, objects := [objCollector] }
def execFaultSetSeverity (mb : Nat) (s : State) : Out :=
  done s (mciRun mb 0x0B03 s (faultSetSeverityPlan s) (faultSetAct mb))

/-- The LOCATION default of FAULT_INJECT: that of R575 cut to its cluster; of several elements, the lowest-numbered
present cluster (R453). -/
def injectLoc (s : State) (k : Nat) : LocCode :=
  let l := srcLoc k
  if k = 0x002 then (match (List.range 4).find? s.kilnPresent with | some n => locCluster 0 n | none => locCluster 0 0)
  else if k = 0x160 ∨ k = 0x161 ∨ k = 0x163 then
    (match (List.range 6).find? s.groupPresent with | some g => locCluster 1 (g + 1) | none => locCluster 0 10)
  else if locDieOf l = 3 ∨ locClusterOf l = 63 then l else locCluster (locDieOf l) (locClusterOf l)

/-- Whether a code names an element by R15 and R18: a known cluster, engine, lane and macro. -/
def namesElement (x4 : BitVec 6) (l : LocCode) : Bool :=
  let d := locDieOf l
  let c := locClusterOf l
  let e := locEngineOf l
  let ln := locLaneOf l
  let mc := locMacroOf l
  let lim : Option (Nat × Nat × Nat) :=  -- engines, lanes, macros
    if d = 0 then match c with
      | 0 | 1 | 2 | 3 => some (2, 8, 16)
      | 4 => some (9, if e = 8 then 4 else 1, 24)
      | 5 => some (7, if e = 1 then 16 else 1, 8)
      | 6 => some (8, 1, 8)
      | 7 => some (4, 16, 4)
      | 8 => some (8, 1, 8)
      | 9 => some (1, 1, 4)
      | 10 => some (3, 1, 16)
      | 11 => some (1, 1, 4)
      | 12 => some (16, 8, 4)
      | 13 => some (16, 36, 2)
      | 14 => some (2, 1, 4)
      | _ => none
    else if d = 1 then match c with
      | 0 => some (1, 16, 3)
      | 1 | 2 | 3 | 4 | 5 | 6 => if x4.getLsbD (c - 1) then some (4, 4, 3) else some (8, 2, 3)
      | 7 => some (2, 4, 3)
      | 8 => some (1, 8, 2)
      | 9 => some (8, 10, 2)
      | 10 => some (6, 16, 1)
      | 11 => some (16, 36, 2)
      | _ => none
    else none
  l == locPkg || l == locDie 0 || l == locDie 1 ||
  match lim with
  | none => false
  | some (ne, nl, nm) => (e == 31 || e < ne) && (ln == 63 || ln < nl) && (mc == 31 || mc < nm)

/-- Whether code `l` names `u` or an element within it. -/
def within (u l : LocCode) : Bool :=
  u == l || u == locPkg ||
  (locDieOf u == locDieOf l && (locClusterOf u == 63 ||
    (locClusterOf u == locClusterOf l && (locEngineOf u == 31 || locEngineOf u == locEngineOf l) &&
     (locLaneOf u == 63 || locLaneOf u == locLaneOf l) && (locMacroOf u == 31 || locMacroOf u == locMacroOf l))))

/-- The elements R575 lets a source name. -/
def srcAllows (k : Nat) (l : LocCode) : Bool :=
  if k = 0x002 then within (locCluster 0 0) l || within (locCluster 0 1) l || within (locCluster 0 2) l || within (locCluster 0 3) l
  else if k = 0x160 ∨ k = 0x161 ∨ k = 0x163 then
    ((List.range 6).any fun g => within (locCluster 1 (g + 1)) l) || within (locCluster 0 10) l
  else if 0x1C0 ≤ k ∧ k < 0x1E0 then within (locCluster 0 13) l || within (locCluster 1 11) l
  else if srcInfo k = none then true
  else within (if locClusterOf (srcLoc k) = 63 then srcLoc k else locCluster (locDieOf (srcLoc k)) (locClusterOf (srcLoc k))) l

/-- The applied fields of FAULT_INJECT (R453): SOURCE, LIVE, COUNT, CYCLE, LOCATION, ADDRESS. -/
def injectFields (s : State) (m : Mailbox) : Injection × Parse :=
  let (k, p) := m.parse.num 1 0 2 { hi := 511 }
  let (md, p) := p.enum 2 2 1 [1, 2] 1
  let (n, p) := p.num 3 3 1 { lo := 1, hi := 255, dflt := 1 }
  let (cy, p) := p.num 4 4 2 { hi := s.cycles - 1, depHi := true }
  let v := p.raw 8 4
  let l : LocCode := BitVec.ofNat 32 v
  let ok := namesElement s.hw.straps.mportX4 l && srcAllows k l
  let dl := injectLoc s k
  let (lc, p) := if ¬ p.has 8 4 then (dl, p) else if ok then (l, p) else if v = 0 then (dl, p) else (dl, p.note 5 64 v dl.toNat)
  let a := p.raw 16 8
  ({ source := k, live := md == 2, left := n, cycle := cy, loc := lc, addr := if a = 0 then none else some a,
     fromTurn := s.hw.turn + 1 }, p)

/-- Whether a location names a present unit that is out of service. -/
def State.outOfService (s : State) (l : LocCode) : Bool :=
  match serviceBitOf l with
  | some b => s.hw.present.getLsbD b && !s.inService b
  | none => false

/-- Refusals of FAULT_INJECT (R453), after the absent-unit check of R2. -/
def injectRefuse (s : State) (i : Injection) : Option (Nat × Nat × Nat) :=
  if i.live ∧ 5 ≤ (s.src i.source).wouldBe then some (stConflict, 0, 1)
  else if i.live ∧ s.outOfService i.loc then some (stConflict, 0, 2)
  else if s.fc.injections.any (fun x => x.source == i.source) then some (stConflict, 0, 3) else none

/-- FAULT_INJECT: completes when it is scheduled (R453). -/
def injectAct (mb : Nat) (m : Mailbox) (s : State) : State :=
  mciOk mb [] [] (s.onFc fun c => { c with injections := c.injections ++ [(injectFields s m).1] })
/-- Fields, objects and refusals of the command (steps 5 to 7 of R366). -/
def faultInjectPlan (s : State) (m : Mailbox) : Plan :=
  { p := (injectFields s m).2, noObject := if s.srcPresent (injectFields s m).1.source then none else some 1,
                objects := [objCollector], refuse := injectRefuse s (injectFields s m).1 }
def execFaultInject (mb : Nat) (s : State) : Out :=
  done s (mciRun mb 0x0B04 s
    (faultInjectPlan s) (injectAct mb))

end Sys2Proof.Machine
end

