-- ==== Sys2Proof/Machine/Mailboxes.lean ====
section
/-! DEFINITION. Mailboxes (chapter 12): claiming, ringing, taking, checking and completing commands, the sideband, host
resets (R377) and control complex restarts (R378). -/
namespace Sys2Proof.Machine

/-! ### Mailbox registers (R361) -/

def MbState.code : MbState → Nat
  | .idle => 0 | .queued => 1 | .fetching => 2 | .executing => 3 | .finished => 4

/-- The 20 bytes of a clamp report entry (R374). -/
def Clamp.bytes (c : Clamp) : Bytes := leBytes 2 c.field ++ leBytes 2 c.flags ++ leBytes 8 c.requested ++ leBytes 8 c.applied

/-- The STATUS word (R361). -/
def MbResp.word (r : MbResp) : Nat := r.status + r.clampCount * 65536 + r.respFlags * 16777216

/-- A 32-bit word of a mailbox; none is reserved. -/
def mbReg (m : Mailbox) (off : Nat) : Option Nat :=
  match off with
  | 0x000 => some m.lock
  | 0x004 => some (m.st.code + flag m.ringIgnored 3)
  | 0x008 => some 0
  | 0x010 => some (m.opcode + m.flags * 65536)
  | 0x014 => some m.paramLen
  | 0x018 => some m.tag
  | 0x01C => some m.vector
  | 0x020 => some (u32 m.inAddr)
  | 0x024 => some (m.inAddr / 2 ^ 32)
  | 0x028 => some m.inLen
  | 0x030 => some (u32 m.outAddr)
  | 0x034 => some (m.outAddr / 2 ^ 32)
  | 0x038 => some m.outLen
  | 0x040 => some m.resp.word
  | 0x044 => some m.resp.respLength
  | 0x048 => some m.resp.outWritten
  | 0x04C => some (m.resp.errField + m.resp.errDetail * 65536)
  | _ =>
    if off % 4 ≠ 0 then none
    else if 0x050 ≤ off ∧ off < 0x060 then some (field (ftBytes m.submitFt) (off - 0x050) 4)
    else if 0x060 ≤ off ∧ off < 0x070 then some (field (ftBytes m.resp.doneFt) (off - 0x060) 4)
    else if 0x100 ≤ off ∧ off < 0x1000 then some (field m.inline (off - 0x100) 4)
    else if 0x1000 ≤ off ∧ off < 0x1280 then some (field ((m.resp.clamps.map Clamp.bytes).flatten) (off - 0x1000) 4)
    else none

/-- A 32-bit write to a mailbox's writable fields; MB_LOCK and the doorbell have rows of their own (R361). -/
def mbWrite (off v : Nat) (m : Mailbox) : Mailbox :=
  match off with
  | 0x010 => { m with opcode := v % 65536, flags := v / 65536 % 16 }
  | 0x014 => { m with paramLen := v % 4096 }
  | 0x018 => { m with tag := v }
  | 0x01C => { m with vector := v % 2048 }
  | 0x020 => { m with inAddr := m.inAddr / 2 ^ 32 * 2 ^ 32 + v }
  | 0x024 => { m with inAddr := u32 m.inAddr + v * 2 ^ 32 }
  | 0x028 => { m with inLen := v }
  | 0x030 => { m with outAddr := m.outAddr / 2 ^ 32 * 2 ^ 32 + v }
  | 0x034 => { m with outAddr := u32 m.outAddr + v * 2 ^ 32 }
  | 0x038 => { m with outLen := v }
  | _ => if 0x100 ≤ off ∧ off < 0x1000 then { m with inline := putBytes m.inline (off - 0x100) (leBytes 4 v) } else m

/-! ### Claim, ring, cancel (R363, R364) -/

/-- A write to MB_LOCK (R363). -/
def lockWrite (v : Nat) (m : Mailbox) : Mailbox :=
  if v = 0 then (if m.st = .idle ∨ m.st = .finished then { m with lock := 0, st := .idle } else m)
  else if m.lock = 0 ∧ v ≠ 0xFFFFFFFF then { m with lock := v } else m

/-- The clean-up of a mailbox whose command has ended. -/
def Mailbox.ended (m : Mailbox) : Mailbox :=
  { m with st := .finished, staged := none, stagedInline := [], stagedOut := [], started := false, committed := false, adj := [],
           params := [], payload := [], objects := [], hostReset := false, restarted := false }

/-- The DONE of a sideband mailbox asserts SMB_ALERT# (signals of chapter 20). -/
def alertBits (i : Nat) (on : Bool) (b : BitVec 2) : BitVec 2 :=
  if on then b ||| BitVec.ofNat 2 (2 ^ (i - 14)) else b &&& ~~~(BitVec.ofNat 2 (2 ^ (i - 14)))
def alertSet (i : Nat) (on : Bool) (s : State) : State :=
  if i < 14 then s else s.onPins fun p => { p with smbAlert := alertBits i on p.smbAlert }
/-- SMB_ALERT# is asserted while a sideband mailbox reads DONE, until that mailbox's next GET_STATE. -/
def State.smbAlertPin (s : State) : Bool := (List.range 2).any (fun k => s.pins.smbAlert.getLsbD k && (s.mb (14 + k)).st == .finished)

/-- A command that has not been taken ends with `st` and no effect (R364, R377). -/
def endUntaken (i st : Nat) (irq : Bool) (s : State) : State :=
  let m := s.mb i
  let t := alertSet i true (onMb i (fun m => { m.ended with resp := { status := st, doneFt := s.now } }) s)
  if irq ∧ i < 14 ∧ bit m.flags 3 then signal m.vector t else t

/-- An accepted RING (R364). -/
def ringMb (i : Nat) (s : State) : State :=
  (onMb i (fun m => { m with st := .queued, ringFt := s.now, resp := {}, ringIgnored := false, started := false, adj := [] }) s).onMci
    fun m => { m with rings := bump m.rings }

/-- The write of RING, with or without CANCEL in the same write, judged against the state before it (R364). -/
def ringWrite (i : Nat) (withCancel : Bool) (s : State) : State :=
  let m := s.mb i
  if m.lock ≠ 0 ∧ (m.st = .idle ∨ m.st = .finished) then ringMb i s
  else
    let t := onMb i (fun m => { m with ringIgnored := true }) s
    if withCancel ∧ m.st = .queued then endUntaken i stCancelled true t else t

/-- The write of CANCEL alone (R364). -/
def cancelWrite (i : Nat) (s : State) : State := if (s.mb i).st = .queued then endUntaken i stCancelled true s else s

/-- MB_LOCK_WRITE: a host write claims or releases a host mailbox (R363). -/
def execMbLockWrite (mb value : Nat) (s : State) : Out := done s (if mb < 14 then onMb mb (lockWrite value) s else s)
/-- MB_RING (R364). -/
def execMbRing (mb : Nat) (withCancel : Bool) (s : State) : Out := done s (if mb < 14 then ringWrite mb withCancel s else s)
/-- MB_CANCEL (R364). -/
def execMbCancel (mb : Nat) (s : State) : Out := done s (if mb < 14 then cancelWrite mb s else s)
/-- SIDEBAND_MAILBOX_HOST_ACCESS: reads zero, ignored, counted (R360). -/
def sidebandHostAccess (off : Nat) (write : Bool) (s : State) : State :=
  let t := s.onMci fun m => { m with sbHostAccess := bump m.sbHostAccess }
  if write then t else emit (.regRead off 0) t
def execSidebandMailboxHostAccess (mb off : Nat) (write : Bool) (s : State) : Out :=
  done s (sidebandHostAccess (0x20000 + mb * 0x2000 + off) write s)

/-! ### Taking (R362, R365, R366) -/

/-- Mailboxes that take commands: in recovery boot only 14, 15 and, where the owner's policy lets it, 0 (R467). -/
def State.mbServed (s : State) (i : Nat) : Bool := !s.dev.recoveryBoot || i == 14 || i == 15 || (i == 0 && s.sec.policy.recoveryHost)
/-- Commands that recovery boot takes (R467). -/
def recoveryOps : List Nat := [0x0A01, 0x0A03, 0x0801, 0x0803, 0x0701]

/-- The mailbox that is next in ring order: earliest ring, then lowest number (R365). -/
def nextQueued (s : State) : Option Nat :=
  (List.range 16).foldl (fun best i =>
    if (s.mb i).st == .queued && s.mbServed i then match best with
      | none => some i
      | some b => if ftBefore (s.mb i).ringFt (s.mb b).ringFt then some i else some b
    else best) none

/-- Buffer lengths and PARAM_LENGTH as field 0 (R373). -/
def headerFields (m : Mailbox) : Mailbox :=
  let a1 := if 3840 < m.paramLen then [⟨0, 2, m.paramLen, 3840⟩] else []
  let a2 := if 16777216 < m.inLen then [⟨0, 2, m.inLen, 16777216⟩] else []
  let a3 := if 16777216 < m.outLen then [⟨0, 2, m.outLen, 16777216⟩] else []
  { m with adj := a1 ++ a2 ++ a3, params := padTo (min m.paramLen 3840) m.inline, payload := [], objects := [], started := false,
           staged := none, stagedInline := [], stagedOut := [], committed := false }

/-- The input length in force. -/
def Mailbox.inBytes (m : Mailbox) : Nat := min m.inLen 16777216

/-- The control complex is released, or the island serves a recovery boot (R464, R467). -/
def State.released (s : State) : Bool := s.sec.bootStep == 6 || s.dev.recoveryBoot

/-- MAILBOX_TAKE: the first queued mailbox starts fetching its input (R365). None is taken during an activation or a
restart (R378). -/
def takeMailbox (s : State) : State :=
  if s.dev.activating ∨ s.mci.restart ≠ 0 ∨ ¬ s.released then s
  else match nextQueued s with
    | none => s
    | some i =>
      let t := onMb i (fun m => { headerFields m with st := .fetching }) s
      if i < 14 ∧ (s.mb i).inLen ≠ 0 then hostRead 2 (.mciInput i) t else t
def execMailboxTake (s : State) : Out := done s (takeMailbox s)

/-- A buffer descriptor keeps the alignments of R367. -/
def descOk (addr len : Nat) (list : Bool) : Bool := len == 0 || addr % (if list then 4096 else 4) == 0

/-- Step 3 of R366: the input is read whole (R367, R369, R371). -/
def inputRead (i : Nat) (m : Mailbox) (input : Option Bytes) (listsOk : Bool) : Option Bytes :=
  if 14 ≤ i then (if 262144 < m.inLen then none else some (slice m.sideband 0 m.inLen))
  else if ¬ descOk m.inAddr m.inLen (bit m.flags 1) ∨ ¬ descOk m.outAddr m.outLen (bit m.flags 2) ∨ ¬ listsOk then none
  else if m.inLen = 0 then some [] else input.map (fun b => slice b 0 m.inBytes)

/-- The key and algorithm that step 7 of R372 uses: the owner's, or for OWNERSHIP_CLAIM the new key it brings (R479). While debug
is active the key store refuses owner-key operations (R482). -/
def envelopeKey (s : State) (op : Nat) (params : Bytes) : Bytes × Nat :=
  if s.dev.debugActive then ([], s.sec.ownerAlg)
  else if op = 0x0702 then
    let alg := if field params 0 1 = 2 then 2 else 1
    (slice params 8 (keySize alg), alg)
  else (s.ownerKeyBytes, s.sec.ownerAlg)

/-- The command is taken: STATE becomes EXECUTING (R362). -/
def takeCommand (i : Nat) (payload : Bytes) (s : State) : State :=
  onMb i (fun m => { m with st := .executing, submitFt := s.now, payload := payload }) s

/-- Steps 1 to 4 of R366 for a mailbox whose input has been read. Every command of R381 is available over the sideband,
so step 2 never fails. -/
def checkInput (i : Nat) (input : Option Bytes) (listsOk : Bool) (s : State) : State :=
  let m := s.mb i
  if ¬ inCatalogue m.opcode then mciFail i stOpcode 0 0 s
  else if s.dev.recoveryBoot ∧ ¬ recoveryOps.contains m.opcode then mciFail i stConflict 0 0 s
  else match inputRead i m input listsOk with
    | none => mciFail i stBuffer 0 0 s
    | some b =>
      let env := bit m.flags 0
      if authorityOf m.opcode = 1 then
        if env ∧ ¬ envelopeWhole b then mciFail i stBuffer 0 0 s
        else takeCommand i (if env then b.drop (payloadStart b) else b) s
      else
        let (key, alg) := envelopeKey s m.opcode m.params
        let step := envelopeStep s m.opcode (flag env 0) m.params b key alg
        if step ≠ 0 then
          recordSecurity 6 step [m.opcode, field b 40 8] (mciFail i stAuthority 0 step s)
        else takeCommand i (b.drop (payloadStart b)) (s.onMci fun c => { c with counter := field b 40 8 })

/-- MCI_INPUT_READ_DONE: the input is inside the device and the ordered checks run (R366). -/
def execMciInputReadDone (mb : Nat) (input : Option Bytes) (listsOk : Bool) (s : State) : Out :=
  done s (if (s.mb mb).st = .fetching ∧ ¬ (s.mb mb).started ∧ mb < 16 then
            checkInput mb input listsOk (endRequest (.mciInput mb) s) else s)

/-! ### Completion (R376) -/

/-- The response as R376 writes it. -/
def finalResp (i : Nat) (m : Mailbox) (r : MbResp) (outputWritten : Bool) (now : FT) : MbResp :=
  let cap := if 14 ≤ i then 262144 else min m.outLen 16777216
  let lost := m.stagedOut ≠ [] ∧ cap ≠ 0 ∧ (m.hostReset ∨ (i < 14 ∧ ¬ outputWritten))
  { r with respFlags := r.respFlags + flag lost 1 + flag m.hostReset 2 + flag m.restarted 3 + flag (cap < m.stagedOut.length) 4,
           respLength := m.stagedInline.length, outWritten := m.stagedOut.length, doneFt := now }

/-- The command in mailbox `i` completes with the staged response `r` (R376); IDENTIFY_DEVICE stamps FT_NOW as it is written
(R383). -/
def completeMb (i : Nat) (r : MbResp) (outputWritten : Bool) (s : State) : State :=
  let m := s.mb i
  let cap := if 14 ≤ i then min m.outLen 262144 else min m.outLen 16777216
  let fr := finalResp i m r outputWritten s.now
  let inl := if m.opcode = 0x0101 ∧ m.stagedInline ≠ [] then putBytes m.stagedInline 56 (ftBytes s.now) else m.stagedInline
  let t1 := if m.stagedOut ≠ [] ∧ cap ≠ 0 ∧ ¬ m.hostReset ∧ (14 ≤ i ∨ outputWritten) then emit (.mciOut i (m.stagedOut.take cap)) s else s
  let t2 := onMb i (fun m => { m.ended with
      resp := fr, inline := putBytes m.inline 0 inl, lock := if m.hostReset then 0 else m.lock,
      sideband := if 14 ≤ i ∧ m.stagedOut ≠ [] then putBytes m.sideband 0 (m.stagedOut.take 262144) else m.sideband }) (alertSet i true t1)
  if i < 14 ∧ bit m.flags 3 ∧ ¬ m.hostReset then signal m.vector t2 else t2

/-- Mailboxes other than `i` that are executing. -/
def State.othersExecuting (s : State) (i : Nat) : List Nat :=
  (List.range 16).filter (fun j => j != i && (s.mb j).st == .executing)

/-- The control complex starts to restart: commands that had not committed end, committed ones finish afterwards (R378).
A download that it cuts off leaves its target INVALID (R474). -/
def beginRestart (s : State) : State :=
  let cut := (List.range 16).filter (fun j => (s.mb j).st == .executing && !(s.mb j).committed && ((s.mb j).staged).isNone)
  let t := cut.foldl (fun u j => mciFail j stAbortRestart 0 0 u) s
  let t := { t with arr := { t.arr with jobs := t.arr.jobs.filter (fun j => match j.mb with | some b => !cut.contains b | none => true) } }
  let lost (x : FlashSlot) : FlashSlot := if x.st = 1 then { x with st := 0, chunk0 := false } else x
  { t with mci := { t.mci with restart := 2 }, dev := { t.dev with restarting := true }, sec := { t.sec with slotA := lost t.sec.slotA, slotB := lost t.sec.slotB } }

/-- A DEVICE_RESTART that waits goes on once no other command executes (R378). -/
def restartIfIdle (s : State) : State :=
  match s.mci.restartMb with
  | some i => if s.mci.restart = 1 ∧ s.othersExecuting i = [] then beginRestart s else s
  | none => s

/-- MCI_COMPLETE: a command that has a response completes (R374 to R376). -/
def execMciComplete (mb : Nat) (outputWritten : Bool) (s : State) : Out :=
  done s (match (s.mb mb).staged with
    | some r => if mb < 16 ∧ s.mci.restart ≠ 2 then restartIfIdle (completeMb mb r outputWritten s) else s
    | none => s)

/-! ### Host resets (R377) -/

/-- PERST# or FLR reaches the host mailboxes (R377). -/
def resetMailboxes (s : State) : State :=
  (List.range 14).foldl (fun t i =>
    let m := t.mb i
    match m.st with
    | .queued => onMb i (fun m => { m with lock := 0 }) (endUntaken i stAbortReset false t)
    | .fetching => onMb i (fun m => { m with lock := 0 }) (endUntaken i stAbortReset false t)
    | .executing => onMb i (fun m => { m with hostReset := true }) t
    | _ => onMb i (fun m => { m with lock := 0 }) t) s

/-! ### Restarts (R378, R386) -/

/-- DEVICE_RESTART: commits in MRAM, then waits for executing commands (R378, R386). -/
def deviceRestartAct (mb : Nat) (_ : Mailbox) (s : State) : State :=
  restartIfIdle ((onMb mb (fun m => { m with committed := true }) s).onMci fun c => { c with restart := 1, restartMb := some mb })
/-- Fields, objects and refusals of the command (steps 5 to 7 of R366). -/
def deviceRestartPlan (s : State) (m : Mailbox) : Plan :=
  { p := m.parse, objects := [objDevice], refuse := if s.dev.activating then some (stConflict, 0, 1) else none }
def execDeviceRestart (mb : Nat) (s : State) : Out :=
  done s (mciRun mb 0x0104 s
    (deviceRestartPlan s)
    (deviceRestartAct mb))

/-- RESTART_WAIT_EXPIRED: 1 s has passed and the restart cuts off the commands still running (R378). -/
def execRestartWaitExpired (s : State) : Out := done s (if s.mci.restart = 1 then beginRestart s else s)

/-- CONTROL_COMPLEX_RESTARTED: committed commands report RESTARTED and mailboxes are taken again (R378). -/
def restarted (s : State) : State :=
  let t := (s.onMci fun c =>
    { c with restart := 0, restartMb := none,
             mbs := mapIf c.mbs (fun m => m.st == .executing && m.committed) (fun m => { m with restarted := true }) }).onDev
    fun d => { d with restarting := false }
  match s.mci.restartMb with
  | some i => mciOk i [] [] t
  | none => t
def execControlComplexRestarted (s : State) : Out := done s (if s.mci.restart = 2 then restarted s else s)

/-! ### Sideband (R368, R369) -/

def ccOk : Nat := 0
def ccBadOffset : Nat := 1
def ccNotReady : Nat := 2

/-- Whether an offset and length stay in the mailbox or its staging area (R368). -/
def sbRange (off len : Nat) : Bool := off + len ≤ 0x2000 || (0x10000 ≤ off && off + len ≤ 0x50000)

/-- A sideband operation that needs the control complex: NOT_READY in D3cold, BAD_OFFSET outside the ranges (R368, R369). -/
def sbGate (mb off len : Nat) (s : State) (act : State → State) : State :=
  if mb ≠ 14 ∧ mb ≠ 15 ∨ ¬ sbRange off len then emit (.mctp ccBadOffset []) s
  else if ¬ s.pins.main then emit (.mctp ccNotReady []) s
  else act s

/-- A byte of a mailbox or its staging area as the BMC reads it. -/
def sbByte (m : Mailbox) (a : Nat) : Byte :=
  if a < 0x2000 then BitVec.ofNat 8 (((mbReg m (a / 4 * 4)).getD 0) / 256 ^ (a % 4)) else nth m.sideband (a - 0x10000) 0

/-- A word written through the sideband: MB_LOCK and MB_DOORBELL by R363 and R364, other words under their access codes (R368). -/
def sbWriteWord (mb off v : Nat) (s : State) : State :=
  if off = 0 then onMb mb (lockWrite v) s
  else if off = 8 then (if bit v 0 then ringWrite mb (bit v 1) s else if bit v 1 then cancelWrite mb s else s)
  else onMb mb (mbWrite off v) s

/-- Bytes written through the sideband (R361, R368). -/
def sbWriteBytes (mb off : Nat) (data : Bytes) (s : State) : State :=
  if 0x10000 ≤ off then onMb mb (fun m => { m with sideband := putBytes m.sideband (off - 0x10000) data }) s
  else if 0x100 ≤ off ∧ off + data.length ≤ 0x1000 then
    onMb mb (fun m => { m with inline := putBytes m.inline (off - 0x100) data }) s
  else if off % 4 = 0 ∧ data.length % 4 = 0 then
    (List.range (data.length / 4)).foldl (fun t i => sbWriteWord mb (off + 4 * i) (field data (4 * i) 4) t) s
  else s

/-- SIDEBAND_WRITE (R368). -/
def execSidebandWrite (mb off : Nat) (data : Bytes) (s : State) : Out :=
  done s (sbGate mb off data.length s (fun t => emit (.mctp ccOk []) (sbWriteBytes mb off data t)))
/-- SIDEBAND_READ: at most 1,008 bytes (R368). -/
def execSidebandRead (mb off len : Nat) (s : State) : Out :=
  done s (if 1008 < len then emit (.mctp ccBadOffset []) s
          else sbGate mb off len s (fun t => emit (.mctp ccOk ((List.range len).map (fun i => sbByte (t.mb mb) (off + i)))) t))
/-- SIDEBAND_RING (R364, R368). -/
def execSidebandRing (mb : Nat) (s : State) : Out := done s (sbGate mb 0 0 s (fun t => emit (.mctp ccOk []) (ringWrite mb false t)))
/-- SIDEBAND_CANCEL (R364, R368). -/
def execSidebandCancel (mb : Nat) (s : State) : Out := done s (sbGate mb 0 0 s (fun t => emit (.mctp ccOk []) (cancelWrite mb t)))

def Life.code : Life → Nat
  | .manufacture => 0 | .provisioned => 1 | .owned => 2 | .decommissioned => 3

/-- D-state of the host function: 0 D0, 3 D3hot, 4 D3cold (R324, R325, R368). -/
def State.dState (s : State) : Nat := if ¬ s.pins.main then 4 else if s.ep.d3hot then 3 else 0

/-- GET_STATE: MB_STATE, STATUS, lifecycle and D-state (R368); the island answers in D3cold (R369). -/
def execGetState (mb : Nat) (s : State) : Out :=
  done s (if mb = 14 ∨ mb = 15 then
      emit (.mctp ccOk (leBytes 4 ((mbReg (s.mb mb) 0x004).getD 0) ++ leBytes 4 (s.mb mb).resp.word ++
        leBytes 1 s.hw.lifecycle.code ++ leBytes 1 s.dState)) (alertSet mb false s)
    else emit (.mctp ccBadOffset []) s)

/-- A wake request from the BMC: WAKE# in D3cold when PME_En is set, a PME in D3hot (R326). -/
def wakeHost (s : State) : State :=
  if ¬ s.pins.main then (if s.cfg.pmeEn then { s with pins := { s.pins with wake := true } } else s)
  else if s.ep.d3hot then sendPme s else s
/-- WAKE_HOST (R326, R368). -/
def execWakeHost (mb : Nat) (s : State) : Out :=
  done s (if mb = 14 ∨ mb = 15 then emit (.mctp ccOk []) (wakeHost s) else emit (.mctp ccBadOffset []) s)

/-! ### MCTP control commands (R368; their responses as DSP0236 gives them, log entry 7) -/

/-- SET_ENDPOINT_ID: EIDs 0 and 0xFF are refused as invalid data. -/
def execSetEndpointId (eid : Nat) (s : State) : Out :=
  done s (if 0 < eid ∧ eid < 0xFF then emit (.mctp 0 (leBytes 1 0 ++ leBytes 1 eid ++ leBytes 1 0)) (s.onMci fun m => { m with eid := eid })
          else emit (.mctp 2 []) s)
/-- GET_ENDPOINT_ID. -/
def execGetEndpointId (s : State) : Out := done s (emit (.mctp 0 (leBytes 1 s.mci.eid ++ leBytes 1 0 ++ leBytes 1 0)) s)
/-- GET_MCTP_VERSION_SUPPORT: the base specification and control protocol (0xFF, 0) and type 0x7E. -/
def execGetMctpVersionSupport (msgType : Nat) (s : State) : Out :=
  done s (if msgType = 0xFF ∨ msgType = 0 ∨ msgType = 0x7E then emit (.mctp 0 (leBytes 1 1 ++ beBytes 4 0xF1F3F100)) s
          else emit (.mctp 0x80 []) s)
/-- GET_MESSAGE_TYPE_SUPPORT: control messages and type 0x7E (R368). -/
def execGetMessageTypeSupport (s : State) : Out := done s (emit (.mctp 0 (leBytes 1 2 ++ leBytes 1 0 ++ leBytes 1 0x7E)) s)
/-- GET_VENDOR_DEFINED_MESSAGE_SUPPORT: one set, PCI vendor 0x1E7B (R368). -/
def execGetVendorDefinedMessageSupport (selector : Nat) (s : State) : Out :=
  done s (if selector = 0 then emit (.mctp 0 (leBytes 1 0xFF ++ leBytes 1 0 ++ [0x1E, 0x7B] ++ leBytes 2 0)) s
          else emit (.mctp 2 []) s)

end Sys2Proof.Machine
end

