-- ==== Sys2Proof/Machine/KilnCar.lean ====
section
/-! DEFINITION. The kiln car (chapter 14): register sets and hand-over, descriptors, bursts, request lines, completion
records and interrupts, the car halt and its restart. -/
namespace Sys2Proof.Machine

/-- Channel `ch`. -/
def State.chan (s : State) (ch : Nat) : Chan := nth s.kc.chans ch {}
/-- Channel `ch` changed by `f`. -/
def onChan (ch : Nat) (f : Chan → Chan) (s : State) : State := s.onKc fun k => { k with chans := nthMod k.chans ch f }
/-- Channels 48 to 63 are maintenance class (R412). -/
def isMaint (ch : Nat) : Bool := 48 ≤ ch
/-- The location of a channel (R575). -/
def locChan (ch : Nat) : LocCode := locLane 0 7 (ch / 16) (ch % 16)

/-- A channel runs, or runs towards a stop. -/
def Chan.active? (c : Chan) : Bool := c.st == .running || c.st == .stopping

/-! ### Records and interrupts (R427, R428) -/

/-- The completion record of a data-class channel goes to its ring (R427). Log entry 8: PHASE. -/
def writeRecord (ch status : Nat) (s : State) : State :=
  let c := s.chan ch
  let d := c.desc.getD {}
  let flags := freeNat 1 s + flag c.handedOver 1 + flag c.rerun 2 + flag (c.ended && status == 0) 3
  onChan ch (fun c => { c with handedOver := false, rerun := false })
    (tookFree (emit (.kcRecord ch d.tag c.crc c.bytesDone status flags c.active.seq (u32 s.hw.turn) s.hw.cycle c.active.ring) s))

/-- An interrupt bit of a maintenance channel sets: 0 DONE, 1 HALTED, 2 ERROR; a newly set bit signals when enabled (R428). -/
def chanIrq (ch b : Nat) (s : State) : State :=
  if ¬ isMaint ch then s
  else
    let c := s.chan ch
    let old := match b with | 0 => c.irqDone | 1 => c.irqHalted | _ => c.irqError
    let t := onChan ch (fun c => match b with
      | 0 => { c with irqDone := true } | 1 => { c with irqHalted := true } | _ => { c with irqError := true }) s
    if !old && c.irqEnable then signal c.vector t else t

/-- A channel stops with a cause other than STOP: a data-class channel writes a record, a maintenance channel sets ERROR
(R427, R428). -/
def chanStop (ch : Nat) (cause : KcCause) (status : Nat) (s : State) : State :=
  let t := onChan ch (fun c => { c with st := .stopped, cause := cause, stopWanted := false, granted := false, dueOver := false }) s
  let u := if isMaint ch then chanIrq ch 2 t else writeRecord ch status t
  onChan ch (fun c => { c with desc := none }) u

/-! ### Commit and hand-over (R414 to R418) -/

/-- COMMIT: the shadow set becomes the pending copy (R414). -/
def commitCopy (ch : Nat) (s : State) : State :=
  let c := s.chan ch
  let seq := (c.commitSeq + 1) % 256
  let t := if c.committed.isSome then s.onKc fun k => { k with superseded := bump k.superseded } else s
  onChan ch (fun c => { c with commitSeq := seq, committed := some { c.shadow with seq := seq } }) t

/-- Hand-over: the pending copy becomes the active set and its chain starts (R415). A maintenance channel whose chain
lies elsewhere than HOST or STAGING stops with DESC_ERROR (R434). -/
def handOver (ch : Nat) (atCommit : Bool) (s : State) : State :=
  match (s.chan ch).committed with
  | none => s
  | some p =>
    let t := onChan ch (fun c => { c with
      st := .running, cause := .none, active := p, committed := none, shadowTaken := p.seq, takenAtCommit := atCommit,
      descDone := 0, hops := 0, bytesDone := 0, curDesc := p.chain, desc := none, handedOver := true, running := none,
      startRunning := none, ended := false, dueOver := false, stopWanted := false, granted := false }) s
    if isMaint ch ∧ 1 < p.chainSpace then
      raise { source := 0x102, loc := some (locChan ch) }
        (chanStop ch .descError 2 (t.onKc fun k => { k with descErrors := bump k.descErrors }))
    else t

/-- KC_COMMIT: an IDLE or DONE channel takes the copy in the next cycle (R414, R417). -/
def kcCommitBody (ch : Nat) (s : State) : State :=
  if ch < 64 then
    let t := commitCopy ch s
    if (s.chan ch).st = .idle ∨ (s.chan ch).st = .finished then handOver ch false t else t
  else s
def execKcCommit (ch : Nat) (s : State) : Out := done s (kcCommitBody ch s)

/-- KC_STOP: a RUNNING channel stops at its next boundary; on a HALTED one it waits for the re-run's boundary (R418, R430). -/
def kcStopBody (ch : Nat) (s : State) : State :=
  match (s.chan ch).st with
  | .running => onChan ch (fun c => { c with st := .stopping, stopWanted := true }) s
  | .halted => onChan ch (fun c => { c with stopWanted := true }) s
  | _ => s
def execKcStop (ch : Nat) (s : State) : Out := done s (if ch < 64 then kcStopBody ch s else s)

/-! ### Request lines (R425) -/

/-- One request arrives on a line. -/
def addRequest (line : Nat) (s : State) : State :=
  if nth s.kc.reqs line 0 < 255 then s.onKc fun k => { k with reqs := nthMod k.reqs line (· + 1) }
  else raise { source := 0x104 } (s.onKc fun k => { k with reqOverflow := bump k.reqOverflow })

/-- REQ_SET: one request on each chosen software line (R425, R433). -/
def execReqSet (mask : BitVec 8) (s : State) : Out :=
  done s (((List.range 8).filter (fun i => mask.getLsbD i)).foldl (fun t i => addRequest (88 + i) t) s)
/-- REQUEST_LINE_PULSE: an on-die unit drives lines 0 to 87 (R425). -/
def execRequestLinePulse (line : Nat) (s : State) : Out := done s (if line < 96 then addRequest line s else s)

/-! ### Descriptors (R419 to R423, R426) -/

/-- Element width: 0 means 64 (R419). -/
def elemWidth (w : Nat) : Nat := if w = 0 then 64 else w
/-- Element stride: 0 means the width (R419). -/
def elemStride (st w : Nat) : Nat := if st = 0 then elemWidth w else st
/-- The bytes from a side's base to its end, without an index table. -/
def sideExtent (count w st : Nat) : Nat :=
  let n := cdiv count (elemWidth w)
  (n - 1) * elemStride st w + (count - (n - 1) * elemWidth w)

/-- HOP_LIMIT in force for a written value (R426). -/
def hopLimit (n : Nat) : Nat := if n = 0 then 65536 else clampTo 16 16777216 n

/-- Bytes of an index table (R422). -/
def indexBytes (d : KcDesc) (w : Nat) : Nat := cdiv d.byteCount (elemWidth w) * (if d.index64 then 8 else 4)

/-- Whether a descriptor is invalid (R421). -/
def descInvalid (d : KcDesc) (maint : Bool) (stagingBytes : Nat) : Bool :=
  let okSpace (x : Nat) : Bool := if maint then x < 2 else x < 8
  let past (space addr ext : Nat) : Bool := decide (2 ^ 64 < addr + ext) || (space == 1 && decide (stagingBytes < addr + ext))
  d.op == 0 || decide (3 < d.op) || d.crc == 3 || (d.op != 2 && !okSpace d.srcSpace) || (d.op != 3 && !okSpace d.dstSpace) ||
  decide (64 < d.srcWidth) || decide (64 < d.dstWidth) || d.byteCount == 0 || decide (16777216 < d.byteCount) ||
  (d.srcStride != 0 && decide (d.srcStride < elemWidth d.srcWidth)) || (d.dstStride != 0 && decide (d.dstStride < elemWidth d.dstWidth)) ||
  d.index == 3 || (d.op == 2 && d.index == 1) ||
  (d.index == 1 && past d.srcSpace d.indexAddr (indexBytes d d.srcWidth)) || (d.index == 2 && d.op != 3 && past d.dstSpace d.indexAddr (indexBytes d d.dstWidth)) ||
  (d.op != 2 && d.index != 1 && past d.srcSpace d.srcAddr (sideExtent d.byteCount d.srcWidth d.srcStride)) ||
  (d.op != 3 && d.index != 2 && past d.dstSpace d.dstAddr (sideExtent d.byteCount d.dstWidth d.dstStride)) ||
  (d.reservedNonzero && !maint)

/-- DESCRIPTOR_FETCHED: the hop count rises; an invalid or over-limit descriptor stops the channel (R421, R426). -/
def fetchedBody (ch : Nat) (d : KcDesc) (s : State) : State :=
  let c := s.chan ch
  if ¬ c.active? ∨ c.desc.isSome ∨ 64 ≤ ch then s
  else
    let t := onChan ch (fun c => { c with
      hops := c.hops + 1, desc := some d, bytesDone := 0,
      running := some (if d.crcContinue then c.running.getD (crcInit d.crc) else crcInit d.crc),
      startRunning := some (if d.crcContinue then c.running.getD (crcInit d.crc) else crcInit d.crc) }) s
    if descInvalid d (isMaint ch) (s.pw.stagingMib * 1048576) then
      raise { source := if isMaint ch then 0x102 else 0x101, loc := some (locChan ch) }
        (chanStop ch .descError 2 (t.onKc fun k => { k with descErrors := bump k.descErrors }))
    else if hopLimit c.active.hopLimit ≤ c.hops + 1 ∧ ¬ d.last then
      raise { source := if isMaint ch then 0x107 else 0x103, loc := some (locChan ch) }
        (chanStop ch .hopLimit 3 (t.onKc fun k => { k with hopStops := bump k.hopStops }))
    else t
def execDescriptorFetched (ch : Nat) (d : KcDesc) (s : State) : Out := done s (fetchedBody ch d s)

/-- Source bytes `a` to `a + n` of a FILL pattern (R420). -/
def fillBytes (pattern a n : Nat) : Bytes := (List.range n).map (fun i => BitVec.ofNat 8 (pattern / 256 ^ ((a + i) % 8)))

/-- Address of stream byte `i` on a side without an index table (R422). -/
def streamAddr (base w st i : Nat) : Nat := base + i / elemWidth w * elemStride st w + i % elemWidth w

/-- The stream bytes that a burst brings: the pattern for FILL, staging contents for a STAGING source, else what the reads
returned (R420, R422). -/
def burstStream (c : Chan) (d : KcDesc) (data : Bytes) (s : State) : Bytes :=
  if d.op = 2 then fillBytes d.srcAddr c.bytesDone data.length
  else if d.srcSpace = 1 ∧ d.index ≠ 1 then
    (List.range data.length).map (fun i => stagingByte s (streamAddr d.srcAddr d.srcWidth d.srcStride (c.bytesDone + i)))
  else data

/-- The destination address of stream byte `i`; an index table gives the element offsets from the burst's first element on. -/
def destAddr (d : KcDesc) (first : Nat) (index : List Nat) (i : Nat) : Nat :=
  if d.index = 2 then d.dstAddr + nth index (i / elemWidth d.dstWidth - first / elemWidth d.dstWidth) 0 % (if d.index64 then 2 ^ 64 else 2 ^ 32) + i % elemWidth d.dstWidth
  else streamAddr d.dstAddr d.dstWidth d.dstStride i

/-- Stream bytes land at their destinations in ascending order (R422). -/
def landBytes (ch : Nat) (d : KcDesc) (first : Nat) (index : List Nat) : Nat → Bytes → State → State
  | _, [], s => s
  | i, b :: bs, s =>
    let a := destAddr d first index i
    landBytes ch d first index (i + 1) bs (if d.dstSpace = 1 then stagingWrite a [b] s else emit (.kcWrite ch d.dstSpace a [b]) s)

/-- A burst of a channel completes: at most 16 KiB of stream, its writes issued and its bytes in the CRC (R422 to R424). -/
def channelBurst (ch : Nat) (data : Bytes) (index : List Nat) (s : State) : State :=
  let c := s.chan ch
  match c.desc with
  | none => s
  | some d =>
    if ¬ c.active? ∨ ¬ c.granted ∨ s.kc.halted then s
    else
      let b := burstStream c d (data.take (min 16384 (d.byteCount - c.bytesDone))) s
      let t := if d.op = 3 then s else landBytes ch d c.bytesDone index c.bytesDone b s
      onChan ch (fun c => { c with bytesDone := c.bytesDone + b.length, granted := false,
                                   running := c.running.map (fun r => if d.crc = 0 then r else crcRun d.crc r b) }) t

/-- The final CRC is stored, and appended behind the last destination byte (R423). -/
def storeCrc (ch : Nat) (d : KcDesc) (s : State) : State :=
  if d.crc = 0 then s
  else
    let v := crcFinal d.crc (((s.chan ch).running).getD 0)
    let t := onChan ch (fun c => { c with crc := v }) s
    if d.crcAppend ∧ d.op ≠ 3 then
      let a := streamAddr d.dstAddr d.dstWidth d.dstStride (d.byteCount - 1) + 1
      let bytes := leBytes (if d.crc = 1 then 4 else 8) v
      if d.dstSpace = 1 then stagingWrite a bytes t else emit (.kcWrite ch d.dstSpace a bytes) t
    else t

/-- The channel's chain or count has ended with this descriptor (R426). -/
def chainEnds (c : Chan) (d : KcDesc) : Bool := d.last || (c.active.count != 0 && decide (c.active.count ≤ c.descDone + 1))

/-- What a boundary leads to: a stop, a hand-over, the end, or the next descriptor (R415, R417, R418). -/
def afterBoundary (ch : Nat) (ends commitNow : Bool) (s : State) : State :=
  let c := s.chan ch
  if c.st = .stopping then
    let t := onChan ch (fun c => { c with st := .stopped, cause := .stop, stopWanted := false }) s
    if commitNow then commitCopy ch t else t
  else if c.committed.isSome then
    let t := handOver ch commitNow s
    if commitNow then commitCopy ch t else t
  else
    let t := if ends then onChan ch (fun c => { c with st := .finished, cause := .endOfCount }) s else s
    if commitNow then (if ends then handOver ch false (commitCopy ch t) else commitCopy ch t) else t

/-- A halted channel goes on: what a completed boundary left due, the next descriptor, or its current descriptor again from its
start (R429 step 4, R430). -/
def haltedGoes (ch : Nat) (s : State) : State :=
  let c := s.chan ch
  let t := onChan ch (fun c => { c with st := if c.stopWanted then .stopping else .running, cause := .none, dueOver := false }) s
  if c.desc.isNone ∧ c.dueOver then afterBoundary ch c.ended false t
  else if c.desc.isNone then t
  else (onChan ch (fun c => { c with bytesDone := 0, running := c.startRunning, rerun := true }) t).onKc fun k => { k with reruns := bump k.reruns }

/-- KC_START: resumes a STOPPED channel, or re-runs a HALTED maintenance channel's descriptor (R417, R429). -/
def kcStartBody (ch : Nat) (s : State) : State :=
  let c := s.chan ch
  if c.st = .stopped then
    if c.committed.isSome then handOver ch false s
    else if c.ended then onChan ch (fun c => { c with st := .finished, cause := .endOfCount }) s
    else onChan ch (fun c => { c with st := .running, cause := .none, hops := 0 }) s
  else if c.st = .halted ∧ isMaint ch then haltedGoes ch s
  else s
def execKcStart (ch : Nat) (s : State) : Out := done s (if ch < 64 then kcStartBody ch s else s)

/-- DESCRIPTOR_BOUNDARY: the descriptor completes; CRC, record, count, then hand-over, stop or the next (R415 to R418,
R423, R426 to R428). `commitNow` says that a commit falls in the same cycle. On a channel that a halt has caught, the boundary
was in the cycle of detection: the descriptor is complete, and what follows waits for the restart (R430). -/
def boundaryBody (ch : Nat) (commitNow : Bool) (s : State) : State :=
  let c := s.chan ch
  match c.desc with
  | none => s
  | some d =>
    let caught := s.kc.halted && c.st == .halted
    if ¬ (c.active? ∧ ¬ s.kc.halted ∨ caught) ∨ c.bytesDone < d.byteCount then s
    else
      let ends := chainEnds c d
      let t := onChan ch (fun c => { c with ended := ends }) (storeCrc ch d s)
      let t := if ¬ isMaint ch ∧ (d.record ∨ ends) then writeRecord ch 0 t else onChan ch (fun c => { c with rerun := false }) t
      let t := onChan ch (fun c => { c with descDone := c.descDone + 1, curDesc := if ends then c.curDesc else d.next, desc := none }) t
      let t := if ends then chanIrq ch 0 t else t
      if caught then onChan ch (fun c => { c with dueOver := true }) (if commitNow then commitCopy ch t else t) else afterBoundary ch ends commitNow t
def execDescriptorBoundary (ch : Nat) (commitNow : Bool) (s : State) : Out := done s (if ch < 64 then boundaryBody ch commitNow s else s)

/-! ### Errors and the car halt (R429 to R432) -/

/-- KC_MEM_ERROR: corrected, or the channel stops with INTERNAL and its descriptor is not re-run (R432). -/
def kcMemBody (ch macroNo : Nat) (cell : Option Nat) (correctable : Bool) (s : State) : State :=
  let f : FaultIn := { source := if correctable then 0x105 else 0x106, loc := some (loc 0 7 (ch / 16) (ch % 16) macroNo), cell := cell }
  if correctable then raise f s else raise f (chanStop ch .internal 5 s)
def execKcMemError (ch macroNo : Nat) (cell : Option Nat) (correctable : Bool) (s : State) : Out :=
  done s (if ch < 64 then kcMemBody ch macroNo cell correctable s else s)

/-- A running channel is HALTED, to run its descriptor again from the start (R429 steps 2 and 3). -/
def haltChan (cause : KcCause) (c : Chan) : Chan :=
  { c with st := .halted, cause := cause, granted := false,
           stopWanted := c.stopWanted || c.st == .stopping }

/-- The whole kiln car halts on a bus error (R429). `own` is the channel whose own data access failed. -/
def carHalt (kind addr : Nat) (own : Option Nat) (prefetch : Bool) (faults : List FaultIn) (s : State) : State :=
  let t := (List.range 64).foldl (fun u i =>
    if (u.chan i).active? then chanIrq i 1 (onChan i (haltChan (if own = some i then .busError else .engineHalt)) u) else u) s
  let t := t.onKc fun k => { k with
    halted := true, restartAt := s.hw.turn + 2, haltCount := bump k.haltCount, haltAddr := addr, haltChannel := own.getD 0x3F,
    haltKind := kind, haltPrefetch := prefetch, reissue := k.reissue ++ s.ep.reqs.map (·.2) }
  raiseAll (faults ++ [{ source := 0x100, addr := some addr, space := 0 }]) (abandonRequests t)

/-- One halted channel at the restart (R429 step 4). -/
def restartChan (i : Nat) (s : State) : State :=
  let c := s.chan i
  if c.st ≠ .halted ∨ isMaint i then s
  else if c.cause = .busError then chanStop i .busError 1 s
  else haltedGoes i s

/-- The kiln car restarts at the second boundary after the latest error, and host requests are issued again (R429, R430). -/
def carRestart (s : State) : State :=
  if s.kc.halted ∧ s.kc.restartAt ≤ s.hw.turn then
    let t := (List.range 64).foldl (fun u i => restartChan i u) (s.onKc fun k => { k with halted := false, reissue := [] })
    s.kc.reissue.foldl (fun u r => match r with | .channel _ _ => u | _ => hostRead 1 r u) t
  else s

/-- Whether a channel's work touches HOST space (R431). -/
def Chan.touchesHost (c : Chan) : Bool :=
  (c.active? || c.st == .halted) &&
  (c.active.chainSpace == 0 || (match c.desc with | some d => (d.op != 2 && d.srcSpace == 0) || (d.op != 3 && d.dstSpace == 0) | none => false))

/-- PERST#, FLR or a link down ends every descriptor that touches HOST space (R431). -/
def carHostReset (s : State) : State :=
  (List.range 64).foldl (fun u i => if (u.chan i).touchesHost then chanStop i .hostReset 4 u else u) s

/-! ### Registers (R433, R434) -/

def KcSt.code : KcSt → Nat | .idle => 0 | .running => 1 | .stopping => 2 | .stopped => 3 | .halted => 4 | .finished => 5
def KcCause.code : KcCause → Nat
  | .none => 0 | .endOfCount => 1 | .stop => 2 | .hopLimit => 3 | .descError => 4 | .busError => 5 | .engineHalt => 6
  | .hostReset => 7 | .internal => 8

/-- A channel register at an offset from the channel base (R434). -/
def chanReg (c : Chan) (off : Nat) : Option Nat :=
  match off with
  | 0x00 => some 0
  | 0x04 => some (c.st.code + flag c.committed.isSome 3 + c.cause.code * 16 + c.active.seq * 256 + c.shadowTaken * 65536 +
                  flag c.takenAtCommit 24)
  | 0x08 => some (c.commitSeq * 256)
  | 0x0C => some (flag c.irqDone 0 + flag c.irqHalted 1 + flag c.irqError 2 + flag c.irqEnable 8)
  | 0x10 => some c.vector
  | 0x14 => some (u32 c.descDone)
  | 0x18 => some c.bytesDone
  | 0x1C => some c.hops
  | 0x20 => some (u32 c.curDesc)
  | 0x24 => some (c.curDesc / 2 ^ 32)
  | 0x28 => some (u32 c.crc)
  | 0x2C => some (c.crc / 2 ^ 32)
  | 0x40 => some (u32 c.shadow.chain)
  | 0x44 => some (c.shadow.chain / 2 ^ 32)
  | 0x48 => some (c.shadow.chainSpace + c.shadow.ring * 16)
  | 0x4C => some c.shadow.count
  | 0x50 => some c.shadow.hopLimit
  | 0x60 => some (u32 c.active.chain)
  | 0x64 => some (c.active.chain / 2 ^ 32)
  | 0x68 => some (c.active.chainSpace + c.active.ring * 16)
  | 0x6C => some c.active.count
  | 0x70 => some c.active.hopLimit
  | _ => none

/-- A register of the kiln car block (R433). -/
def kcReg (off : Nat) (s : State) : Option Nat :=
  let k := s.kc
  match off with
  | 0x000 => some (flag k.halted 0 + flag (k.halted && k.restartAt == s.hw.turn + 1) 1 +
                   (k.chans.filter (fun c => c.st == .running || c.st == .stopping)).length * 256)
  | 0x004 => some k.haltCount
  | 0x008 => some (u32 k.haltAddr)
  | 0x00C => some (k.haltAddr / 2 ^ 32)
  | 0x010 => some (k.haltChannel + k.haltKind * 64 + flag k.haltPrefetch 8)
  | 0x014 => some k.burstsLast
  | 0x018 => some 0
  | 0x01C => some k.reqOverflow
  | 0x020 => some k.hopStops
  | 0x024 => some k.descErrors
  | 0x028 => some k.reruns
  | 0x02C => some k.superseded
  | 0x030 => some k.dataWriteIgnored
  | _ => if 0x1000 ≤ off ∧ off < 0x3000 then chanReg (s.chan ((off - 0x1000) / 0x80)) ((off - 0x1000) % 0x80) else none

/-- The RC registers of the kiln car cleared by a read. -/
def kcClear (off : Nat) (s : State) : State :=
  s.onKc fun k => match off with
    | 0x004 => { k with haltCount := 0 }
    | 0x01C => { k with reqOverflow := 0 }
    | 0x020 => { k with hopStops := 0 }
    | 0x024 => { k with descErrors := 0 }
    | 0x028 => { k with reruns := 0 }
    | 0x02C => { k with superseded := 0 }
    | 0x030 => { k with dataWriteIgnored := 0 }
    | _ => k

/-- A host write to a maintenance channel's register; CMD and COMMIT have rows of their own (R412, R434). -/
def chanWrite (off v : Nat) (c : Chan) : Chan :=
  match off with
  | 0x0C => { c with irqDone := c.irqDone && !bit v 0, irqHalted := c.irqHalted && !bit v 1, irqError := c.irqError && !bit v 2,
                     irqEnable := bit v 8 }
  | 0x10 => { c with vector := v % 2048 }
  | 0x40 => { c with shadow := { c.shadow with chain := c.shadow.chain / 2 ^ 32 * 2 ^ 32 + v / 64 * 64 } }
  | 0x44 => { c with shadow := { c.shadow with chain := u32 c.shadow.chain + v * 2 ^ 32 } }
  | 0x48 => { c with shadow := { c.shadow with chainSpace := v % 8, ring := v / 16 % 8 } }
  | 0x4C => { c with shadow := { c.shadow with count := v } }
  | 0x50 => { c with shadow := { c.shadow with hopLimit := hopLimit (v % 2 ^ 25) } }
  | _ => c

/-- A host write to the kiln car block: data-class channels ignore it and count it (R412). -/
def kcWriteReg (off v : Nat) (s : State) : State :=
  if 0x1000 ≤ off ∧ off < 0x3000 then
    let ch := (off - 0x1000) / 0x80
    if isMaint ch then onChan ch (chanWrite ((off - 0x1000) % 0x80) v) s
    else s.onKc fun k => { k with dataWriteIgnored := bump k.dataWriteIgnored }
  else s

end Sys2Proof.Machine
end

