-- ==== Sys2Proof/Machine/Placement.lean ====
section
/-! DEFINITION. Declustered placement (R59 to R65, R97 to R101), address arithmetic (R69 to R71, R90), sector tags
(R104 to R108) and member layout (R78 to R80, R112). -/
namespace Sys2Proof.Machine

/-! ### Descriptors (R46, R47, R59, R60, R63) -/

/-- Stripe width w = k + m. -/
def descW (d : Desc) : Nat := d.k + d.m
/-- Stripes per round, S. -/
def descS (d : Desc) : Nat := d.n / descW d
/-- Sectors per strip. -/
def descSsec (d : Desc) : Nat := 2 ^ (d.shift - 12)
/-- Dsec: sectors of data in a stripe (R69). -/
def descDsec (d : Desc) : Nat := d.k * descSsec d
/-- Array capacity in sectors (R70). -/
def descCapacity (d : Desc) : Nat := d.rounds * descS d * descDsec d
/-- Whether the form is mirror. -/
def isMirror (d : Desc) : Bool := d.form == 1

/-- Whether a descriptor obeys R46, R47 and R60. -/
def descLegal (d : Desc) : Bool :=
  14 ≤ d.shift && d.shift ≤ 20 && descW d ≤ d.n && d.n ≤ 256 &&
  match d.form with
  | 1 => d.k == 1 && 1 ≤ d.m && d.m ≤ 3
  | 2 => 2 ≤ d.k && d.k ≤ 60 && 1 ≤ d.m && d.m ≤ 2
  | 3 => 2 ≤ d.k && d.k ≤ 60 && 1 ≤ d.m && d.m ≤ 4
  | _ => false

/-! ### Permutations (R61) -/

/-- The generator's increment. -/
def gamma : BitVec 64 := 0x9E3779B97F4A7C15#64
/-- The output of splitmix64 for a state already advanced. -/
def mix64 (z : BitVec 64) : BitVec 64 :=
  let z := (z ^^^ (z >>> 30)) * 0xBF58476D1CE4E5B9#64
  let z := (z ^^^ (z >>> 27)) * 0x94D049BB133111EB#64
  z ^^^ (z >>> 31)

/-- Two places of a list exchanged. -/
def swapAt (l : List Nat) (i j : Nat) : List Nat := (l.set i (nth l j 0)).set j (nth l i 0)

/-- The exchanges of R61 from place `i` down to 1. -/
def shuffle : Nat → BitVec 64 → List Nat → List Nat
  | 0, _, l => l
  | i + 1, st, l => shuffle i (st + gamma) (swapAt l (i + 1) ((mix64 (st + gamma)).toNat % (i + 2)))

/-- π_r of R61. -/
def permutation (seed : BitVec 64) (r n : Nat) : List Nat :=
  shuffle (n - 1) (seed ^^^ (BitVec.ofNat 64 r * gamma)) (List.range n)

/-! ### Strips and relocations (R62, R65, R97 to R99) -/

/-- A strip of a round: stripe index, role, the pool index it is at, and the relocation entries that moved it. -/
structure Strip where
  j : Nat
  q : Nat
  loc : Nat
  chain : List Reloc := []
deriving DecidableEq, Repr

/-- The strips of a round at home (R62). -/
def homeStrips (d : Desc) (r : Nat) : List Strip :=
  let pi := permutation d.seed r d.n
  (List.range (descS d)).flatMap fun j => (List.range (descW d)).map fun t =>
    { j := j, q := (t + r) % descW d, loc := nth pi (j * descW d + t) 0 }

/-- The target of a strip of stripe j (R65, R97): the first candidate that is not excluded and not occupied. -/
def moveTarget (d : Desc) (pi : List Nat) (j : Nat) (excl occ : List Nat) : Option Nat :=
  ((List.range d.n).map (fun i => nth pi (((j + 1) * descW d + i) % d.n) 0)).find? (fun c => !excl.contains c && !occ.contains c)

/-- One relocation entry applied to the strips of round `r` (R97). -/
def applyReloc (d : Desc) (pi : List Nat) (r : Nat) (acc : List Strip × List Nat) (e : Reloc) : List Strip × List Nat :=
  if e.descGen ≠ d.gen ∨ r < e.first ∨ e.stop ≤ r then acc
  else match acc.1.find? (fun x => x.loc == e.lost) with
    | none => acc
    | some x => match moveTarget d pi x.j e.exclude acc.2 with
      | none => acc
      | some c => (mapIf acc.1 (fun y => y.j == x.j && y.q == x.q) (fun y => { y with loc := c, chain := y.chain ++ [e] }), acc.2 ++ [c])

/-- The strips of round `r` with their relocations (R97). -/
def strips (d : Desc) (relocs : List Reloc) (r : Nat) : List Strip :=
  let home := homeStrips d r
  (relocs.foldl (applyReloc d (permutation d.seed r d.n) r) (home, home.map (·.loc))).1

/-- Pool indices that hold a strip or a relocation's target in round `r` (R64, R97). -/
def occupied (d : Desc) (relocs : List Reloc) (r : Nat) : List Nat :=
  let home := homeStrips d r
  (relocs.foldl (applyReloc d (permutation d.seed r d.n) r) (home, home.map (·.loc))).2

/-- The strip of stripe j and role q in round r. -/
def stripOf (d : Desc) (relocs : List Reloc) (r j q : Nat) : Strip :=
  ((strips d relocs r).find? (fun x => x.j == j && x.q == q)).getD { j := j, q := q, loc := 0xFFFF }

/-- The home pool index of a strip (R62). -/
def homeOf (d : Desc) (r j q : Nat) : Nat :=
  nth (permutation d.seed r d.n) (j * descW d + (q + descW d - r % descW d) % descW d) 0

/-- The relocation entries with the exact progress that the device keeps in MRAM (R98, R100). -/
def Arr.relocs (a : Arr) : List Reloc :=
  a.body.relocs.map fun e => match a.exact.find? (fun x => x.1 == e.seq) with
    | some (_, dn, hm) => { e with doneRound := dn, homeRound := hm }
    | none => e

/-- Where a strip is read, by steps 1 to 4 of R98, before failed members are looked at. -/
def readPlace (d : Desc) (r : Nat) (x : Strip) : Option Nat :=
  match x.chain with
  | [] => some (homeOf d r x.j x.q)
  | e :: _ =>
    if (e.state = 3 ∨ e.state = 4) ∧ r < e.homeRound then some e.lost
    else if x.chain.all (fun f => r < f.doneRound) then some x.loc else none

/-! ### Members and their conditions -/

/-- The member list entry of a pool index. -/
def Arr.entry (a : Arr) (p : Nat) : MemEntry := nth a.body.members p { state := 2 }
/-- A pool index is FAILED, or holds no member. -/
def Arr.failed (a : Arr) (p : Nat) : Bool := (a.entry p).state == 2
/-- A pool index is REPLACING and its slot in round `r` is not filled yet (R217). -/
def Arr.unfilled (a : Arr) (p r : Nat) : Bool := (a.entry p).state == 3 && decide (((lookup a.directRound p).getD 0) ≤ r)

/-- The namespace at a pool index of an array. -/
def State.memberAt (s : State) (a : Arr) (p : Nat) : Option Ns :=
  s.arr.ns.find? (fun n => n.adopted && n.arrayUid == a.body.uid && n.poolIndex == p && n.ident.uid == (a.entry p).uid)

/-- The member at a pool index is there and HEALTHY (R192). -/
def State.healthyAt (s : State) (a : Arr) (p : Nat) : Bool :=
  !a.failed p && match s.memberAt a p with
    | some n => n.cond == .healthy && n.declare == none
    | none => false

/-- The array of an identifier, and a change to it. -/
def State.array (s : State) (id : Nat) : Option Arr := s.arr.arrays.find? (fun a => a.id == id)
def onArray (id : Nat) (f : Arr → Arr) (s : State) : State :=
  s.onArr fun x => { x with arrays := mapIf x.arrays (fun a => a.id == id) f }

/-- The descriptor that places an array LBA (R90). -/
def Arr.descAt (a : Arr) (lba : Nat) : Desc :=
  match a.body.descNext with
  | some d => if a.body.migrating ∧ lba < a.body.migrateLba then d else a.body.desc
  | none => a.body.desc

/-- The descriptor of a generation. -/
def Arr.descOf (a : Arr) (gen : Nat) : Desc :=
  match a.body.descNext with
  | some d => if d.gen = gen then d else a.body.desc
  | none => a.body.desc

/-- Stripe number, data role and slice of an array LBA (R70). -/
def stripeOf (d : Desc) (lba : Nat) : Nat := lba / descDsec d
def roleOf (d : Desc) (lba : Nat) : Nat := lba % descDsec d / descSsec d
def sliceOf (d : Desc) (lba : Nat) : Nat := lba % descDsec d % descSsec d
/-- The array LBA of role q, slice o of stripe n; for a parity role, that of D0 (R104). -/
def lbaOf (d : Desc) (n q o : Nat) : Nat := n * descDsec d + (if q < d.k then q * descSsec d else 0) + o
def roundOf (d : Desc) (n : Nat) : Nat := n / descS d
def indexOf (d : Desc) (n : Nat) : Nat := n % descS d

/-- Where R98 reads role q of stripe n, or none where it is an erasure. An UNAVAILABLE member is an erasure for reads
(R192). -/
def State.readAt (s : State) (a : Arr) (d : Desc) (n q : Nat) : Option Nat :=
  let r := roundOf d n
  match readPlace d r (stripOf d a.relocs r (indexOf d n) q) with
  | some p => if a.unfilled p r ∨ ¬ s.healthyAt a p then none else some p
  | none => none

/-- The members to which a close writes role q of stripe n (R99, R101): the one R98 would read from, or the target of a
relocation still in progress, with the home member as well during copy-back. FAILED members are left out. -/
def Arr.writeAt (a : Arr) (d : Desc) (n q : Nat) : List Nat :=
  let r := roundOf d n
  let x := stripOf d a.relocs r (indexOf d n) q
  let main := (readPlace d r x).getD x.loc
  let dual := match x.chain with
    | e :: _ =>
      let kept := ((a.body.relocs.find? (fun (f : Reloc) => f.seq == e.seq)).map (fun (f : Reloc) => f.homeRound)).getD 0
      if (e.state = 3 ∨ e.state = 4) ∧ kept ≤ r ∧ r < e.homeRound then [x.loc, e.lost] else []
    | [] => []
  ((dual.foldl (fun l p => addOnce p l) [main])).filter (fun p => !a.failed p)

/-- Roles of stripe n that are erasures now. -/
def State.erasures (s : State) (a : Arr) (d : Desc) (n : Nat) : List Nat :=
  (List.range (descW d)).filter (fun q => (s.readAt a d n q).isNone)

/-- The copy of a mirror stripe that a read takes (R71). -/
def mirrorCopy (d : Desc) (n : Nat) (erased : List Nat) : Option Nat :=
  ((List.range (descW d)).map (fun i => (n + i) % descW d)).find? (fun q => !erased.contains q)

/-- Member sector of slice o of stripe n on a member whose data area starts at `start` (R63, R70). -/
def memberSector (d : Desc) (start n o : Nat) : Nat := start + roundOf d n * descSsec d + o

/-! ### Volumes (R69, R95) -/

/-- The array LBA of a volume LBA (R69). -/
def volumeToArray (exts : List Extent) (vol v : Nat) : Option Nat :=
  (exts.find? (fun e => e.vol == vol && decide (e.start ≤ v) && decide (v < e.start + e.len))).map (fun e => e.base + (v - e.start))

/-- The volume that owns an array LBA through the extent list. -/
def ownerOf (exts : List Extent) (lba : Nat) : Nat :=
  ((exts.find? (fun e => decide (e.base ≤ lba) && decide (lba < e.base + e.len))).map (·.vol)).getD 0

/-- Volume LBA of an array LBA. -/
def arrayToVolume (exts : List Extent) (lba : Nat) : Nat :=
  ((exts.find? (fun e => decide (e.base ≤ lba) && decide (lba < e.base + e.len))).map (fun e => e.start + (lba - e.base))).getD 0

def Arr.volume (a : Arr) (id : Nat) : Option Volume := a.body.volumes.find? (fun v => v.id == id)

/-! ### Sector tags (R104 to R107) -/

def fPARITY : Nat := 1
def fRECONSTRUCTED : Nat := 2
def fMENDED : Nat := 4
def fLOST : Nat := 8
def fRMW : Nat := 16

/-- ARRAY_KEY: bytes 0 to 7 of ARRAY_UID (R104). -/
def arrayKey (uid : Nat) : Nat := uid % 2 ^ 64

/-- Bytes 8 to 63 of a tag (R104). -/
def tagBody (volume role flags lba gen key : Nat) (pi : Bytes) : Bytes :=
  leBytes 4 volume ++ leBytes 1 role ++ leBytes 1 flags ++ [1, 0] ++ leBytes 8 lba ++ leBytes 8 gen ++ leBytes 8 key ++
  padTo 16 pi ++ leBytes 8 0

/-- A tag over its data (R104, R105). -/
def tagOf (data : Sector) (volume role flags lba gen key : Nat) (pi : Bytes) : Bytes :=
  let b := tagBody volume role flags lba gen key pi
  leBytes 8 (crc64 (padTo 4096 data ++ b)).toNat ++ b

/-- An unwritten tag (R106). -/
def tagUnwritten (t : Bytes) : Bool := t.all (· == 0) || (t.length == 64 && t.all (· == 0xFF))

/-- The tag check of R107, without the LOST flag. -/
def tagMatches (x : RawSector) (role lba key : Nat) : Bool :=
  (tagUnwritten x.tag && x.data.all (· == 0)) ||
  (field x.tag 14 1 == 1 && field x.tag 32 8 == key && field x.tag 12 1 == role && field x.tag 16 8 == lba &&
   field x.tag 0 8 == (crc64 (padTo 4096 x.data ++ (padTo 64 x.tag).drop 8)).toNat)

/-- LOST is set in a tag (R109). -/
def tagLost (x : RawSector) : Bool := !tagUnwritten x.tag && bit (field x.tag 13 1) 3

/-- A sector as a member returned it, judged against the role and LBA expected (R107). -/
def roleSec (x : RawSector) (role lba key : Nat) : RoleSec :=
  let m := tagMatches x role lba key
  { role := role, data := trimZeros x.data, gen := if tagUnwritten x.tag then 0 else field x.tag 24 8, flags := field x.tag 13 1,
    volume := if tagUnwritten x.tag then 0 else field x.tag 8 4, pi := slice x.tag 40 16, ok := m && !tagLost x,
    lost := m && tagLost x, unwritten := tagUnwritten x.tag }

/-! ### Member layout (R78 to R80, R112) -/

/-- Tag sectors for D data sectors (R80). -/
def tagSectors (d : Nat) : Nat := cdiv (cdiv d 64) 256 * 256

/-- The step-down loop of R80. -/
def sizeLoop (free : Nat) : Nat → Nat → Nat
  | 0, d => d
  | k + 1, d => if d + tagSectors d ≤ free then d else sizeLoop free k (d - 256)

/-- D of R80 for capacity C, journal J, vault V and sector format (0 with metadata, 1 without). -/
def dataSize (cap j v fmt : Nat) : Nat :=
  let free := cap - 256 - (256 + j + v)
  if fmt = 0 then free / 256 * 256 else sizeLoop free 64 (free * 64 / 65 / 256 * 256)
/-- DATA start (R78). -/
def dataStart (j v : Nat) : Nat := 256 + j + v

/-- Sector and byte of the tag of DATA index i on a 4096+0 member (R112). -/
def tagPlace (n : Ns) (i : Nat) : Nat × Nat := (n.dataStart + n.dataSectors + i / 64, i % 64 * 64)

end Sys2Proof.Machine
end

