-- ==== Sys2Proof/Machine/Lines.lean ====
section
/-! DEFINITION. Saggar lines (R125 to R132), the dirty budget and write-through causes (R149, R151), the vault's sets and cap
(R178, R179), the intent journal (R161 to R168) and the messages mirrored to the twin (R246). -/
namespace Sys2Proof.Machine

/-! ### Channels and lines -/

/-- DDR channels present, C. -/
def State.chanCount (s : State) : Nat := ((List.range 8).filter s.ddrPresent).length
/-- Primary and paired channel of line L. -/
def State.primChan (s : State) (l : Nat) : Nat := l % max s.chanCount 1
def State.pairOf (s : State) (c : Nat) : Nat := c ^^^ (s.chanCount / 2)
/-- A channel is in service. -/
def State.chanUp (s : State) (c : Nat) : Bool := s.ddrPresent c && !s.sag.chanOut.getLsbD c

/-- The line of a number. -/
def State.lineAt (s : State) (n : Nat) : Option Line := s.sag.lines.find? (fun l => l.no == n)
/-- Lines changed where `p` holds. -/
def onLines (p : Line → Bool) (f : Line → Line) (s : State) : State := s.onSag fun g => { g with lines := mapIf g.lines p f }
/-- Lines where `p` holds become FREE. -/
def freeLines (p : Line → Bool) (s : State) : State := s.onSag fun g => { g with lines := g.lines.filter (fun l => !p l) }

/-- The lowest FREE line on channel `c`: each channel holds every C-th line. -/
def State.freeOn (s : State) (c : Nat) : Option Nat :=
  let used := s.sag.lines.map (·.no)
  ((List.range (s.sag.lines.length + 1)).map (fun i => c + i * max s.chanCount 1)).find?
    (fun n => !used.contains n && decide (n < s.sag.poolLines))

/-- The FREE line for a new PENDING line that starts its search at channel `c` (R132). -/
def State.freeLine (s : State) (c : Nat) : Option Nat :=
  let chans := (List.range s.chanCount).map (fun i => (c + i) % max s.chanCount 1)
  chans.findSome? (fun x => if s.chanUp x && s.chanUp (s.pairOf x) then s.freeOn x else none)

/-- The least recently used CLEAN line becomes FREE (R146). -/
def evictClean (s : State) : State :=
  let clean := s.sag.lines.filter (fun l => l.st == .clean)
  match clean.foldl (fun (b : Option Line) l => match b with
      | none => some l
      | some x => if l.stamp < x.stamp then some l else some x) none with
  | some l => freeLines (fun x => x.no == l.no) s
  | none => s

/-- A line put into the pool on a FREE line, the least recently used CLEAN line making room when there is none. -/
def addLine (c : Nat) (l : Line) (s : State) : State :=
  let t := if (s.freeLine c).isSome then s else evictClean s
  match t.freeLine c with
  | some n => t.onSag fun g => { g with lines := g.lines ++ [{ l with no := n, stamp := g.nextStamp }], nextStamp := g.nextStamp + 1 }
  | none => t

/-- Lines of one array sector. -/
def Line.at (l : Line) (array lba : Nat) : Bool := l.array == array && l.lba == lba && l.st != .mirror

/-- The newest committed version of a sector that was admitted before `seq` (R137). -/
def State.version (s : State) (array lba seq : Nat) : Option Line :=
  (s.sag.lines.filter (fun l => l.at array lba && l.st != .pending && decide (l.seq < seq))).foldl
    (fun (b : Option Line) l => match b with
      | none => some l
      | some x => if x.seq ≤ l.seq then some l else some x) none

/-! ### Dirty budget (R149) -/

/-- Whether an admitted command is a write. -/
def Cmd.isWrite (c : Cmd) : Bool := c.sqid != 0 && (c.e.opc == 1 || c.e.opc == 8)

/-- A write that is admitted and has neither committed nor ended. -/
def Cmd.uncommitted (c : Cmd) : Bool := c.isWrite && (c.stage == .admitted || c.stage == .running) && c.error == none

/-- Lines in PENDING, DIRTY or CLOSING. -/
def State.dirtyLines (s : State) : Nat :=
  (s.sag.lines.filter (fun l => l.st == .pending || l.st == .dirty || l.st == .closing)).length

/-- Sectors of admitted writes that have no PENDING line yet. -/
def State.reservedSectors (s : State) : Nat :=
  total ((s.nvme.admitted.filter Cmd.uncommitted).map (fun c =>
    c.nlb - (s.sag.lines.filter (fun l => l.st == .pending && l.sqid == c.sqid && l.cid == c.e.cid)).length))

/-! ### The vault's sets (R178, R179) -/

/-- A vault member is healthy and reachable. -/
def State.vaultUp (s : State) (m : VaultMember) : Bool :=
  s.arr.ns.any (fun n => n.ident.uid == m.uid && n.cond == .healthy && n.declare == none && n.failing == none)

/-- The members of copy set `i`. -/
def Vault.set (v : Vault) (i : Nat) : List VaultMember :=
  ((List.range v.members.length).filter (fun j => j % max v.copies 1 == i)).map (fun j => nth v.members j {})
def State.setComplete (s : State) (i : Nat) : Bool := (s.vault.set i) != [] && (s.vault.set i).all s.vaultUp
/-- Complete copy sets. -/
def State.completeSets (s : State) : List Nat := (List.range s.vault.copies).filter s.setComplete

/-- Least of a list, none when it is empty. -/
def leastOf (l : List Nat) : Option Nat := l.foldl (fun b x => match b with | none => some x | some y => some (min x y)) none

/-- B of R179 in bytes per second (rates are kept in MB/s). -/
def State.vaultBw (s : State) : Nat :=
  ((leastOf (s.completeSets.map (fun i => total ((s.vault.set i).map (·.rate))))).getD 0) * 1000000
/-- Capacity of a set in lines. -/
def setCapacity (l : List VaultMember) : Nat := total (l.map (fun m => 63 * (m.vaultSectors / 64 - 1)))

/-- The cap of R179 in lines; none while it gives none. -/
def State.capLines (s : State) : Option Nat :=
  if s.vault.configured ∧ s.vault.tested ∧ s.completeSets ≠ [] then
    some (min (8 * s.vault.holdupUs * s.vaultBw / 10 / 1000000 / 4096)
      ((leastOf (s.completeSets.map (fun i => setCapacity (s.vault.set i)))).getD 0))
  else none

/-- The conditions of R178. -/
def State.mayArm (s : State) : Bool :=
  s.vault.configured && s.vault.tested && 2 ≤ s.completeSets.length && 1 ≤ (s.capLines).getD 0 && s.vault.status == .idle

/-- The dirty budget in force, in lines (R149). -/
def State.budgetLines (s : State) : Nat :=
  let b := s.sag.poolLines * 40 / 100
  let b := match s.capLines with | some c => min b c | none => b
  match s.sag.dirtyBudget with | some d => min b (d / 4096) | none => b

/-- Dirty lines in the sense of R149. -/
def State.dirtyTotal (s : State) : Nat := s.dirtyLines + s.reservedSectors

/-! ### Write-through causes (R151) -/

/-- Policy bits of R405: TWIN_REQUIRED, FLUSH_TO_MEDIA. -/
def volTwinRequired (v : Volume) : Bool := v.policy.getLsbD 0
def volFlushToMedia (v : Volume) : Bool := v.policy.getLsbD 1

/-- The twin mirror serves an array's volumes (R247). -/
def State.twinServes (s : State) (a : Arr) : Bool := a.shared && a.owner && s.twin.st == .mirroring

/-- Cause TWIN_LOST as the latest boundary found it, for a volume that needs the twin. -/
def State.twinLost (s : State) (a : Arr) : Bool := s.sag.causeTwin || !a.shared || !a.owner
/-- The cause bits that apply to a volume. -/
def State.causes (s : State) (a : Arr) (v : Volume) : Nat :=
  flag s.sag.causeVault 0 + flag s.sag.causeEcc 1 + flag (volTwinRequired v && s.twinLost a) 2
def State.writeThrough (s : State) (a : Arr) (v : Volume) : Bool := s.causes a v != 0

/-! ### The intent journal (R161 to R166) -/

/-- INTENT_GEN of the next record: bit 63 is the twin side, bits 62:0 the counter (R161). -/
def State.twinSide (s : State) : Nat :=
  match s.twin.partner with
  | some p => if p.toNat < Config.deviceId.toNat then 1 else 0
  | none => 0

/-- Records that the own area holds; records taken over stay in partner-area slots (R255). -/
def State.ownUsed (s : State) : Nat := (s.vault.own.filter (fun r => !s.vault.takenOver.contains r.intentGen)).length
/-- Free slots of the own area. -/
def State.journalRoom (s : State) : Nat := 262144 - s.ownUsed

/-- The OPEN record of a stripe, and its CLOSING one. -/
def State.openRec (s : State) (key n dg : Nat) : Option Rec :=
  s.vault.own.find? (fun r => r.key == key && r.stripe == n && r.descGen == dg && r.st == .opened)
def State.recOf (s : State) (gen : Nat) : Option Rec := s.vault.own.find? (fun r => r.intentGen == gen)

/-- A message waits for the Slip link in its class (R38, R246): ARRAY_KEY, TWIN_SEQ, admission sequence, message. -/
def slipQueue (cls key seq adm : Nat) (m : SlipMsg) (s : State) : State :=
  s.onTwin fun t => match cls with
    | 0 => { t with queueRec := t.queueRec ++ [(key, seq, adm, m)] }
    | 1 => { t with queueMeta := t.queueMeta ++ [(key, seq, adm, m)] }
    | _ => { t with queueLine := t.queueLine ++ [(key, seq, adm, m)] }

/-- The next TWIN_SEQ is taken (R246). -/
def tookTwinSeq (s : State) : State := s.onTwin fun t => { t with twinSeq := t.twinSeq + 1 }

/-- A shared array may be served and written: the link is up, or the last good check of its registration was issued at most
10 ms ago (R253). -/
def State.fenceOk (s : State) (a : Arr) : Bool :=
  !a.shared || s.twin.partner == none || s.twin.up || match a.checkGood with
    | some t => decide ((s.hw.turn - t) * s.turnNs ≤ 10000000)
    | none => false

/-- The array of an ARRAY_KEY. -/
def State.arrayOfKey (s : State) (key : Nat) : Option Arr := s.arr.arrays.find? (fun a => arrayKey a.body.uid == key)
/-- Whether records of an array key are mirrored: its array is shared, owned here, and the link mirrors or resynchronises. -/
def State.mirrors (s : State) (key : Nat) : Bool :=
  match s.arrayOfKey key with
  | some a => a.shared && a.owner && s.twin.up && (s.twin.st == .mirroring || s.twin.st == .syncing)
  | none => false

/-- A message waits for the Coil engine (R288, R293). -/
def coilQueue (node typ tag : Nat) (data : Bytes) (s : State) : State :=
  s.onCoil fun c => { c with outbox := c.outbox ++ [{ node := node, typ := typ, tag := tag, data := data }] }

/-- The node that a volume of a shared array is mirrored to (R250, R405, R410). -/
def State.mirrorNode (s : State) (a : Arr) (v : Volume) : Option Nat :=
  if ¬ a.shared ∨ ¬ v.policy.getLsbD 3 then none
  else (s.pol.remoteTargets.find? (fun x => x.1 == a.body.uid && x.2.1 == v.id)).map (fun x => x.2.2.1)

/-- A Slip message goes to a remote receiver under a service tag, whose other bits the spec leaves open (R243, R250, R294). -/
def remoteSend (node typ side count key twinSeq lba : Nat) (body : Bytes) (s : State) : State :=
  let h := leBytes 1 typ ++ leBytes 1 side ++ beBytes 2 count ++ beBytes 4 0 ++ beBytes 8 key ++ beBytes 8 twinSeq ++ beBytes 8 lba
  tookFree (coilQueue node 9 (2 ^ 63 + 2 ^ 49 + freeNat 48 s) (h ++ body) s)

/-- The remote receivers of a record: those of every mirrored volume that its stripe touches. -/
def State.recNodes (s : State) (key stripe dg : Nat) : List Nat :=
  match s.arrayOfKey key with
  | none => []
  | some a =>
    let d := a.descOf dg
    let lo := stripe * descDsec d
    (a.body.volumes.filter (fun v => a.body.extents.any (fun e => e.vol == v.id && decide (e.base < lo + descDsec d) && decide (lo < e.base + e.len)))).foldl
      (fun l v => match s.mirrorNode a v with | some n => addOnce n l | none => l) []

/-- A line goes to the remote receiver of its volume (R245, R250). -/
def remoteLine (a : Arr) (side q : Nat) (l : SlipLine) (s : State) : State :=
  match (a.body.volumes.find? (fun v => v.id == l.volume)).bind (s.mirrorNode a) with
  | none => s
  | some n => remoteSend n 3 side 1 l.key q l.lba (padTo 4096 l.data ++ padTo 16 l.pi ++ leBytes 4 l.volume ++ leBytes 4 l.index ++ leBytes 4 l.count ++
      leBytes 4 0 ++ leBytes 8 l.intentGen ++ leBytes 8 l.admitSeq) s

/-- A record is written to MRAM: it waits for the ring, and where the twin serves it, it is sent (R166, R170, R246, R250).
`f` makes the record's new value. A frozen journal changes nothing (R172). -/
def writeRec (gen : Nat) (f : Rec → Rec) (s : State) : State :=
  if s.vault.frozen then s
  else match s.recOf gen with
    | none => s
    | some r0 =>
      let far := s.recNodes r0.key r0.stripe r0.descGen
      let mir := s.mirrors r0.key || far != []
      let r := f { r0 with twinSeq := if mir then s.twin.twinSeq else r0.twinSeq }
      let own := if r.st = .retired then s.vault.own.filter (fun x => x.intentGen != gen)
        else mapIf s.vault.own (fun x => x.intentGen == gen) (fun _ => r)
      let t := s.onVault fun v => { v with own := own, ringPending := v.ringPending ++ [r] }
      let t := if mir then tookTwinSeq t else t
      let t := far.foldl (fun u n => remoteSend n 2 s.twinSide 1 r.key 0 0 (recBytes r) u) t
      if s.mirrors r0.key then slipQueue 0 r.key r.twinSeq 0 (.records [r]) t else t

/-- The OPEN record of a stripe is opened, or gains roles (R162). -/
def openRecord (key n dg mask : Nat) (s : State) : State :=
  match s.openRec key n dg with
  | some r => if r.roleMask ||| mask = r.roleMask then s else writeRec r.intentGen (fun x => { x with roleMask := x.roleMask ||| mask }) s
  | none =>
    let gen := s.vault.recCounter + (if s.twinSide = 1 then 2 ^ 63 else 0)
    let r : Rec := { key := key, stripe := n, intentGen := gen, roleMask := mask, descGen := dg }
    let t := s.onVault fun v => { v with own := v.own ++ [r], recCounter := v.recCounter + 1,
                                         journalPeak := max v.journalPeak (s.ownUsed + 1) }
    writeRec gen id t

/-- A record is retired (R162). -/
def retireRec (gen : Nat) (s : State) : State := writeRec gen (fun r => { r with st := .retired }) s
/-- A record that holds nothing is freed, and the ring sees it RETIRED with no sectors (R162, R166). -/
def freeRec (gen : Nat) (s : State) : State := writeRec gen (fun r => { r with st := .retired, dirty := 0 }) s

/-! ### Open stripes (R138) -/

/-- The gather state of a stripe. -/
def State.openStripe (s : State) (array n dg : Nat) : Option OpenStripe :=
  s.sag.openStripes.find? (fun o => o.array == array && o.stripe == n && o.dg == dg)

/-- A stripe is open from the turn of its first commit (R138). -/
def openGather (array n dg : Nat) (s : State) : State :=
  if (s.openStripe array n dg).isSome then s
  else s.onSag fun g => { g with openStripes := g.openStripes ++ [{ array := array, stripe := n, dg := dg, start := s.hw.turn }] }

/-- A stripe's close becomes ready; closes keep the order in which they became ready (R140). -/
def readyClose (array n dg : Nat) (s : State) : State :=
  s.onSag fun g =>
    if g.openStripes.any (fun o => o.array == array && o.stripe == n && o.dg == dg && !o.ready) then
      { g with nextOrder := g.nextOrder + 1,
               openStripes := mapIf g.openStripes (fun o => o.array == array && o.stripe == n && o.dg == dg && !o.ready)
                 (fun o => { o with ready := true, order := g.nextOrder }) }
    else g

/-- Dirty sectors of a stripe as (role, slice) with their lines: the newest DIRTY version of each. -/
def State.dirtyOf (s : State) (a : Arr) (d : Desc) (n : Nat) : List Line :=
  let lo := n * descDsec d
  s.sag.lines.filter (fun l => l.st == .dirty && l.array == a.id && decide (lo ≤ l.lba) && decide (l.lba < lo + descDsec d))

/-- Every data sector of a stripe has a DIRTY or CLEAN version (R140, condition 1). -/
def State.stripeWhole (s : State) (a : Arr) (d : Desc) (n : Nat) : Bool :=
  (List.range (descDsec d)).all fun i =>
    s.sag.lines.any (fun l => l.at a.id (n * descDsec d + i) && (l.st == .dirty || l.st == .clean))

end Sys2Proof.Machine
end

