-- ==== Sys2Proof/Machine/Marks.lean ====
section
/-! DEFINITION. What the device writes on members to the byte: the mark (R81 to R96, R103), ring sectors (R114, R161), vault
headers and descriptors (R118, R119). -/
namespace Sys2Proof.Machine

/-! ### The mark (R81 to R96) -/

/-- Placement descriptor (R89). -/
def descBytes (d : Desc) : Bytes :=
  leBytes 1 d.form ++ leBytes 1 d.k ++ leBytes 1 d.m ++ leBytes 1 d.shift ++ leBytes 2 d.n ++ leBytes 2 0 ++
  leBytes 8 d.seed.toNat ++ leBytes 8 d.rounds ++ leBytes 4 d.gen ++ leBytes 4 0

/-- JOURNAL_MEMBERS: four pool indices, 0xFFFF unused (R88). -/
def journalMembersBytes (l : List Nat) : Bytes := ((List.range 4).map (fun i => leBytes 2 (nth l i 0xFFFF))).flatten

/-- Array record (R88), without its trailing reserved bytes. -/
def arrayRecordBytes (b : MarkBody) : Bytes :=
  ascii "RLTKARRY" ++ leBytes 2 1 ++ leBytes 1 (flag b.migrating 0 + flag b.readOnly 1 + flag b.lostOverflow 2) ++ leBytes 1 0 ++
  leBytes 2 (max b.desc.n ((b.descNext.map (·.n)).getD 0)) ++ leBytes 2 b.relocs.length ++ leBytes 2 b.volumes.length ++
  leBytes 2 b.extents.length ++ leBytes 2 b.lost.length ++ leBytes 2 0 ++ leBytes 8 b.genFloor ++ leBytes 8 b.migrateLba ++
  journalMembersBytes b.journalMembers ++ leBytes 4 b.relocSeqNext ++ leBytes 4 b.volumeIdNext ++ leBytes 8 0 ++
  descBytes b.desc ++ (match b.descNext with | some d => descBytes d | none => leBytes 32 0) ++ padTo 32 b.name

/-- Member list entry (R92). -/
def memEntryBytes (e : MemEntry) : Bytes :=
  leBytes 16 e.uid ++ leBytes 1 e.state ++ leBytes 1 e.fmt ++ leBytes 1 (flag e.remote 0) ++ leBytes 1 0 ++ leBytes 4 e.node ++
  leBytes 2 e.port ++ leBytes 6 0 ++ leBytes 8 e.dataStart ++ leBytes 8 e.dataSectors ++ leBytes 4 e.failPc ++ leBytes 4 e.failMin ++
  leBytes 8 0

/-- Relocation entry (R96). -/
def relocBytes (e : Reloc) : Bytes :=
  leBytes 4 e.seq ++ leBytes 4 e.descGen ++ leBytes 2 e.lost ++ leBytes 1 e.state ++ leBytes 5 0 ++ leBytes 8 e.first ++
  leBytes 8 e.stop ++ leBytes 8 e.doneRound ++ leBytes 8 e.homeRound ++ leBytes 16 0 ++
  leBytes 32 (total (e.exclude.map (fun p => 2 ^ p))) ++ leBytes 32 0

/-- Extent entry (R95), volume record (R93), lost extent entry (R103). -/
def extentBytes (e : Extent) : Bytes := leBytes 4 e.vol ++ leBytes 4 0 ++ leBytes 8 e.start ++ leBytes 8 e.len ++ leBytes 8 e.base
def volumeBytes (v : Volume) : Bytes :=
  leBytes 4 v.id ++ leBytes 1 v.state ++ leBytes 1 v.lbaf ++ leBytes 2 v.nsid ++ leBytes 16 v.nguid ++ leBytes 8 v.capacity ++
  leBytes 8 v.policy.toNat ++ leBytes 24 0
def lostBytes (e : LostExt) : Bytes := leBytes 8 e.lba ++ leBytes 4 e.sectors ++ leBytes 1 e.cause ++ leBytes 3 0

/-- The region table (R78, R83). -/
def regionTableBytes (n : Ns) : Bytes :=
  let tag := if n.ident.fmt = 1 then tagSectors n.dataSectors else 0
  let rs := [(1, 0, 256), (2, 256, n.journal), (3, 256 + n.journal, n.vault), (4, n.dataStart, n.dataSectors),
    (5, n.dataStart + n.dataSectors, tag), (6, n.ident.capacity - 256, 256)].filter (fun r => r.2.2 != 0)
  ascii "RLTKREGN" ++ leBytes 2 rs.length ++ leBytes 54 0 ++
  (rs.map (fun r => leBytes 2 r.1 ++ leBytes 6 0 ++ leBytes 8 r.2.1 ++ leBytes 8 r.2.2 ++ leBytes 8 0)).flatten

/-- The body behind the region table: array record, member list, relocation table, extents, volumes, lost extents (R81). -/
def bodyBytes (b : MarkBody) : Bytes :=
  padTo 4096 (arrayRecordBytes b) ++ padTo 16384 ((b.members.map memEntryBytes).flatten) ++
  padTo 32768 ((b.relocs.map relocBytes).flatten) ++ padTo 131072 ((b.extents.map extentBytes).flatten) ++
  padTo 65536 ((b.volumes.map volumeBytes).flatten) ++ padTo 262144 ((b.lost.map lostBytes).flatten) ++ leBytes 4096 0

/-- Sectors 1 to 127 of a mark: a member in no array holds zeros behind its region table (R87). -/
def markBodyBytes (n : Ns) (b : Option MarkBody) : Bytes :=
  padTo 4096 (regionTableBytes n) ++ (match b with | some x => bodyBytes x | none => leBytes 516096 0)

/-- The mark header (R82). -/
def markHeader (now : FT) (n : Ns) (copyB : Bool) (b : Option MarkBody) : Bytes :=
  withCrc32 252 (padTo 4096 (
    ascii "RLTKMARK" ++ leBytes 2 1 ++ leBytes 1 (flag copyB 0) ++ leBytes 1 n.ident.fmt ++ leBytes 2 n.poolIndex ++ leBytes 2 0 ++
    leBytes 16 n.ident.uid ++ leBytes 16 ((b.map (·.uid)).getD 0) ++ leBytes 8 ((b.map (·.gen)).getD 0) ++ leBytes 8 n.ident.capacity ++
    leBytes 4 now.powerCycle ++ leBytes 4 now.opMinutes ++ leBytes 16 Config.deviceId.toNat ++
    leBytes 4 (crc32 (markBodyBytes n b)).toNat))

/-- Bytes as sectors with zero metadata (R75). -/
def plainSectors : Nat → Bytes → List RawSector
  | 0, _ => []
  | k + 1, b => { data := trimZeros (b.take 4096), tag := [] } :: plainSectors k (b.drop 4096)

/-! ### Lost extents (R103) -/

/-- An entry put in ARRAY_LBA order; adjacent entries of one cause merge. -/
def placeLost (e : LostExt) : List LostExt → List LostExt
  | [] => [e]
  | x :: l =>
    if x.cause = e.cause ∧ x.lba ≤ e.lba ∧ e.lba ≤ x.lba + x.sectors then
      { x with sectors := max (x.lba + x.sectors) (e.lba + e.sectors) - x.lba } :: l
    else if x.cause = e.cause ∧ e.lba + e.sectors = x.lba then { x with lba := e.lba, sectors := x.sectors + e.sectors } :: l
    else if e.lba < x.lba then e :: x :: l else x :: placeLost e l

/-- A sector leaves the list (R210). -/
def cutLost (lba : Nat) (l : List LostExt) : List LostExt :=
  l.flatMap fun e =>
    if e.lba ≤ lba ∧ lba < e.lba + e.sectors then
      (if e.lba < lba then [{ e with sectors := lba - e.lba }] else []) ++
      (if lba + 1 < e.lba + e.sectors then [{ e with lba := lba + 1, sectors := e.lba + e.sectors - (lba + 1) }] else [])
    else [e]

/-- Noted changes laid on a mark's list: a new entry, or with cause 0 a sector that a host write has cleared (R210). An entry
that does not fit sets LOST_OVERFLOW, which only an empty list clears. -/
def addLost (es : List LostExt) (b : MarkBody) : MarkBody :=
  let r := es.foldl (fun (b : MarkBody) (e : LostExt) =>
    if e.cause = 0 then { b with lost := cutLost e.lba b.lost }
    else
      let l := placeLost e b.lost
      if 16384 < l.length then { b with lostOverflow := true } else { b with lost := l }) b
  if r.lost = [] then { r with lostOverflow := false } else r

/-! ### Records, ring and vault sectors -/

/-- A ring sector (R114). -/
def ringBytes (seq half key : Nat) (recs : List Rec) : Bytes :=
  withCrc32 60 (padTo 4096 (ascii "RLTKJRNL" ++ leBytes 8 seq ++ leBytes 1 half ++ leBytes 1 recs.length ++ leBytes 2 0 ++ leBytes 8 key ++
    leBytes 16 Config.deviceId.toNat ++ leBytes 16 0 ++ leBytes 4 0 ++ (recs.map recBytes).flatten))

/-- A vault header (R118). -/
def vaultHeader (dumpSeq state copy groups lines startT endT : Nat) : Bytes :=
  withCrc32 4092 (padTo 4096 (ascii "RLTKVALT" ++ leBytes 16 Config.deviceId.toNat ++ leBytes 8 dumpSeq ++ leBytes 1 state ++
    leBytes 1 copy ++ leBytes 2 0 ++ leBytes 4 groups ++ leBytes 8 lines ++ leBytes 8 startT ++ leBytes 8 endT))

/-- A vault descriptor (R119). -/
def vaultDesc (key lba gen twinSeq volume : Nat) (valid : Bool) (pi : Bytes) (data : Sector) : Bytes :=
  leBytes 8 key ++ leBytes 8 lba ++ leBytes 8 gen ++ leBytes 8 twinSeq ++ leBytes 8 (crc64 (padTo 4096 data)).toNat ++
  leBytes 4 volume ++ leBytes 1 (flag valid 0) ++ leBytes 3 0 ++ padTo 16 pi

/-- A descriptor sector of a group (R119). -/
def vaultDescSector (dumpSeq group : Nat) (descs : List Bytes) : Bytes :=
  withCrc32 60 (padTo 4096 (ascii "RLTKVDSC" ++ leBytes 8 dumpSeq ++ leBytes 4 group ++ leBytes 1 descs.length ++ leBytes 39 0 ++ leBytes 4 0 ++
    descs.flatten))

end Sys2Proof.Machine
end

