-- ==== Sys2Proof/Machine/Jobs.lean ====
section
/-! DEFINITION. Member commands (R76, R197 to R199), member failure (R194, R195), jobs of the array engine, mark updates (R85,
R86) and ring sectors (R115, R166, R168). -/
namespace Sys2Proof.Machine

/-! ### Namespaces and member commands -/

/-- The NVMe opcode of an operation (log entry 9). -/
def MOp.code : MOp → Nat
  | .read => 0x02 | .write => 0x01 | .writeZeroes => 0x08 | .deallocate => 0x09 | .format => 0x80 | .reservationAcquire => 0x11
  | .reservationRelease => 0x15 | .reservationReport => 0x0E | .reservationRegister => 0x0D
  | .other o => o

def State.ns (s : State) (id : Nat) : Option Ns := s.arr.ns.find? (fun n => n.id == id)
def onNs (id : Nat) (f : Ns → Ns) (s : State) : State := s.onArr fun a => { a with ns := mapIf a.ns (fun n => n.id == id) f }
/-- A namespace takes commands. -/
def Ns.up (n : Ns) : Bool := n.cond == .healthy && n.declare == none && n.failing == none
def State.nsUp (s : State) (id : Nat) : Bool := ((s.ns id).map Ns.up).getD false

/-- A range cut into commands of at most `lim` sectors, 0 for no limit, in ascending LBA (R76). -/
def splitRange (lim : Nat) : Nat → Nat → Nat → List (Nat × Nat)
  | 0, _, _ => []
  | k + 1, lba, n => if n = 0 then [] else if lim = 0 ∨ n ≤ lim then [(lba, n)] else (lba, lim) :: splitRange lim k (lba + lim) (n - lim)

/-- A member command takes a free identifier and waits to be sent. -/
def addCmd (c : MCmd) (s : State) : State :=
  let used := s.arr.cmds.map (·.id) ++ s.arr.quarantine
  s.onArr fun a => { a with cmds := a.cmds ++ [{ c with id := freeTag used used.length 0, sent := false, turn := s.hw.turn }] }

/-- The commands of a range (R76). `data` holds the sectors of a Write. Commands without data are not bound by MDTS (R106). -/
def issue (c : MCmd) (s : State) : State :=
  let lim := match s.ns c.ns with
    | some n => if c.op = .read ∨ c.op = .write then n.ident.mdts else if c.op = .writeZeroes then (if n.ident.wzLimit = 0 then 65536 else min 65536 n.ident.wzLimit) else 0
    | none => 0
  (splitRange lim c.count c.lba c.count).foldl
    (fun t p => addCmd { c with lba := p.1, count := p.2, data := (c.data.drop (p.1 - c.lba)).take p.2 } t) s

/-- A member Write of sectors at an LBA, of the host class. -/
def writeCmd (job ns lba : Nat) (data : List RawSector) : MCmd :=
  { ns := ns, op := .write, lba := lba, count := data.length, job := job, data := data }

/-- The message that carries a command to a remote member: a 64-byte submission entry and, for a write, the data (R293). -/
def remoteCmdBytes (c : MCmd) (nsid : Nat) : Bytes :=
  leBytes 1 c.op.code ++ leBytes 1 0 ++ leBytes 2 c.id ++ leBytes 4 nsid ++ leBytes 32 0 ++ leBytes 8 c.lba ++ leBytes 4 (c.count - 1 + flag c.fua 30) ++ leBytes 12 0 ++
  (if c.op = .write then c.data.flatMap (fun x => padTo 4096 x.data ++ x.tag) else [])

/-- The next sequence number of a port's crossing, and whether the port's side is in reset (R516, R520). -/
def State.crossNext (s : State) (p : Nat) : Nat := ((lookup s.clk.crossings p).map (·.1)).getD 0
def State.crossReset (s : State) (p : Nat) : Bool := ((lookup s.clk.crossings p).map (·.2)).getD false

/-- Force Unit Access: as the work asks, and for a close where the member's write cache is volatile (R143). -/
def State.needsFua (s : State) (c : MCmd) : Bool :=
  c.fua || (c.op == .write && ((s.ns c.ns).map (·.ident.volatileCache)).getD false &&
    s.arr.jobs.any (fun j => j.id == c.job && (j.kind == .fullClose || j.kind == .partialClose || j.kind == .repair || j.kind == .resync)))

/-- A waiting command goes to its member; to a remote one as a message under a service tag (R293). -/
def sendCmd (id : Nat) (s : State) : State :=
  match s.arr.cmds.find? (fun c => c.id == id) with
  | none => s
  | some w =>
    let c := { w with fua := s.needsFua w }
    let q := match (s.ns c.ns).map (·.loc.port) with | some p => s.crossNext p | none => 0
    let t := s.onArr fun a => { a with cmds := mapIf a.cmds (fun x => x.id == id) (fun x => { x with sent := true, turn := s.hw.turn, xseq := q }) }
    let t := match s.ns c.ns with | some n => if n.loc.remote then t else t.onClk fun k => { k with crossings := insert n.loc.port ((q + 1) % 65536, false) k.crossings } | none => t
    let u := emit (.memberCmd id c.ns c.op.code c.lba c.count c.fua) t
    let u := match s.ns c.ns with
      | some n => if n.loc.remote then coilQueue n.loc.node 9 (2 ^ 63 + n.loc.exp * 2 ^ 32 + id) (remoteCmdBytes c n.loc.nsid) u else u
      | none => u
    if c.op = .write then emit (.memberData id c.data) u else u

/-- Another command that touches the same blocks of the same namespace and stands before this one (R198). An update of tag
sectors holds them from its Read to the end of its Write (R112). -/
def MCmd.blockedBy (c x : MCmd) : Bool :=
  x.ns == c.ns && x.id != c.id && decide (c.lba < x.lba + x.count) && decide (x.lba < c.lba + c.count) &&
  ((x.op == .write || c.op == .write) && (x.timedOut || x.sent) || c.step == 1 && (x.step == 2 || x.step == 1 && x.sent))

/-- Writes to members of a shared array obey R253; acquiring a reservation comes before it. -/
def State.fenceSend (s : State) (c : MCmd) : Bool :=
  c.op == .read || c.op == .reservationReport || c.op == .reservationAcquire || c.op == .reservationRegister || match s.ns c.ns with
    | some n => match s.arr.arrays.find? (fun a => a.body.uid == n.arrayUid) with
      | some a => 3 ≤ a.takeover || s.fenceOk a
      | none => true
    | none => true

/-- Whether a waiting command may be sent now. -/
def State.maySend (s : State) (c : MCmd) : Bool :=
  s.fenceSend c &&
  !c.sent && !c.timedOut && s.nsUp c.ns && !((s.ns c.ns).any (fun n => !n.loc.remote && s.crossReset n.loc.port)) && !s.arr.cmds.any (fun x => c.blockedBy x) && (c.cls == 0 || c.op == .read || !s.dev.holding)

/-! ### Jobs -/

def State.job (s : State) (id : Nat) : Option Job := s.arr.jobs.find? (fun j => j.id == id)
def onJob (id : Nat) (f : Job → Job) (s : State) : State := s.onArr fun a => { a with jobs := mapIf a.jobs (fun j => j.id == id) f }
def onSlice (id k : Nat) (f : Slice → Slice) (s : State) : State := onJob id (fun j => { j with slices := nthMod j.slices k f }) s
/-- A job enters the list under the next identifier. -/
def addJob (j : Job) (s : State) : State :=
  let blind := ((s.array j.array).map (·.forcedNoJournal)).getD false
  s.onArr fun a => { a with jobs := a.jobs ++ [{ j with id := a.nextJob, allRows := blind }], nextJob := a.nextJob + 1 }

/-- A job leaves; its waiting commands go with it and the results of those sent are dropped. -/
def endJob (id : Nat) (s : State) : State :=
  s.onArr fun a => { a with
    jobs := a.jobs.filter (fun j => j.id != id),
    cmds := mapIf (a.cmds.filter (fun c => c.job != id || c.sent)) (fun c => c.job == id) (fun c => { c with job := 0, discard := true }) }

/-- Member commands of a job, or of one of its slices, that have not ended. -/
def State.jobCmds (s : State) (id : Nat) : List MCmd := s.arr.cmds.filter (fun c => c.job == id)
def State.sliceBusy (s : State) (id k : Nat) : Bool := (s.jobCmds id).any (fun c => c.slice == k)

/-! ### Failure of a member (R194, R195) -/

/-- A member is declared FAILED with a cause; it takes effect at the next boundary (R194, R195). A namespace in no array
is only out of reach. -/
def declareFailed (id cause : Nat) (s : State) : State :=
  match s.ns id with
  | none => s
  | some n =>
    if n.arrayUid = 0 ∨ n.stale ∨ n.declare ≠ none ∨ n.failing ≠ none then s
    else
      let t := onNs id (fun n => { n with declare := some cause }) s
      let aid := ((s.arr.arrays.find? (fun a => a.body.uid == n.arrayUid)).map (·.id)).getD 0
      raise { source := 0x160, loc := if n.loc.remote then none else some (locPort n.loc.port) }
        (recordArray aid 1 [cause, n.poolIndex, n.ident.uid] t)

/-! ### Finishing an MCI command that waited -/

/-- A command's response is ready: its inline and buffer bytes were staged when it started (R376). -/
def mciFinish (i : Nat) (s : State) : State :=
  onMb i (fun m => { m with staged := some (mkResp m.adj (if m.adj = [] then 0 else 1) 0 0) }) s
/-- A command stages its bytes and goes on waiting. -/
def mciWait (i : Nat) (inline out : Bytes) (s : State) : State :=
  onMb i (fun m => { m with stagedInline := inline, stagedOut := out }) s

/-! ### Mark updates (R85, R86) -/

/-- A mark update of an array is being written. -/
def State.markJob (s : State) (aid : Nat) : Option Job := s.arr.jobs.find? (fun j => j.kind == .mark && j.array == aid)

/-- Namespaces that a mark with body `b` is written on: those of its ACTIVE, REPLACING and ADDING entries (R86). -/
def State.markTargets (s : State) (b : MarkBody) : List Ns :=
  s.arr.ns.filter (fun n => n.declare == none && n.failing == none && !n.stale &&
    b.members.any (fun e => e.uid == n.ident.uid && e.state != 2))

/-- The sector at which the copy that is not current starts (R85). -/
def Ns.otherCopy (n : Ns) : Nat := if n.markB then 0 else n.ident.capacity - 256

/-- A mark update starts: body sectors first, the header last, each on the copy that is not current (R85). -/
def launchMark (aid : Nat) (body : MarkBody) (mbs : List Nat) (s : State) : State :=
  match s.array aid with
  | none => s
  | some a =>
    let g := max a.markGen a.body.gen + 1
    let b := addLost a.pendingLost { body with gen := g }
    let ts := s.markTargets b
    let id := s.arr.nextJob
    let t := onArray aid (fun a => { a with markGen := g }) (addJob { kind := .mark, array := aid, body := some b, ns := ts.map (·.id), mbs := mbs, sector := a.pendingLost.length } s)
    ts.foldl (fun u n => issue { writeCmd id n.id (n.otherCopy + 1) (plainSectors 127 (markBodyBytes n (some b))) with fua := true } u) t

/-- The body that the next change starts from. -/
def State.markBase (s : State) (a : Arr) : MarkBody :=
  match a.markWaiting, s.markJob a.id, a.persisted with
  | some b, _, _ => b
  | _, some j, _ => j.body.getD a.body
  | _, _, some b => b
  | _, _, _ => a.body

/-- A change of an array's metadata: one mark update at a time, later changes waiting together (R85). -/
def startMark (aid : Nat) (f : MarkBody → MarkBody) (mbs : List Nat) (s : State) : State :=
  match s.array aid with
  | none => s
  | some a =>
    if (s.markJob aid).isSome ∨ a.persisted.isSome ∨ a.markWaiting.isSome then
      onArray aid (fun x => { x with markWaiting := some (f (s.markBase a)), markMbs := x.markMbs ++ mbs }) s
    else launchMark aid (f a.body) mbs s

/-- Every body write has ended: the headers follow on the members that took them (R85). -/
def markHeaders (j : Job) (s : State) : State :=
  j.succeeded.foldl (fun t id => match t.ns id with
    | some n => issue { writeCmd j.id id n.otherCopy (plainSectors 1 (markHeader t.now n (!n.markB) j.body)) with fua := true } t
    | none => t) (onJob j.id (fun x => { x with stage := 1, succeeded := [] }) s)

/-- Every header write has ended: persisted on at least m + 1 members, or to be made again (R86). -/
def markEnd (j : Job) (s : State) : State :=
  match j.body with
  | none => endJob j.id s
  | some b =>
    let t := endJob j.id s
    if b.desc.m + 1 ≤ j.succeeded.length then
      let u := onArray j.array (fun a => { a with persisted := some b, persistedMbs := j.mbs, persistedLost := j.sector }) t
      if b.uid = 0 then u else u.onVault fun v => { v with binding := insert (arrayKey b.uid) b.gen v.binding }
    else onArray j.array (fun a => { a with markWaiting := some (a.markWaiting.getD b), markMbs := j.mbs ++ a.markMbs }) t

/-- A command of a mark update has ended. -/
def markCmdDone (j : Job) (c : MCmd) (ok : Bool) (s : State) : State :=
  let t := if ok then onJob j.id (fun x => { x with succeeded := addOnce c.ns x.succeeded }) s
    else declareFailed c.ns 5 (onJob j.id (fun x => { x with succeeded := x.succeeded.filter (· != c.ns) }) s)
  let t := if ok ∧ j.stage = 1 then
      onNs c.ns (fun n => { n with markB := !n.markB, markGen := ((j.body.map (·.gen)).getD 0), markValid := true }) t else t
  if (t.jobCmds j.id) ≠ [] then t
  else match t.job j.id with
    | some x => if x.stage = 0 ∧ x.succeeded ≠ [] then markHeaders x t else markEnd x t
    | none => t

/-- The waiting update of an array starts when none is being written or due. -/
def nextMark (aid : Nat) (s : State) : State :=
  match s.array aid with
  | some a => match a.markWaiting with
    | some b => if (s.markJob aid).isSome ∨ a.persisted.isSome then s
        else launchMark aid b a.markMbs (onArray aid (fun x => { x with markWaiting := none, markMbs := [] }) s)
    | none => s
  | none => s

/-- A running update that waits for a member that has been declared FAILED is abandoned (R86): its changes wait with the
declaration for the next one. -/
def abandonMark (aid : Nat) (s : State) : State :=
  match s.array aid, s.markJob aid with
  | some a, some j =>
    endJob j.id (onArray aid (fun x => { x with markWaiting := some (a.markWaiting.getD (j.body.getD a.body)), markMbs := j.mbs ++ x.markMbs }) s)
  | _, _ => s

/-! ### The member journal ring (R113 to R116, R165 to R168) -/

/-- The half this device writes (R113): A out of a twin or beside side 0, B on side 1. -/
def State.ringHalf (s : State) : Nat := s.twinSide

/-- RING_SEQ and place that a writer is at. -/
def State.ringPos (s : State) (key half : Nat) : Nat × Nat :=
  match s.vault.ringSeq.find? (fun x => x.1 == key && x.2.1 == half) with
  | some (_, _, q, p) => (q, p)
  | none => (0, 0)

def setRingPos (key half q p : Nat) (s : State) : State :=
  s.onVault fun v => { v with ringSeq := v.ringSeq.filter (fun x => !(x.1 == key && x.2.1 == half)) ++ [(key, half, q, p)] }

/-- Namespaces of the named journal members that are not FAILED. -/
def State.journalNs (s : State) (a : Arr) : List Ns :=
  (a.body.journalMembers.filter (fun p => p != 0xFFFF && !a.failed p)).filterMap (fun p =>
    match s.memberAt a p with
    | some n => if n.declare == none && n.failing == none then some n else none
    | none => none)

/-- Live records whose newest ring copy lies in the sector about to be overwritten (R168). -/
def State.ringDue (s : State) (key half pos : Nat) : List Rec :=
  (s.vault.own ++ s.vault.partner).filter (fun r => r.key == key && half ≤ pos && lookup s.vault.ringAt r.intentGen == some (pos - half))

/-- One ring sector of an array is issued to every named member (R166). -/
def ringSector (a : Arr) (recs : List Rec) (s : State) : State :=
  let key := arrayKey a.body.uid
  let half := s.ringHalf
  let (q, p) := s.ringPos key half
  let id := s.arr.nextJob
  let ms := s.journalNs a
  let bytes := ringBytes (q + 1) half key recs
  let t := addJob { kind := .ring, array := a.id, ns := ms.map (·.id) } s
  let t := setRingPos key half (q + 1) (p + 1) t
  let t := t.onVault fun v => { v with
    ringFlight := v.ringFlight ++ [(id, key, recs)],
    ringAt := recs.foldl (fun l r => if r.st = .retired then l.filter (fun x => x.1 != r.intentGen)
                                     else l.filter (fun x => x.1 != r.intentGen) ++ [(r.intentGen, p)]) v.ringAt }
  ms.foldl (fun u n =>
    let at_ := (p + (lookup s.vault.ringOff n.id).getD 0) % max (n.journal / 2) 1
    issue (writeCmd id n.id (256 + half * (n.journal / 2) + at_) (plainSectors 1 bytes)) u) t

/-- Up to `k` ring sectors of an array from the pending records (R166, R168). -/
def ringSectors (aid : Nat) : Nat → State → State
  | 0, s => s
  | k + 1, s => match s.array aid with
    | none => s
    | some a =>
      let key := arrayKey a.body.uid
      let mine := s.vault.ringPending.filter (fun r => r.key == key)
      if mine = [] ∨ s.journalNs a = [] then s
      else
        let (_, p) := s.ringPos key s.ringHalf
        let h := (leastOf ((s.journalNs a).map (fun n => n.journal / 2))).getD 1
        let again := s.ringDue key h p
        let recs := (again ++ mine).take 63
        let rest := (again ++ mine).drop 63
        ringSectors aid k (ringSector a recs (s.onVault fun v => { v with ringPending := v.ringPending.filter (fun r => r.key != key) ++ rest }))

/-- A ring sector counts as written once every named member that is not FAILED has acknowledged it, and at least one has
(R166); the closes whose CLOSING records it holds may write (R167). -/
def ringCmdDone (j : Job) (c : MCmd) (ok : Bool) (s : State) : State :=
  let t := if ok then onJob j.id (fun x => { x with succeeded := addOnce c.ns x.succeeded }) s else declareFailed c.ns 5 s
  if (t.jobCmds j.id) ≠ [] then t
  else
    let flight := (s.vault.ringFlight.filter (fun x => x.1 == j.id)).flatMap (fun x => x.2.2)
    let ok := ((t.job j.id).map (fun x => x.succeeded != [])).getD false
    let u := (endJob j.id t).onVault fun v => { v with ringFlight := v.ringFlight.filter (fun x => x.1 != j.id),
                                                       ringPending := if ok then v.ringPending else flight ++ v.ringPending }
    let mine (x : Job) : Bool := flight.any (fun r => r.st == .closing && r.intentGen == x.intentGen && x.intentGen != 0)
    if ok then u.onArr fun a => { a with jobs := mapIf a.jobs mine (fun x => { x with ringed := true }) } else u

/-- Records that await the ring, RING_LAG (R187). -/
def State.ringLag (s : State) : Nat := s.vault.ringPending.length + total (s.vault.ringFlight.map (fun x => x.2.2.length))

end Sys2Proof.Machine
end

