-- ==== Sys2Proof/Machine/Pi.lean ====
section
/-! DEFINITION. Protection information (R347 to R349), status codes of the queue engine (R357), and the queue engine's commands
as other units see them. -/
namespace Sys2Proof.Machine

/-! ### Protection information -/

/-- Eight steps of the CRC-16 of polynomial 0x8BB7, most significant bit first. -/
def crc16Bits : Nat → BitVec 16 → BitVec 16
  | 0, c => c
  | k + 1, c => crc16Bits k (if c.getLsbD 15 then (c <<< 1) ^^^ 0x8BB7#16 else c <<< 1)
/-- CRC-16 of LBAF 1 (R347). -/
def crc16 (b : Bytes) : BitVec 16 := b.foldl (fun (c : BitVec 16) (x : Byte) => crc16Bits 8 (c ^^^ (BitVec.setWidth 16 x <<< (8 : Nat)))) 0

def beNat (b : Bytes) : Nat := leNat b.reverse

/-- Bytes of protection information of a format, and the width of its reference tag in bits. -/
def piSize (lbaf : Nat) : Nat := match lbaf with | 1 => 8 | 2 => 16 | _ => 0
def refBits (lbaf : Nat) : Nat := if lbaf = 1 then 32 else 48

/-- The guard over a sector's data. -/
def guardOf (lbaf : Nat) (data : Sector) : Nat :=
  if lbaf = 1 then (crc16 (padTo 4096 data)).toNat else (crc64 (padTo 4096 data)).toNat

/-- Protection information with an application and a reference tag (R347, R348). -/
def piOf (lbaf : Nat) (data : Sector) (app ref : Nat) : Bytes :=
  match lbaf with
  | 1 => beBytes 2 (guardOf 1 data) ++ beBytes 2 app ++ beBytes 4 ref
  | 2 => beBytes 8 (guardOf 2 data) ++ beBytes 2 app ++ beBytes 6 ref
  | _ => []

def piGuard (lbaf : Nat) (p : Bytes) : Nat := if lbaf = 1 then beNat (slice p 0 2) else beNat (slice p 0 8)
def piApp (lbaf : Nat) (p : Bytes) : Nat := if lbaf = 1 then beNat (slice p 2 2) else beNat (slice p 8 2)
def piRef (lbaf : Nat) (p : Bytes) : Nat := if lbaf = 1 then beNat (slice p 4 4) else beNat (slice p 10 6)

/-- The volume's protection information is Type 3 (R405). -/
def volType3 (v : Volume) : Bool := v.policy.getLsbD 2
/-- The reference tag of a volume for an expected value. -/
def refOf (v : Volume) (expect : Nat) : Nat := if volType3 v then 2 ^ refBits v.lbaf - 1 else expect % 2 ^ refBits v.lbaf

/-- What R348 and R349 check: PRCHK bits (guard 4, application 2, reference 1), expected tags and the mask. -/
structure PiCheck where
  guard : Bool := false
  app : Bool := false
  ref : Bool := false
  lbat : Nat := 0
  lbatm : Nat := 0
  expect : Nat := 0

/-- Statuses of R357 are kept as SC plus 256 times SCT; DNR is added when the completion is posted. -/
def scGuard : Nat := 0x282
def scApp : Nat := 0x283
def scRef : Nat := 0x284

/-- The checks on a sector's protection information, in the order of R348. -/
def piCheck (v : Volume) (data : Sector) (p : Bytes) (c : PiCheck) : Option Nat :=
  let app := piApp v.lbaf p
  let ref := piRef v.lbaf p
  if app = 0xFFFF ∨ piSize v.lbaf = 0 then none
  else if c.guard ∧ piGuard v.lbaf p ≠ guardOf v.lbaf data then some scGuard
  else if c.app ∧ app &&& c.lbatm ≠ c.lbat &&& c.lbatm then some scApp
  else if c.ref ∧ ¬ volType3 v ∧ ref ≠ c.expect % 2 ^ refBits v.lbaf then some scRef else none

/-- Regenerated protection information: application tag 0xFFFF (R349). -/
def regenPi (v : Volume) (data : Sector) (expect : Nat) : Bytes := piOf v.lbaf data 0xFFFF (refOf v expect)

/-! ### Status codes (R357) -/

def scOk : Nat := 0
def scInvalidOpcode : Nat := 0x001
def scInvalidField : Nat := 0x002
def scCidConflict : Nat := 0x003
def scTransfer : Nat := 0x004
def scInternal : Nat := 0x006
def scAbortRequested : Nat := 0x007
def scSqDeletion : Nat := 0x008
def scInvalidNs : Nat := 0x00B
def scSglCount : Nat := 0x00E
def scSglOffset : Nat := 0x00F
def scSglType : Nat := 0x010
def scPrpOffset : Nat := 0x013
def scWriteProtected : Nat := 0x020
def scInterrupted : Nat := 0x021
def scLbaRange : Nat := 0x080
def scNotReady : Nat := 0x082
def scUnrecovered : Nat := 0x281

/-! ### Commands of the queue engine -/

/-- The admitted command of a queue and identifier; one that ended before admission only waits for its completion. -/
def Cmd.named (sqid cid : Nat) (c : Cmd) : Bool := c.sqid == sqid && c.e.cid == cid && c.admittedAt.isSome
def State.cmd (s : State) (sqid cid : Nat) : Option Cmd := s.nvme.admitted.find? (Cmd.named sqid cid)
def onCmd (sqid cid : Nat) (f : Cmd → Cmd) (s : State) : State :=
  s.onNvme fun n => { n with admitted := mapIf n.admitted (Cmd.named sqid cid) f }

/-- A command is ready to complete with a status; a status already set stays (R154). -/
def cmdReady (sqid cid dw0 status : Nat) (s : State) : State :=
  onCmd sqid cid (fun c => match c.stage with
    | .ready _ _ => c
    | .posted => c
    | _ => { c with stage := .ready dw0 status }) s

/-- The lines of an uncommitted write become FREE (R135), its records that hold nothing are freed (R162), its data requests
end and the twin hears of its end (R246). -/
def dropWrite (c : Cmd) (s : State) : State :=
  let t := freeLines (fun l => l.st == .pending && l.sqid == c.sqid && l.cid == c.e.cid) s
  let t := t.onEp fun e => { e with
    quarantined := e.quarantined ++ (e.reqs.filter (fun q => match q.2 with
      | .writeData a b _ => a == c.sqid && b == c.e.cid
      | _ => false)).map (·.1),
    reqs := e.reqs.filter (fun q => match q.2 with
      | .writeData a b _ => !(a == c.sqid && b == c.e.cid)
      | _ => true) }
  let others := t.nvme.admitted.filter (fun x => x.uncommitted && x.seq != c.seq)
  let gens := (c.waits.map (fun w => w.2.2)).filter (fun g => !others.any (fun x => x.waits.any (fun w => w.2.2 == g)) &&
    ((t.recOf g).map (fun r => r.dirty == 0 && r.st == .opened)).getD false)
  let t := gens.foldl (fun u g => freeRec g u) t
  match t.array c.array with
  | some a =>
    if a.shared ∧ a.owner ∧ t.twin.up then
      slipQueue 0 (arrayKey a.body.uid) 0 c.seq (.ends [c.seq])
        (t.onTwin fun w => { w with queueLine := w.queueLine.filter (fun q => q.2.2.1 != c.seq) })
    else t
  | none => t

/-- A command ends with an error; an uncommitted write leaves no trace (R133, R135). -/
def cmdFail (sqid cid status : Nat) (s : State) : State :=
  match s.cmd sqid cid with
  | none => s
  | some c =>
    let t := onCmd sqid cid (fun c => { c with error := some status, todo := [], arrived := [], fetching := [], granted := [] }) s
    cmdReady sqid cid 0 status (if c.uncommitted then dropWrite c t else t)

/-- The initial reference tag of a command (R348, R349): 32 bits in CDW14, for LBAF 2 with 16 more in CDW3 (PRESUMED, as NVMe
lays them out). -/
def refTagOf (e : SqEntry) : Nat := e.cdw14 % 2 ^ 32 + e.cdw3 % 65536 * 2 ^ 32

/-- What a read or verify checks (R349): PRACT, PRCHK in CDW12, EILBRT, tags in CDW15. -/
def readCheck (c : Cmd) (i : Nat) : PiCheck where
  guard := bit c.e.cdw12 28
  app := bit c.e.cdw12 27
  ref := bit c.e.cdw12 26
  lbat := c.e.cdw15 % 65536
  lbatm := c.e.cdw15 / 65536
  expect := refTagOf c.e + i

/-- A sector of a read has its bytes: checked under R349, then waiting for its burst. A Verify moves nothing (R351). -/
def arriveSector (sqid cid i : Nat) (v : Volume) (data : Sector) (pi : Bytes) (s : State) : State :=
  match s.cmd sqid cid with
  | none => s
  | some c =>
    if ¬ c.todo.contains i ∨ c.arrived.any (fun x => x.1 == i) then s
    else match piCheck v data pi (readCheck c i) with
      | some st => cmdFail sqid cid st (s.onNcnt fun n => { n with piErrors := bump n.piErrors })
      | none =>
        if c.e.opc = 0x0C then
          let t := onCmd sqid cid (fun x => { x with todo := x.todo.filter (· != i), fetching := x.fetching.filter (· != i), landed := addOnce i x.landed }) s
          if c.todo = [i] then cmdReady sqid cid 0 0 t else t
        else onCmd sqid cid (fun x => { x with arrived := x.arrived ++ [(i, data, if bit c.e.cdw12 29 then [] else pi.take (piSize v.lbaf))],
                                               fetching := x.fetching.filter (· != i) }) s

/-- The same, for zeros in place of another owner's bytes or of an unwritten sector (R108). -/
def arriveZeros (sqid cid i : Nat) (v : Volume) (s : State) : State :=
  match s.cmd sqid cid with
  | none => s
  | some c =>
    let t := if piSize v.lbaf ≠ 0 then s.onNcnt fun n => { n with piRegenerated := bump n.piRegenerated } else s
    arriveSector sqid cid i v [] (regenPi v [] (readCheck c i).expect) t

end Sys2Proof.Machine
end

