-- ==== Sys2Proof/Machine/Engine.lean ====
section
/-! DEFINITION. Work on slices: what a piece reads, erasures (R53, R54), lost slices (R209), closes (R141 to R145), rebuild,
mending, scrub, replacement and copy-back of one stripe (R204 to R217), and migration of one sector (R222). -/
namespace Sys2Proof.Machine

/-! ### What a slice reads -/

def isClose (k : JobKind) : Bool := k == .fullClose || k == .partialClose || k == .repair || k == .resync
def isRebuild (k : JobKind) : Bool := k == .rebuild || k == .direct || k == .copyback

/-- The descriptor of a job. -/
def jobDesc (a : Arr) (j : Job) : Desc := a.descOf j.dg
/-- A role is a data role. -/
def isData (d : Desc) (q : Nat) : Bool := decide (q < d.k)

/-- Roles a reconstruction reads: the surviving data, and the lowest surviving parity rows, one for each erased data role
(R53); for a mirror, one copy (R71). An array without a journal source reads every surviving row (R186). -/
def needRoles (d : Desc) (n : Nat) (erased : List Nat) (all : Bool) : List Nat :=
  if isMirror d then (mirrorCopy d n erased).toList
  else
    let ed := erased.filter (isData d)
    let rows := ((List.range d.m).filter (fun j => !erased.contains (d.k + j))).take (if all then d.m else ed.length)
    (List.range d.k).filter (fun q => !erased.contains q) ++ rows.map (fun j => d.k + j)

/-- Erased data roles that a partial close must reconstruct first (R202). -/
def Slice.lacking (d : Desc) (x : Slice) : List Nat := x.erased.filter (fun q => isData d q && !x.changed.contains q)

/-- Roles that a slice of a job needs to have read. -/
def sliceNeeds (d : Desc) (j : Job) (x : Slice) : List Nat :=
  let live := (List.range (descW d)).filter (fun q => !x.erased.contains q)
  match j.kind with
  | .fullClose => []
  | .partialClose | .repair =>
    if isMirror d then []
    else if Slice.lacking d x ≠ [] then needRoles d j.stripe x.erased j.allRows
    else if x.delta then x.changed ++ (List.range d.m).map (fun i => d.k + i)
    else (List.range d.k).filter (fun q => !x.changed.contains q)
  | .scrub _ => live
  | .copyback => if x.erased = [] then j.fixed.map (·.1) else needRoles d j.stripe x.erased j.allRows
  | .hostRead | .migrate =>
    let q := j.intentGen
    if x.erased.contains q then needRoles d j.stripe x.erased j.allRows else [q]
  | _ => needRoles d j.stripe x.erased j.allRows

/-- Where a role of a job's stripe is read. A copy-back reads loc[s] (R217). -/
def State.rolePlace (s : State) (a : Arr) (d : Desc) (j : Job) (q : Nat) : Option Ns :=
  (s.readAt a d j.stripe q).bind (s.memberAt a)

/-- The LBA expected in the tag of role q, slice o (R104). -/
def roleLba (d : Desc) (n q o : Nat) : Nat := if isMirror d then lbaOf d n 0 o else lbaOf d n q o

/-! ### Lost extents (R103) -/

/-- New entries, held in MRAM until the update of the next boundary (R103). -/
def noteLost (aid : Nat) (lbas : List Nat) (cause : Nat) (s : State) : State :=
  onArray aid (fun a => { a with pendingLost := a.pendingLost ++ lbas.map (fun l => { lba := l, sectors := 1, cause := cause }) }) s

/-- Whether a sector lies in the lost extent list, the changes not yet persisted included. -/
def Arr.isLost (a : Arr) (lba : Nat) : Bool :=
  (addLost a.pendingLost a.body).lost.any (fun e => decide (e.lba ≤ lba) && decide (lba < e.lba + e.sectors))

/-- A slice with more erasures than its form tolerates takes its lost sectors as zero, as the parity was re-encoded with them
(R209): what remains erased has not been found before. -/
def Slice.zeroed (a : Arr) (d : Desc) (n : Nat) (x : Slice) : Slice :=
  if x.erased.length ≤ d.m then x
  else
    let zero (q : Nat) : Bool := (isData d q || isMirror d) && a.isLost (roleLba d n q x.o)
    { x with erased := x.erased.filter (fun q => !zero q),
             have_ := x.have_ ++ (x.erased.filter zero).map (fun q => { role := q, ok := true, lost := true }) }

/-- One read of a role for slice `k` of a job. -/
def issueRead (a : Arr) (d : Desc) (j : Job) (k : Nat) (o q : Nat) (s : State) : State :=
  match s.rolePlace a d j q with
  | some n => issue { ns := n.id, op := .read, lba := memberSector d n.dataStart j.stripe o, count := 1, job := j.id, slice := k, role := q,
                      cls := if isClose j.kind ∨ j.kind = .hostRead then 1 else 2 } s
  | none => onSlice j.id k (fun x => { x with erased := addOnce q x.erased, delta := false }) s

/-- A granted close writes slice `o` of a job's stripe, before it or with its Writes issued: the slice is partly old and partly
new, so a reconstruction of it waits (R145, R201; DEDUCED). -/
def State.closeAhead (s : State) (j : Job) (o : Nat) : Bool :=
  s.arr.jobs.any (fun x => isClose x.kind && x.array == j.array && x.stripe == j.stripe && x.dg == j.dg && x.stage != 9 &&
    (decide (x.id < j.id) && !s.dev.holding || x.stage != 0) && x.slices.any (fun y => y.o == o))

/-- A slice goes on: it reads what it lacks, or is ready for a kiln. Mirror slices of closes need none (R46). -/
def sliceGo (id k : Nat) (fuel : Nat) (s : State) : State :=
  match fuel with
  | 0 => s
  | fuel + 1 =>
    match s.job id with
    | none => s
    | some j => match s.array j.array with
      | none => s
      | some a =>
        let d := jobDesc a j
        let x := (nth j.slices k {}).zeroed a d j.stripe
        if s.sliceBusy id k ∨ ¬ (x.phase = .waiting ∨ x.phase = .reading) ∨
            ((j.kind = .hostRead ∨ j.kind = .migrate) ∧ x.erased ≠ [] ∧ s.closeAhead j x.o) then s
        else
          let missing := (sliceNeeds d j x).filter (fun q => !x.have_.any (fun r => r.role == q))
          let s := onSlice id k (fun _ => x) s
          if missing = [] then onSlice id k (fun x => { x with phase := if isMirror d ∧ isClose j.kind then .encoded else .ready }) s
          else
            let t := missing.foldl (fun u q => issueRead a d j k x.o q u) (onSlice id k (fun x => { x with phase := .reading }) s)
            if t.sliceBusy id k then t else sliceGo id k fuel t

/-! ### Mending (R207) -/

/-- A mending piece is queued for a sector, unless the queue of 4,096 is full. -/
def queueMend (aid dg n o q : Nat) (s : State) : State :=
  s.onArr fun a =>
    if a.mendQueue.contains (aid, dg, n, o, q) then a
    else if a.mendQueue.length < 4096 then { a with mendQueue := a.mendQueue ++ [(aid, dg, n, o, q)] }
    else { a with mendDropped := bump a.mendDropped }

/-! ### Lost slices (R209) -/

/-- A role's sector written LOST: zero data. -/
def lostSec (vol q gen flags : Nat) : RoleSec := { role := q, data := [], gen := gen, flags := fLOST + flags, volume := vol, ok := true, lost := true }

/-- The next WRITE_GEN of an array is taken (R110). -/
def tookGen (aid : Nat) (s : State) : State := onArray aid (fun a => { a with gen := a.gen + 1 }) s

/-- A close is granted or a repair runs on a stripe. -/
def State.closing (s : State) (aid n dg : Nat) : Bool :=
  s.arr.jobs.any (fun j => isClose j.kind && j.array == aid && j.stripe == n && j.dg == dg)

/-- Background pieces of a stripe. -/
def State.stripePieces (s : State) (aid n dg : Nat) : List Job :=
  s.arr.jobs.filter (fun j => (isRebuild j.kind || j.kind == .mend || j.kind == .scrub true || j.kind == .scrub false) &&
    j.array == aid && j.stripe == n && j.dg == dg)

/-- A close of a stripe discards its background pieces, to be planned again; those that write have been waited for (R67). -/
def dropPieces (aid n dg : Nat) (s : State) : State :=
  let pieces := s.stripePieces aid n dg
  let t := pieces.foldl (fun u j => endJob j.id u) s
  (pieces.filter (fun j => j.kind == .mend)).foldl (fun u j => j.fixed.foldl (fun v f => queueMend aid dg n ((j.slices.headD {}).o) f.1 v) u) t

/-- The fault, the log and the counts of a lost slice (R209; R354 reports those since manufacture). -/
def sliceLost (a : Arr) (lbas : List Nat) (s : State) : State :=
  let t := noteLost a.id lbas 1 (s.onArr fun x => { x with lostSlices := bump x.lostSlices, dataLost := true })
  let t := t.onPol fun p => { p with slicesLostEver := p.slicesLostEver + 1 }
  raise { source := 0x162 } (recordArray a.id 2 [lbas.headD 0] t)

/-- The repair of a lost slice as a close of its own: a REPAIR record, the erased data LOST, parity re-encoded (R209). -/
def startRepair (a : Arr) (d : Desc) (n : Nat) (x : Slice) (rebuild : Bool) (s : State) : State :=
  if s.closing a.id n d.gen || (s.stripePieces a.id n d.gen).any (fun j => j.stage != 0) then s
  else
    let ed := x.erased.filter (isData d)
    let lbas := ed.map (fun q => roleLba d n q x.o)
    let s := sliceLost a lbas (dropPieces a.id n d.gen s)
    let gen := s.vault.recCounter + (if s.twinSide = 1 then 2 ^ 63 else 0)
    let r : Rec := { key := arrayKey a.body.uid, stripe := n, intentGen := gen, descGen := d.gen, repair := true,
                     roleMask := total (ed.map (fun q => 2 ^ q)), closeGen := a.gen, st := .closing }
    let s := s.onVault fun v => { v with own := v.own ++ [r], recCounter := v.recCounter + 1 }
    let s := writeRec gen id s
    let fl := if rebuild then fRECONSTRUCTED else 0
    let vol := ownerOf a.body.extents (n * descDsec d)
    let outs := if isMirror d then (List.range (descW d)).map (fun q => lostSec vol q a.gen fl) else ed.map (fun q => lostSec vol q a.gen fl)
    let sl : Slice := { o := x.o, have_ := x.have_.filter (fun r => isData d r.role), outs := outs, changed := ed }
    let id := s.arr.nextJob
    let j : Job := { kind := .repair, array := a.id, stripe := n, dg := d.gen, gen := a.gen, intentGen := gen, slices := [sl], ringed := false,
                     fixed := (x.erased.filter (fun q => !isData d q)).map (fun q => (q, fMENDED)) }
    sliceGo id 0 8 (tookGen a.id (addJob j s))

/-- A read ends with Unrecovered Read Error. -/
def readLost (j : Job) (s : State) : State := endJob j.id (if j.mb = none then cmdFail j.sqid j.cid scUnrecovered s else s)

/-- A slice has more erasures than its form tolerates (R209). A close takes the repair into its own write; every other
piece ends, and a repair is started. -/
def sliceIsLost (a : Arr) (d : Desc) (j : Job) (k : Nat) (x : Slice) (s : State) : State :=
  match j.kind with
  | .partialClose =>
    let ed := Slice.lacking d x
    let vol := ownerOf a.body.extents (j.stripe * descDsec d)
    let t := if ed = [] then s else sliceLost a (ed.map (fun q => roleLba d j.stripe q x.o)) s
    let t := onSlice j.id k (fun y => { y with changed := y.changed ++ ed, outs := y.outs ++ ed.map (fun q => lostSec vol q j.gen 0),
                                               erased := [], delta := false, phase := .waiting }) t
    sliceGo j.id k 8 t
  | .repair =>
    let ed := Slice.lacking d x
    let vol := ownerOf a.body.extents (j.stripe * descDsec d)
    let t := noteLost a.id (ed.map (fun q => roleLba d j.stripe q x.o)) 1 s
    let t := onSlice j.id k (fun y => { y with changed := y.changed ++ ed, outs := y.outs ++ ed.map (fun q => lostSec vol q j.gen 0),
                                               erased := [], delta := false, phase := .waiting }) t
    sliceGo j.id k 8 t
  | .hostRead => startRepair a d j.stripe x false (readLost j s)
  | .fullClose => s
  | _ => startRepair a d j.stripe x (isRebuild j.kind) (endJob j.id s)

/-- A slice with every read of its set ended goes on, or is lost. -/
def sliceNext (a : Arr) (d : Desc) (j : Job) (k : Nat) (s : State) : State :=
  let t := onSlice j.id k (fun x => x.zeroed a d j.stripe) s
  let x := nth ((t.job j.id).getD {}).slices k {}
  if d.m < x.erased.length then sliceIsLost a d j k x t else sliceGo j.id k 8 t

/-- A role of a slice has turned out to be an erasure (R54): the piece restarts with the larger set. -/
def sliceErased (id k q : Nat) (s : State) : State :=
  let t := onSlice id k (fun x => { x with erased := addOnce q x.erased, have_ := x.have_.filter (fun r => r.role != q), delta := false }) s
  match t.job id with
  | none => t
  | some j => match t.array j.array with
    | none => t
    | some a =>
      if (nth j.slices k {}).erased.length ≤ (jobDesc a j).m then sliceGo id k 8 t
      else if t.sliceBusy id k then t
      else sliceNext a (jobDesc a j) j k t

/-! ### Sectors that reads return -/

/-- A role's sector goes to the host read it serves (R108, R146, R201, R349). -/
def deliverRead (a : Arr) (j : Job) (r : RoleSec) (rebuilt : Bool) (s : State) : State :=
  match s.cmd j.sqid j.cid with
  | none => endJob j.id s
  | some c =>
    match a.volume c.volume with
    | none => endJob j.id (cmdFail j.sqid j.cid scInvalidNs s)
    | some v =>
      let t := endJob j.id s
      if ¬ c.fetching.contains j.sector then t
      else if rebuilt ∧ r.lost then cmdFail j.sqid j.cid scUnrecovered t
      else if rebuilt then
        let t := if piSize v.lbaf ≠ 0 then t.onNcnt fun n => { n with piRegenerated := bump n.piRegenerated } else t
        arriveSector j.sqid j.cid j.sector v r.data (regenPi v r.data (readCheck c j.sector).expect) t
      else if r.unwritten ∨ r.volume ≠ c.volume then arriveZeros j.sqid j.cid j.sector v t
      else if bit r.flags 1 ∨ bit r.flags 2 then
        let t := if piSize v.lbaf ≠ 0 then t.onNcnt fun n => { n with piRegenerated := bump n.piRegenerated } else t
        arriveSector j.sqid j.cid j.sector v r.data (regenPi v r.data (readCheck c j.sector).expect) t
      else arriveSector j.sqid j.cid j.sector v r.data r.pi t

/-- A sector of a migrating round enters the saggar as a DIRTY line under DESC_NEXT (R222). -/
def stageSector (a : Arr) (j : Job) (r : RoleSec) (s : State) : State :=
  match a.body.descNext with
  | none => endJob j.id s
  | some d2 =>
    let n := stripeOf d2 j.sector
    let q := roleOf d2 j.sector
    let key := arrayKey a.body.uid
    let t := openRecord key n d2.gen (2 ^ (if isMirror d2 then 0 else q)) (endJob j.id s)
    let gen := ((t.openRec key n d2.gen).map (·.intentGen)).getD 0
    let t := addLine ((q + sliceOf d2 j.sector + n) % max t.chanCount 1)
      { st := .dirty, array := a.id, lba := j.sector, volume := r.volume, pi := r.pi, data := r.data, written := true, intentGen := gen } t
    openGather a.id n d2.gen (writeRec gen (fun x => { x with dirty := x.dirty + 1 }) t)

/-! ### A member Read of a slice has ended -/

/-- A role's sector has arrived and been judged (R54, R107, R207). -/
def roleRead (j : Job) (c : MCmd) (st : MStatus) (data : List RawSector) (s : State) : State :=
  match s.array j.array with
  | none => s
  | some a =>
    let d := jobDesc a j
    let x := nth j.slices c.slice {}
    let r := roleSec (data.headD {}) c.role (roleLba d j.stripe c.role x.o) (arrayKey a.body.uid)
    if st = .ok ∧ r.ok then
      let t := onSlice j.id c.slice (fun x => { x with have_ := x.have_ ++ [r] }) s
      if (j.kind = .hostRead ∨ j.kind = .migrate) ∧ c.role = j.intentGen ∧ ¬ x.erased.contains c.role then
        (if j.kind = .hostRead then deliverRead a j r false t else stageSector a j r t)
      else if t.sliceBusy j.id c.slice then t
      else sliceNext a d j c.slice t
    else
      let t := if st = .ok ∧ r.lost then s else if st = .aborted then s else queueMend a.id j.dg j.stripe x.o c.role s
      if st = .ok ∧ r.lost ∧ j.kind = .hostRead ∧ c.role = j.intentGen then readLost j t
      else sliceErased j.id c.slice c.role t

/-! ### Kiln pieces -/

/-- Kiln charge of a piece of width `w` (R34, R55, R213). -/
def kilnCharge (d : Desc) (j : Job) (x : Slice) (w : Nat) : Nat :=
  if Slice.lacking d x ≠ [] ∨ ¬ isClose j.kind ∧ j.kind ≠ .scrub true ∧ j.kind ≠ .scrub false then
    2 * (sliceNeeds d j x).length * w
  else match j.kind with
    | .scrub _ => d.k * w + d.m * w
    | _ => if x.delta then (2 * x.changed.length + d.m) * w else d.k * w

/-- Outputs of a piece (R57). -/
def kilnOutputs (d : Desc) (j : Job) (x : Slice) : Nat :=
  if isClose j.kind then (if Slice.lacking d x ≠ [] then (Slice.lacking d x).length else d.m)
  else match j.kind with | .scrub _ => d.m | _ => max 1 x.erased.length

/-- The bytes of a role among what a slice has read. -/
def Slice.bytes (x : Slice) (q : Nat) : Bytes := ((x.have_.find? (fun r => r.role == q)).map (·.data)).getD []
/-- New data of a role: from the lines of the close, else as read. -/
def Slice.newBytes (x : Slice) (q : Nat) : Bytes :=
  match x.outs.find? (fun r => r.role == q) with | some r => r.data | none => x.bytes q

/-- The generation a reconstructed sector takes (R110). -/
def Slice.gen (d : Desc) (x : Slice) : Nat :=
  match x.have_.find? (fun r => !isData d r.role) with
  | some p => p.gen
  | none => (x.have_.map (·.gen)).foldl max 0

/-- Erased roles of a slice by R53, as sectors, and those taken as zero. -/
def rebuilt (d : Desc) (x : Slice) : List (Nat × Bytes) :=
  (if isMirror d then x.erased.map (fun q => (q, ((x.have_.headD {}).data)))
   else (reconstruct d.form d.k d.m (x.have_.map (fun r => (r.role, r.data))) x.erased).getD []) ++
  (x.have_.filter (·.lost)).map (fun r => (r.role, []))

/-- Surviving parity of equal WRITE_GEN that no surviving data exceeds (R186). -/
def genOk (d : Desc) (x : Slice) : Bool :=
  let par := x.have_.filter (fun r => !isData d r.role)
  let g := (par.headD {}).gen
  par.all (fun r => r.gen == g) && (x.have_.filter (fun r => isData d r.role)).all (fun r => decide (r.gen ≤ g)) || isMirror d

/-- A reconstructed sector as it is written (R104, R201, R205, R210). -/
def rebuiltSec (a : Arr) (d : Desc) (n : Nat) (x : Slice) (flags : Nat) (p : Nat × Bytes) : RoleSec :=
  let data := isData d p.1 || isMirror d
  let lba := roleLba d n p.1 x.o
  let vol := if data then ownerOf a.body.extents lba else 0
  let lost := data && (a.isLost lba || (a.body.lostOverflow && p.2 == []) || (a.forcedNoJournal && !genOk d x))
  let pi := match a.volume vol with
    | some v => if data ∧ piSize v.lbaf ≠ 0 then regenPi v p.2 (arrayToVolume a.body.extents lba) else []
    | none => []
  { role := p.1, data := if lost then [] else p.2, gen := x.gen d, volume := vol, pi := pi, ok := true, lost := lost,
    flags := flags + (if data then 0 else fPARITY) + (if lost then fLOST else 0) }

/-- Parity of a close's slice (R50, R55, R142). -/
def closeParity (d : Desc) (j : Job) (x : Slice) : List RoleSec :=
  let fl := fPARITY + (if j.kind = .partialClose then fRMW else 0)
  (List.range d.m).map fun i =>
    let extra := ((j.fixed.find? (fun f => f.1 == d.k + i)).map (·.2)).getD 0
    let bytes := if x.delta then deltaParity d.form i (x.bytes (d.k + i)) (x.changed.map (fun q => (q, x.bytes q, x.newBytes q)))
      else parityOf d.form i ((List.range d.k).map (fun q => (q, x.newBytes q)))
    { role := d.k + i, data := bytes, gen := j.gen, flags := fl + extra, ok := true }

/-- What a scrub finds in a slice whose sectors have all passed (R213, R214): 0 nothing, 1 stale generations, 2 parity
that differs. -/
def scrubFinding (d : Desc) (x : Slice) : Nat :=
  let data := x.have_.filter (fun r => isData d r.role)
  let par := x.have_.filter (fun r => !isData d r.role)
  if isMirror d then
    (if data.any (fun r => r.gen != (data.headD {}).gen) then 1 else if data.any (fun r => r.data != (data.headD {}).data) then 2 else 0)
  else
    let g := (par.headD {}).gen
    if par.any (fun r => r.gen != g) ∨ data.any (fun r => g < r.gen) then 1
    else if (List.range d.m).any (fun i => x.bytes (d.k + i) != parityOf d.form i (data.map (fun r => (r.role, r.data)))) then 2 else 0

/-- Parity rewritten from data with the next WRITE_GEN, as a close that changes no data (R214). -/
def scrubRepair (a : Arr) (d : Desc) (n : Nat) (x : Slice) (s : State) : State :=
  if s.closing a.id n d.gen then s
  else
    let gen := s.vault.recCounter + (if s.twinSide = 1 then 2 ^ 63 else 0)
    let r : Rec := { key := arrayKey a.body.uid, stripe := n, intentGen := gen, descGen := d.gen, repair := true, closeGen := a.gen, st := .closing }
    let s := writeRec gen id (s.onVault fun v => { v with own := v.own ++ [r], recCounter := v.recCounter + 1 })
    let outs := if isMirror d then (List.range (descW d)).map (fun q => { (x.have_.headD {}) with role := q, gen := a.gen, flags := 0 }) else []
    let sl : Slice := { o := x.o, have_ := x.have_.filter (fun r => isData d r.role), outs := outs }
    let id := s.arr.nextJob
    sliceGo id 0 8 (tookGen a.id (addJob { kind := .repair, array := a.id, stripe := n, dg := d.gen, gen := a.gen, intentGen := gen,
                                            slices := [sl], ringed := false } s))

/-- A slice of a scrub is done (R213, R214). -/
def scrubDone (a : Arr) (d : Desc) (j : Job) (k : Nat) (fix : Bool) (x : Slice) (s : State) : State :=
  let t := onSlice j.id k (fun y => { y with phase := .done }) (s.onArr fun b => { b with scrubSlices := bump b.scrubSlices })
  match scrubFinding d x with
  | 0 => t
  | f =>
    let t := raise { source := if f = 1 then 0x164 else 0x165 } (t.onArr fun b => { b with parityFixes := bump b.parityFixes })
    if fix then scrubRepair a d j.stripe x t else t

/-- What the last piece of a slice yields (R57). -/
def pieceOutputs (a : Arr) (d : Desc) (j : Job) (k : Nat) (x : Slice) (s : State) : State :=
  match j.kind with
  | .fullClose | .partialClose | .repair =>
    if Slice.lacking d x ≠ [] then
      let got := (rebuilt d x).filter (fun p => (Slice.lacking d x).contains p.1)
      let secs := got.map (rebuiltSec a d j.stripe x 0)
      sliceGo j.id k 8 (onSlice j.id k (fun y => { y with have_ := y.have_ ++ secs, erased := [], phase := .waiting, pos := 0 }) s)
    else onSlice j.id k (fun y => { y with outs := y.outs ++ closeParity d j x, phase := .encoded }) s
  | .hostRead =>
    match (rebuilt d x).find? (fun p => p.1 == j.intentGen) with
    | some p => deliverRead a j (rebuiltSec a d j.stripe x 0 p) true s
    | none => readLost j s
  | .migrate =>
    match (rebuilt d x).find? (fun p => p.1 == j.intentGen) with
    | some p => stageSector a j (rebuiltSec a d j.stripe x 0 p) s
    | none => endJob j.id s
  | .scrub fix => scrubDone a d j k fix x s
  | .mend =>
    let secs := (rebuilt d x).filter (fun p => j.fixed.any (fun f => f.1 == p.1))
    onSlice j.id k (fun y => { y with outs := secs.map (rebuiltSec a d j.stripe x fMENDED), phase := .encoded }) s
  | _ =>
    let secs := (rebuilt d x).filter (fun p => j.fixed.any (fun f => f.1 == p.1))
    onSlice j.id k (fun y => { y with outs := secs.map (rebuiltSec a d j.stripe x fRECONSTRUCTED), phase := .encoded }) s

/-- KILN_PIECE_COMPLETE: both engines have consumed the piece's last source byte (R57). -/
def pieceComplete (id k : Nat) (s : State) : State :=
  match s.job id with
  | none => s
  | some j => match s.array j.array, (nth j.slices k {}).phase with
    | some a, .granted =>
      let x := nth j.slices k {}
      if x.pos + x.width < 4096 then onSlice id k (fun y => { y with pos := y.pos + y.width, phase := .ready }) s
      else pieceOutputs a (jobDesc a j) j k { x with pos := 4096 } (onSlice id k (fun y => { y with pos := 4096 }) s)
    | _, _ => s
def execKilnPieceComplete (job slice : Nat) (s : State) : Out := done s (pieceComplete job slice s)

/-- A burst has moved a slice's outputs to the port buffers (R57, R141). -/
def jobBurst (id k : Nat) (s : State) : State :=
  match s.job id with
  | none => s
  | some j => match s.array j.array with
    | none => s
    | some a =>
      let x := nth j.slices k {}
      if x.phase = .encoded ∧ x.burst then
        let used := kilnOutputs (jobDesc a j) j x * 2048
        (onSlice id k (fun y => { y with phase := .writing, burst := false }) s).onArr
          fun b => { b with kilnBufUsed := nthMod b.kilnBufUsed x.kiln (fun u => u - used) }
      else s

/-! ### Member Writes of a job -/

/-- A sector as it goes to a member. -/
def rawOf (a : Arr) (d : Desc) (n o : Nat) (r : RoleSec) : RawSector :=
  { data := r.data, tag := tagOf r.data r.volume r.role r.flags (roleLba d n r.role o) r.gen (arrayKey a.body.uid) r.pi }

/-- Where a role's outputs go: a close's targets under R99 and R101, or the target the job fixed. -/
def State.writeTargets (s : State) (a : Arr) (d : Desc) (j : Job) (q : Nat) : List Ns :=
  let ps := if isClose j.kind then a.writeAt d j.stripe q else (j.fixed.filter (fun f => f.1 == q)).map (·.2)
  ps.filterMap (s.memberAt a)

/-- The Writes of one role: whole strips as one range, single sectors otherwise (R141, R142, R205). -/
def writeRole (a : Arr) (d : Desc) (j : Job) (q step : Nat) (s : State) : State :=
  let secs := (List.range j.slices.length).filterMap (fun k =>
    let x := nth j.slices k {}
    (x.outs.find? (fun r => r.role == q)).map (fun r => (k, x.o, rawOf a d j.stripe x.o r)))
  let whole := j.slices.length == descSsec d && secs.length == descSsec d
  (s.writeTargets a d j q).foldl (fun t n =>
    let c : MCmd := { ns := n.id, op := if step = 3 then .read else .write, job := j.id, role := q, step := step, cls := if isClose j.kind then 1 else 2 }
    if whole then issue { c with lba := memberSector d n.dataStart j.stripe 0, count := secs.length, data := secs.map (·.2.2) } t
    else secs.foldl (fun u x => issue { c with lba := memberSector d n.dataStart j.stripe x.2.1, count := 1, slice := x.1, data := [x.2.2] } u) t) s

/-- Roles that a job writes. -/
def Job.roles (j : Job) : List Nat := (j.slices.flatMap (fun x => x.outs.map (·.role))).foldl (fun l q => addOnce q l) []

/-- An older read of the stripe, or a reconstruction of it, is still outstanding (R145). -/
def State.olderRead (s : State) (j : Job) : Bool :=
  s.arr.jobs.any (fun x => x.kind == .hostRead && (x.id < j.id || x.slices.any (fun y => y.erased != [])) && x.array == j.array && x.stripe == j.stripe && x.dg == j.dg && (s.jobCmds x.id) != [])

/-- A job whose slices have all been delivered issues its Writes, once its CLOSING record is in a written ring sector (R167)
and no older read waits (R145). While the device holds, none is issued (R172). -/
def issueWrites (id : Nat) (s : State) : State :=
  match s.job id with
  | none => s
  | some j => match s.array j.array with
    | none => s
    | some a =>
      let wants := isClose j.kind || isRebuild j.kind || j.kind == .mend
      if ¬ wants ∨ j.stage ≠ 0 ∨ ¬ j.ringed ∨ j.slices.any (fun x => x.phase != .writing) ∨ s.dev.holding ∨ s.vault.frozen ∨
          (isClose j.kind ∧ s.olderRead j) then s
      else
        let t := onJob id (fun x => { x with stage := 1, slices := x.slices.map (fun y => { y with phase := .verify }) }) s
        j.roles.foldl (fun u q => writeRole a (jobDesc a j) j q 0 u) t

/-! ### The end of a close (R143) -/

/-- A host command waits for one close fewer; with none left, a committed command is complete (R147, R151). -/
def closeAwaited (gen : Nat) (s : State) : State :=
  s.onNvme fun n => { n with admitted := n.admitted.map (fun c =>
    let w := c.waits.filter (fun x => x.2.2 != gen)
    if c.waits.any (fun x => x.2.2 == gen) then
      { c with waits := w, stage := if w = [] ∧ c.stage = .committed then .ready 0 0 else c.stage }
    else c) }

/-- The close is acknowledged: its record retires, its lines become CLEAN, or FREE under a newer version (R143). -/
def ackClose (j : Job) (s : State) : State :=
  let t := retireRec j.intentGen (endJob j.id s)
  let newer (l : Line) : Bool := t.sag.lines.any (fun x => x.array == l.array && x.lba == l.lba && x.st == .dirty && decide (l.seq < x.seq))
  let mine (l : Line) : Bool := l.st == .closing && l.array == j.array && l.intentGen == j.intentGen
  let t := freeLines (fun l => mine l && newer l) t
  let t := onLines mine (fun l => { l with st := .clean, stamp := t.sag.nextStamp, pair := false }) t
  let t := t.onSag fun g => { g with nextStamp := g.nextStamp + 1,
                                     closesFull := if j.kind = .fullClose then bump g.closesFull else g.closesFull,
                                     closesPartial := if j.kind = .partialClose then bump g.closesPartial else g.closesPartial }
  closeAwaited j.intentGen t

/-- Every Write of a close has ended. While the journal is frozen the record stays CLOSING (R172); a member whose failure is not
persisted yet holds the acknowledgement. -/
def closeWritten (j : Job) (s : State) : State :=
  if s.vault.frozen ∨ s.arr.ns.any (fun n => n.declare != none || n.failing != none) then onJob j.id (fun x => { x with stage := 9 }) s
  else ackClose j s

/-! ### The end of a rebuild, a mend, a copy -/

/-- Progress of an entry in this turn (R66, R205). -/
def setExact (aid seq dn hm : Nat) (s : State) : State :=
  onArray aid (fun a => { a with exactNext := a.exactNext.filter (fun x => x.1 != seq) ++ [(seq, dn, hm)] }) s

/-- The exact progress of an entry, what was committed this turn included. -/
def Arr.progress (a : Arr) (e : Reloc) : Nat × Nat :=
  match a.exactNext.find? (fun x => x.1 == e.seq), a.exact.find? (fun x => x.1 == e.seq) with
  | some (_, x, y), _ => (x, y)
  | _, some (_, x, y) => (x, y)
  | _, _ => (e.doneRound, e.homeRound)

/-- A later entry in REBUILDING of the same descriptor gains a round done ahead of its own sweep (R204). -/
def earlyRound (e : Reloc) (r : Nat) (a : Arr) : Arr :=
  let others := a.body.relocs.filter (fun f => f.state == 1 && f.descGen == e.descGen && e.seq < f.seq)
  others.foldl (fun b f => match b.early.find? (fun x => x.1 == f.seq) with
    | some (_, u, v) => if v = r then { b with early := b.early.filter (fun x => x.1 != f.seq) ++ [(f.seq, u, r + 1)] } else b
    | none => { b with early := b.early ++ [(f.seq, r + 1, r + 1)] }) a

/-- The round that an entry has done, moved over rounds done early. -/
def skipEarly (a : Arr) (seq r : Nat) : Nat :=
  match a.early.find? (fun x => x.1 == seq) with
  | some (_, u, v) => if u ≤ r ∧ r < v then v else r
  | none => r

/-- An entry has done round `r`: its DONE_ROUND advances, and at ROUND_END it becomes REBUILT in a mark update (R205). -/
def roundDone (aid : Nat) (e : Reloc) (r : Nat) (s : State) : State :=
  match s.array aid with
  | none => s
  | some a =>
    let nx := skipEarly a e.seq (r + 1)
    let t := onArray aid (fun x => { (earlyRound e r x) with sweep := 0 }) (setExact aid e.seq nx (a.progress e).2 s)
    if e.stop ≤ nx then
      startMark aid (fun b => { b with relocs := mapIf b.relocs (fun f => f.seq == e.seq) (fun f => { f with state := 2, doneRound := e.stop }) }) [] t
    else t

/-- The lowest entry in REBUILDING (R204). -/
def Arr.sweepEntry (a : Arr) : Option Reloc := a.body.relocs.find? (fun e => e.state == 1 && (a.progress e).1 < e.stop)

/-- A rebuilt strip has passed its read-back: it commits (R66, R205, R217). -/
def rebuildDone (j : Job) (s : State) : State :=
  match s.array j.array with
  | none => endJob j.id s
  | some a =>
    let d := jobDesc a j
    let n := total (j.slices.map (fun x => x.outs.length))
    let t := (endJob j.id s).onArr fun b => { b with rebuilt := sat32 (b.rebuilt + n), rateDebt := b.rateDebt + n * 4096 }
    match j.kind with
    | .rebuild =>
      match a.sweepEntry with
      | some e => if indexOf d j.stripe + 1 < descS d then onArray a.id (fun x => { x with sweep := indexOf d j.stripe + 1 }) t
                  else roundDone a.id e (roundOf d j.stripe) t
      | none => t
    | .direct =>
      let p := (j.fixed.headD (0, 0)).2
      onArray a.id (fun x => { x with directRound := insert p (roundOf d j.stripe + 1) x.directRound }) t
    | _ => match a.body.relocs.find? (fun e => e.seq == j.sector) with
      | some e => setExact a.id e.seq (a.progress e).1 (roundOf d j.stripe + 1) t
      | none => t

/-- A mended sector passed its read-back (R207, R208). -/
def mendDone (j : Job) (s : State) : State :=
  let t := (endJob j.id s).onArr fun b => { b with mendedCount := bump b.mendedCount }
  match s.array j.array with
  | none => t
  | some a =>
    (j.fixed.filterMap (fun f => s.memberAt a f.2)).foldl (fun u n =>
      let keep := (n.mended ++ [s.hw.opMinutes]).filter (fun m => s.hw.opMinutes < m + 1440)
      let worn := decide (s.pol.mendLimit < keep.length)
      let u := onNs n.id (fun x => { x with mended := keep, wearRaised := worn }) u
      if worn ∧ ¬ n.wearRaised then raise { source := 0x163, loc := some (locPort n.loc.port) } u else u) t

/-- Read-backs equal what was written, under R107 (a LOST sector matches as written). -/
def backOk (c : MCmd) (st : MStatus) (data : List RawSector) : Bool :=
  st == .ok && decide ((data.map (fun x => (trimZeros x.data, x.tag))) = (c.data.map (fun x => (trimZeros x.data, x.tag))))

/-- A rebuild, mend or copy has written: its sectors are read back (R66, R207); then it is done. -/
def writtenStep (j : Job) (s : State) : State :=
  match s.array j.array with
  | none => endJob j.id s
  | some a =>
    if j.stage = 1 then j.roles.foldl (fun u q => writeRole a (jobDesc a j) j q 3 u) (onJob j.id (fun x => { x with stage := 2 }) s)
    else if j.kind = .mend then mendDone j s else rebuildDone j s

/-- A job's last command of a step has ended. -/
def jobStep (id : Nat) (s : State) : State :=
  match s.job id with
  | none => s
  | some j =>
    if (s.jobCmds id) ≠ [] ∨ j.stage = 0 then s
    else if j.failed then (if isClose j.kind then closeWritten j s else endJob id s)
    else if isClose j.kind then closeWritten j s else writtenStep j s

/-- A Write as it was first issued: a tag update goes back to its data. -/
def MCmd.original (c : MCmd) : MCmd :=
  if c.step = 2 then { c with step := 0, op := .write, lba := c.tagLba, count := c.keep.length, data := c.keep }
  else { c with step := 0, op := .write }

/-- A Write of a job, or the read-back of one, ended badly: once more, then the member fails with cause 5; a mend is tried
once (R66, R194, R207). The job's `succeeded` names the roles tried twice. -/
def writeFailed (j : Job) (c : MCmd) (s : State) : State :=
  let again := if isClose j.kind then c.retried else j.succeeded.contains c.role
  if again ∨ j.kind = .mend then jobStep j.id (onJob j.id (fun x => { x with failed := !isClose x.kind }) (declareFailed c.ns 5 s))
  else addCmd { c.original with retried := true } (onJob j.id (fun x => { x with stage := 1, succeeded := addOnce c.role x.succeeded }) s)

/-- A Write or a read-back of a slice job has ended. -/
def jobWrite (j : Job) (c : MCmd) (st : MStatus) (data : List RawSector) (s : State) : State :=
  if c.step = 3 then
    (if backOk c st data then jobStep j.id s else writeFailed j c s)
  else if st = .ok then jobStep j.id s
  else if st = .aborted then addCmd { c with sent := false } s
  else writeFailed j c s

/-! ### Tag sectors of 4096+0 members (R112) -/

/-- Tag sectors that the tags of a data range lie in: first and count. -/
def tagRange (n : Ns) (lba count : Nat) : Nat × Nat :=
  let i := lba - n.dataStart
  ((tagPlace n i).1, (i + count - 1) / 64 - i / 64 + 1)

/-- A data Write of a 4096+0 member needs its tag sectors written after it. -/
def State.needsTags (s : State) (c : MCmd) : Bool :=
  c.op == .write && c.step == 0 && match s.ns c.ns with
    | some n => n.ident.fmt == 1 && decide (n.dataStart ≤ c.lba) && decide (c.lba < n.dataStart + n.dataSectors)
    | none => false

/-- The tag sectors are read, then written with the new tags (R112). `data` keeps the sectors whose tags go in. -/
def tagRead (c : MCmd) (s : State) : State :=
  match s.ns c.ns with
  | none => s
  | some n =>
    let (l, k) := tagRange n c.lba c.count
    addCmd { c with op := .read, lba := l, count := k, step := 1, tagLba := c.lba } s

/-- New tags laid over the bytes of the tag sectors read. -/
def spliceTags (n : Ns) (c : MCmd) (old : List RawSector) : List RawSector :=
  let flat := (old.map (fun x => padTo 4096 x.data)).flatten
  let i := c.tagLba - n.dataStart
  let off := i % 64 * 64
  plainSectors c.count (putBytes flat off ((c.data.map (fun x => padTo 64 x.tag)).flatten))

/-- The step of a tag update that has ended goes to the next, or to the Write's own end. -/
def tagStep (c : MCmd) (data : List RawSector) (s : State) : Option State :=
  match s.ns c.ns with
  | none => none
  | some n =>
    if s.needsTags c then some (tagRead c s)
    else if c.step = 1 then some (addCmd { c with op := .write, step := 2, data := spliceTags n c data, keep := c.data } s)
    else none

end Sys2Proof.Machine
end

