-- ==== Sys2Proof/Machine/Vault.lean ====
section
/-! DEFINITION. The saggar's registers and commands (R157 to R160), ECC errors (R126 to R128), PFAIL# (R171), the dump, hold and
resume (R172 to R177), and the vault's registers and commands (R187 to R191). -/
namespace Sys2Proof.Machine

/-! ### Saggar (R126 to R128, R139, R157 to R160) -/

/-- G of R139. -/
def gatherTurnsOf (age ns : Nat) : Nat := cdiv (age * 100000) ns

/-- Volumes that run write-through, with their causes, by VOLUME_ID (R151, R159). -/
def State.wtVolumes (s : State) : List (Nat × Nat) :=
  (s.arr.arrays.flatMap (fun a => if a.service = 1 then [] else
    (a.body.volumes.filter (fun v => v.state == 1 && s.writeThrough a v)).map (fun v => (v.id, s.causes a v)))).mergeSort (fun x y => x.1 ≤ y.1)

/-- The saggar controller block (R157). -/
def sagReg (off : Nat) (s : State) : Option Nat :=
  let g := s.sag
  match off with
  | 0x000 => some (flag s.vault.armed 0 + flag g.causeEcc 1 + flag g.highWaterActive 2 + flag g.budgetHeld 3 + flag g.journalHeld 4)
  | 0x004 => some (g.chanOut.toNat + g.ueSeen.toNat * 256)
  | 0x008 => some (u32 g.poolLines)
  | 0x00C => some (u32 s.dirtyLines)
  | 0x010 => some (u32 s.budgetLines)
  | 0x014 => some g.gatherTurns
  | 0x018 => some g.highWater
  | 0x01C => some g.openStripes.length
  | 0x020 => some g.closesFull
  | 0x024 => some g.closesPartial
  | 0x028 => some g.hitSectors
  | 0x02C => some g.missSectors
  | 0x030 => some g.eccCorrected
  | 0x034 => some s.wtVolumes.length
  | 0x038 => some g.heldTurns
  | _ => none

/-- The RC registers of the saggar cleared by a read. -/
def sagClear (off : Nat) (s : State) : State :=
  s.onSag fun g => match off with
    | 0x020 => { g with closesFull := 0 }
    | 0x024 => { g with closesPartial := 0 }
    | 0x028 => { g with hitSectors := 0 }
    | 0x02C => { g with missSectors := 0 }
    | 0x030 => { g with eccCorrected := 0 }
    | 0x038 => { g with heldTurns := 0 }
    | _ => g

/-- A line that needs two copies (R127). -/
def Line.paired (l : Line) : Bool := l.st == .pending || l.st == .dirty || l.st == .closing

/-- A copy of line `n` is uncorrectable: the other copy serves and the line is to be rewritten; with none left, a CLEAN line is
freed, and the sector of a DIRTY or CLOSING line is lost (R127, R128). -/
def badCopy (n : Nat) (pairedCopy : Bool) (s : State) : State :=
  match s.lineAt n with
  | none => s
  | some l =>
    let l' := if pairedCopy then { l with pair := false } else { l with prim := false }
    let t := onLines (fun x => x.no == n) (fun _ => l') s
    if l.st = .clean ∧ ¬ l'.prim then freeLines (fun x => x.no == n) t
    else if l.paired ∧ l'.pair ∧ ¬ l'.prim then t.onSag fun g => { g with rewrites := addOnce n g.rewrites }
    else if (l.st = .dirty ∨ l.st = .closing) ∧ ¬ l'.prim ∧ ¬ l'.pair ∧ (l.prim ∨ l.pair) then
      raise { source := 0x130, loc := some (locEngine 0 8 (s.primChan n)) }
        (noteLost l.array [l.lba] 1 (onLines (fun x => x.no == n) (fun x => { x with data := [] }) t))
    else t

/-- DDR_ECC_ERROR (R126 to R128). -/
def ddrError (c n : Nat) (pairedCopy correctable : Bool) (s : State) : State :=
  if correctable then
    raise { source := 0x120 + c, loc := some (locEngine 0 8 c) } (s.onSag fun g => { g with eccCorrected := bump g.eccCorrected })
  else
    badCopy n pairedCopy (raise { source := 0x128 + c, loc := some (locEngine 0 8 c) }
      (s.onSag fun g => { g with ueSeen := g.ueSeen ||| BitVec.ofNat 8 (2 ^ c) }))
def execDdrEccError (channel line : Nat) (pairedCopy correctable : Bool) (s : State) : Out :=
  done s (if s.ddrPresent channel then ddrError channel line pairedCopy correctable s else s)

/-- GATHER_AGE_EXPIRED: the stripe's close becomes ready (R139, R140). -/
def execGatherAgeExpired (array stripe : Nat) (s : State) : Out :=
  done s ((s.sag.openStripes.filter (fun o => o.array == array && o.stripe == stripe && decide (o.start + s.sag.gatherTurns ≤ s.hw.turn))).foldl
    (fun t o => readyClose array stripe o.dg t) s)

/-- SAGGAR_GET_STATUS (R159). -/
def sagStatusAct (mb : Nat) (_ : Mailbox) (s : State) : State :=
  mciOk mb (((List.range 15).map (fun i => leBytes 4 ((sagReg (4 * i) s).getD 0))).flatten)
    ((s.wtVolumes.map (fun v => leBytes 4 v.1 ++ leBytes 4 v.2)).flatten) s
/-- Fields, objects and refusals of the command (steps 5 to 7 of R366). -/
def saggarGetStatusPlan (_s : State) (m : Mailbox) : Plan :=
  { p := m.parse }
def execSaggarGetStatus (mb : Nat) (s : State) : Out :=
  done s (mciRun mb 0x0C01 s (saggarGetStatusPlan s) (sagStatusAct mb))

/-- The cap of R149 in lines: what R179 gives, else 40 % of the line pool. -/
def State.dirtyCap (s : State) : Nat := match s.capLines with | some c => c | none => s.sag.poolLines * 40 / 100
/-- GATHER_AGE, HIGH_WATER and DIRTY_BUDGET of SAGGAR_SET_POLICY (R160). -/
def sagPolicyFields (s : State) (m : Mailbox) : Nat × Nat × Option Nat × Parse :=
  let (a, p) := m.parse.num 1 0 2 { lo := 1, hi := 10000, dflt := 20 }
  let (h, p) := p.num 2 2 1 { lo := 50, hi := 99, dflt := 90 }
  let (d, p) := p.num 3 8 8 { lo := 4096, hi := s.dirtyCap * 4096, dflt := 0, round := 1, gran := 4096 }
  (a, h, if d = 0 then none else some d, p)
/-- SAGGAR_SET_POLICY: stored, in force at the next boundary (R160). -/
def sagPolicyAct (mb : Nat) (m : Mailbox) (s : State) : State :=
  let (a, h, d, _) := sagPolicyFields s m
  mciOk mb [] [] (recordConfig 0x0C02 (leBytes 2 a ++ leBytes 1 h ++ leBytes 5 0 ++ leBytes 8 (d.getD (s.dirtyCap * 4096)))
    (s.onSag fun g => { g with gatherAge := a, highWaterNext := h, dirtyBudgetNext := d }))
/-- Fields, objects and refusals of the command (steps 5 to 7 of R366). -/
def saggarSetPolicyPlan (s : State) (m : Mailbox) : Plan :=
  { p := (sagPolicyFields s m).2.2.2, objects := [objSaggar] }
def execSaggarSetPolicy (mb : Nat) (s : State) : Out :=
  done s (mciRun mb 0x0C02 s (saggarSetPolicyPlan s) (sagPolicyAct mb))

/-! ### The dump (R172 to R174) -/

/-- Device time as 8 bytes (Time, in 00_scope). -/
def State.deviceTime (s : State) : Nat := u32 s.hw.powerCycle + u32 s.hw.opMinutes * 2 ^ 32

/-- The namespace of a vault member that takes writes. -/
def State.vaultNs (s : State) (m : VaultMember) : Option Ns := s.arr.ns.find? (fun n => n.ident.uid == m.uid && n.up)

/-- Lines that a dump takes: DIRTY and CLOSING ones, and MIRROR ones when the Slip link is not up (R172). -/
def State.dumpTakes (s : State) : List Line :=
  s.sag.lines.filter (fun l => l.st == .dirty || l.st == .closing || (l.st == .mirror && !s.twin.up))

/-- The descriptor of a dumped line: a line with no good copy is written with zero payload and VALID clear (R119, R173). -/
def lineDesc (s : State) (l : Line) : Bytes :=
  let key := if l.st = .mirror then l.key else ((s.array l.array).map (fun a => arrayKey a.body.uid)).getD 0
  let ok := l.prim || l.pair
  vaultDesc key l.lba l.intentGen l.twinSeq l.volume ok l.pi (if ok then l.data else [])

/-- The 64 sectors of copy-wide group `g` (R117, R119). -/
def groupSectors (s : State) (g : Nat) (ls : List Line) : List RawSector :=
  { data := trimZeros (vaultDescSector s.vault.dumpSeq g (ls.map (lineDesc s))), tag := [] } ::
    ls.map (fun l => { data := if l.prim || l.pair then l.data else [], tag := [] })

/-- Where a member stands in its copy set, and the set's size (R179). -/
def Vault.place (v : Vault) (j : Nat) : Nat × Nat := (j / max v.copies 1, max 1 ((v.set (j % max v.copies 1)).length))

/-- First sector of a member's VAULT region (R78). -/
def vaultStart (n : Ns) : Nat := 256 + n.journal

/-- A header write of a member's dump: STATE and counts (R118, R120). -/
def headerWrite (id : Nat) (n : Ns) (set state groups lines from_ to_ : Nat) (s : State) : State :=
  issue { writeCmd id n.id (vaultStart n) (plainSectors 1 (vaultHeader s.vault.dumpSeq state set groups lines from_ to_)) with cls := 0, fua := state != 1 } s

/-- Groups of a copy that a member holds: copy-wide number and position, those past its region left out (R117, R179). -/
def Vault.groupsOf (v : Vault) (j lines : Nat) : List (Nat × Nat) :=
  let (at_, m) := v.place j
  let cap := (nth v.members j {}).vaultSectors / 64 - 1
  ((List.range (cdiv lines 63)).filter (fun g => g % m == at_)).map (fun g => (g, g / m)) |>.filter (fun x => decide (x.2 < cap))

/-- The groups of a member are written in ascending order (R120, R173). -/
def groupWrites (j : Job) (n : Ns) (s : State) : State :=
  let ls := s.dumpTakes
  (s.vault.groupsOf j.sector ls.length).foldl (fun t x =>
    issue { writeCmd j.id n.id (vaultStart n + 1 + 64 * x.2) (groupSectors s x.1 ((ls.drop (63 * x.1)).take 63)) with cls := 0 } t) s

/-- A dump starts on the copy sets named (R172, R176). -/
def startDump (sets : List Nat) (s : State) : State :=
  let v := s.vault
  let up (j : Nat) : Bool := sets.contains (j % max v.copies 1) && (s.vaultNs (nth v.members j {})).isSome
  let t := s.onVault fun v => { v with
    frozen := true, status := .dumping, dumpSeq := v.dumpSeq + 1, phase := .dumping, dumpPending := false, holdPending := false,
    dumpLines := s.dumpTakes.length, dumpTime := 0, dumpStart := s.hw.turn, dumpFrom := s.deviceTime, dumpTo := 0,
    members := (List.range v.members.length).map (fun j => { (nth v.members j {}) with dropped := !up j }) }
  (List.range v.members.length).foldl (fun u j =>
    if up j then match s.vaultNs (nth v.members j {}) with
      | some n =>
        let id := u.arr.nextJob
        headerWrite id n (j % max v.copies 1) 1 0 0 u.vault.dumpFrom 0
          (addJob { kind := .dump, ns := [n.id], sector := j, stripe := j % max v.copies 1 } u)
      | none => u
    else u) t

/-- Copy sets that finished with no member dropped (R174). -/
def Vault.wholeSets (v : Vault) : Nat :=
  ((List.range v.copies).filter (fun i => (v.set i) != [] && (v.set i).all (fun m => !m.dropped))).length

/-! ### Hold and resume (R175, R176) -/

/-- The hold ends: the journal unfreezes and MRAM records IDLE; admission resumes at the next boundary (R175 steps 2 to 4). -/
def endResume (s : State) : State := s.onVault fun v => { v with status := .idle, frozen := false, phase := .idle }

/-- STATE RESTORED goes to every vault header (R175 step 1, R185); the job's `stage` 1 marks the end of recovery. -/
def restoreHeaders (stage : Nat) (s : State) : State :=
  let id := s.arr.nextJob
  let v := s.vault
  let t := addJob { kind := .headers, stage := stage } s
  (List.range v.members.length).foldl (fun u j => match s.vaultNs (nth v.members j {}) with
    | some n => headerWrite id n (j % max v.copies 1) 3 (cdiv v.dumpLines 63) v.dumpLines v.dumpFrom v.dumpTo u
    | none => u) t

/-- The device resumes: after a dump it first writes the headers (R175). -/
def startResume (s : State) : State :=
  if s.fc.fatal ∨ s.vault.stopped ∨ s.sec.trialFailed then s
  else if s.vault.status = .complete then
    let t := restoreHeaders 0 (s.onVault fun v => { v with phase := .resuming })
    if t.arr.cmds.any (fun c => c.job == s.arr.nextJob) then t else endResume (endJob s.arr.nextJob t)
  else endResume s

/-- Every copy set is finished: MRAM records COMPLETE, and the device resumes once PFAIL# has been deasserted long enough
(R174, R175). -/
def dumpCheck (s : State) : State :=
  if s.vault.status ≠ .dumping ∨ s.arr.jobs.any (fun j => j.kind == .dump) then s
  else
    let t := s.onVault fun v => { v with status := .complete, phase := .holding, setsWhole := v.wholeSets, dumpTo := s.deviceTime,
                                         dumpTime := (s.hw.turn - v.dumpStart) * s.turnNs / 1000 }
    if s.pins.resumeDone then startResume t else t

/-- A vault member falls out of the dump (R174). -/
def dumpDrop (j : Job) (s : State) : State :=
  dumpCheck ((endJob j.id s).onVault fun v => { v with members := nthMod v.members j.sector (fun m => { m with dropped := true }) })

/-- A write of a member's dump has ended: header, groups, header (R120, R174). -/
def dumpCmdDone (j : Job) (c : MCmd) (ok : Bool) (s : State) : State :=
  if ¬ ok then dumpDrop j s
  else if (s.jobCmds j.id) ≠ [] then s
  else match s.ns c.ns with
    | none => dumpDrop j s
    | some n =>
      let last (t : State) : State :=
        let ls := s.dumpTakes.length
        headerWrite j.id n j.stripe 2 (cdiv ls 63) ls s.vault.dumpFrom s.deviceTime (onJob j.id (fun x => { x with stage := 2 }) t)
      match j.stage with
      | 0 =>
        let t := groupWrites j n (onJob j.id (fun x => { x with stage := 1 }) s)
        if (t.jobCmds j.id) = [] then last t else t
      | 1 => last s
      | _ => dumpCheck (endJob j.id s)

/-! ### PFAIL# (R171, R172, R175, R176, R180, R190) -/

/-- PFAIL_FALL: the filter starts. -/
def execPfailFall (s : State) : Out := done s (s.onPins fun p => { p with pfailRaw := true, pfailFilter := !p.pfailFiltered })

/-- PFAIL_RISE: a pulse the filter rejects is counted; otherwise the 10 ms count starts (R171, R175). -/
def pfailRise (s : State) : State :=
  let glitch := s.pins.pfailFilter
  let t := s.onPins fun p => { p with pfailRaw := false, pfailFilter := false, pfailFiltered := false,
                                      resumeCounting := p.resumeCounting || !p.resumeDone }
  if glitch then t.onVault fun v => { v with pfailGlitches := bump v.pfailGlitches } else t
def execPfailRise (s : State) : Out := done s (pfailRise s)

/-- The response of VAULT_TEST (R190). -/
def vaultTestBytes (result : Nat) (s : State) : Bytes :=
  leBytes 1 result ++ leBytes 3 0 ++ leBytes 4 (s.vaultBw / 1000000) ++ leBytes 8 ((s.capLines).getD 0 * 4096) ++
  padTo 64 ((s.vault.members.map (fun m => leBytes 4 m.rate)).flatten)

/-- A running VAULT_TEST ends with a result. -/
def endVaultTest (result : Nat) (s : State) : State :=
  match s.vault.testMb with
  | none => s
  | some mb =>
    let t := (s.arr.jobs.filter (fun j => j.kind == .testWrite)).foldl (fun u j => endJob j.id u) s
    mciOk mb (vaultTestBytes result t) [] (t.onVault fun v => { v with testMb := none, phase := if v.phase = .testing then .idle else v.phase })

/-- FILTERED_ASSERTION: recovery that has begun stops; a hold goes on; otherwise a dump or a hold is due at the next boundary. Tests end
(R171, R172, R175, R176, R180, R190, R530). -/
def filteredAssertion (s : State) : State :=
  if ¬ s.pins.pfailRaw ∨ ¬ s.pins.pfailFilter then s
  else
    let t := s.onPins fun p => { p with pfailFilter := false, pfailFiltered := true, resumeCounting := false, resumeDone := false }
    let t := t.onVault fun v => { v with pfailEvents := bump v.pfailEvents }
    let t := endVaultTest 3 (interruptTests (fun _ => true) (mergeSamples t))
    if ¬ s.sched.running then t
    else if s.dev.recovering then (if s.vault.phase = .restoring then t.onVault fun v => { v with stopped := true, phase := .holding } else t)
    else if s.dev.holding then t.onVault fun v => { v with phase := if v.phase = .dumping then .dumping else .holding }
    else if s.vault.armed then t.onVault fun v => { v with dumpPending := true }
    else t.onVault fun v => { v with holdPending := true }
def execFilteredAssertion (s : State) : Out := done s (filteredAssertion s)

/-- RESUME_COUNT_EXPIRED: PFAIL# has been deasserted for 10 ms (R175, R180). -/
def resumeExpired (s : State) : State :=
  if ¬ s.pins.resumeCounting ∨ s.pins.pfailRaw then s
  else
    let t := s.onPins fun p => { p with resumeCounting := false, resumeDone := true }
    if s.vault.phase = .holding then startResume t else t
def execResumeCountExpired (s : State) : Out := done s (resumeExpired s)

/-- At boundary T: the dump of R172 or R177, or the hold of R176 with its dump when lines are left. Commands are ended by the
caller. -/
def boundaryPower (s : State) : State :=
  let lines := s.sag.lines.any (fun l => l.st == .dirty || l.st == .closing)
  let all := List.range s.vault.copies
  let fatal := s.vault.emergency
  if s.vault.dumpPending ∨ (fatal ∧ s.vault.armed ∧ s.vault.status = .idle) then startDump all (s.onVault fun v => { v with emergency := false })
  else if (s.vault.holdPending ∨ fatal) ∧ lines ∧ s.vault.configured ∧ s.vault.status = .idle ∧ s.completeSets ≠ [] then
    startDump s.completeSets (s.onVault fun v => { v with emergency := false })
  else if s.vault.holdPending ∨ fatal then
    s.onVault fun v => { v with holdPending := false, emergency := false, phase := if v.phase = .idle then .holding else v.phase }
  else s

/-! ### Vault and journal registers (R187) -/

def VPhase.code : VPhase → Nat
  | .idle => 0 | .dumping => 1 | .holding => 2 | .resuming => 3 | .restoring => 4 | .testing => 5

def vaultReg (off : Nat) (s : State) : Option Nat :=
  let v := s.vault
  match off with
  | 0x000 => some (flag v.armed 0 + flag v.configured 1 + flag v.tested 2 + flag (decide (2 ≤ s.completeSets.length)) 3 +
                   flag (decide (1 ≤ (s.capLines).getD 0)) 4 + v.phase.code * 32 + s.completeSets.length * 256)
  | 0x004 => some (flag s.pins.pfailRaw 0 + flag s.pins.pfailFiltered 1 + flag s.pins.resumeCounting 2)
  | 0x008 => some v.pfailGlitches
  | 0x00C => some v.pfailEvents
  | 0x010 => some (u32 v.dumpSeq)
  | 0x014 => some (u32 v.dumpLines)
  | 0x018 => some (u32 v.dumpTime)
  | 0x01C => some (u32 ((s.capLines).getD 0))
  | 0x020 => some (u32 (s.vaultBw / 1000000))
  | 0x024 => some s.ownUsed
  | 0x028 => some (max v.journalPeak s.ownUsed)
  | 0x02C => some s.ringLag
  | _ => none

/-- The RC registers of the vault cleared by a read. -/
def vaultClear (off : Nat) (s : State) : State :=
  s.onVault fun v => match off with
    | 0x008 => { v with pfailGlitches := 0 }
    | 0x00C => { v with pfailEvents := 0 }
    | 0x028 => { v with journalPeak := 0 }
    | _ => v

/-! ### Vault commands (R188 to R191) -/

/-- The UIDs of a VAULT_CONFIG's list. -/
def uidList (b : Bytes) (off n : Nat) : List Nat := (List.range n).map (fun i => leNat (slice b (off + 16 * i) 16))

/-- HOLDUP_US, COPIES and members of VAULT_CONFIG, in field order: MEMBER_COUNT before COPIES (R189). -/
def vaultFields (s : State) (m : Mailbox) : Nat × Nat × List Nat × Parse :=
  let (h, p) := m.parse.num 1 0 4 { lo := 1000, hi := 1000000, dflt := 10000 }
  let stored := s.vault.members.map (·.uid)
  let (n, p) := p.num 2 5 1 { lo := 2, hi := 16, dflt := 0 }
  let count := if n = 0 then stored.length else n
  let (c, p) := p.num 3 4 1 { lo := 2, hi := min 4 (max 2 count), dflt := 2, depHi := decide (count < 4) }
  let uids := if n = 0 then stored else uidList p.bytes 8 n
  let adopted (u : Nat) : Option Ns := s.arr.ns.find? (fun x => x.adopted && x.ident.uid == u)
  let p := (List.range uids.length).foldl (fun p i => match adopted (nth uids i 0) with
    | some x => if x.vault = 0 then p.note 4 (32 + 128 + i * 256) (nth uids i 0 % 2 ^ 64) 0 else p
    | none => p) p
  (h, c, uids, p)

/-- Members left of a list: adopted ones with a VAULT region. -/
def vaultMembersOf (s : State) (uids : List Nat) : List VaultMember :=
  uids.filterMap (fun u => match s.arr.ns.find? (fun x => x.adopted && x.ident.uid == u && x.vault != 0) with
    | some x => some { uid := u, vaultSectors := x.vault }
    | none => none)

/-- VAULT_CONFIG: stored; the vault is disarmed until a VAULT_TEST passes (R189). -/
def vaultConfigAct (mb : Nat) (m : Mailbox) (s : State) : State :=
  let (h, c, uids, _) := vaultFields s m
  mciOk mb [] [] (recordConfig 0x0C03 (leBytes 4 h ++ leBytes 1 c ++ leBytes 1 uids.length ++ leBytes 2 0 ++ uids.flatMap (leBytes 16))
    (s.onVault fun v => { v with configured := true, tested := false, holdupUs := h, copies := c, members := vaultMembersOf s uids }))
/-- Fields, objects and refusals of the command (steps 5 to 7 of R366). -/
def vaultConfigPlan (s : State) (m : Mailbox) : Plan :=
  { p := (vaultFields s m).2.2.2, objects := [objVault], busy := s.vault.phase != .idle,
    noObject := if (vaultFields s m).2.2.1.any (fun u => !s.arr.ns.any (fun x => x.adopted && x.ident.uid == u)) then some 4 else none }
def execVaultConfig (mb : Nat) (s : State) : Out :=
  done s (mciRun mb 0x0C03 s (vaultConfigPlan s)
    (vaultConfigAct mb))

/-- A group of test sectors goes to a vault member. -/
def testWrite (id : Nat) (n : Ns) (s : State) : State :=
  issue { writeCmd id n.id (vaultStart n + 2) (List.replicate 63 { data := trimZeros Config.testPattern }) with cls := 0 } s
/-- A test write has ended: the next one follows while the test runs. -/
def testCmdDone (j : Job) (c : MCmd) (s : State) : State :=
  match s.ns c.ns with | some n => if s.vault.phase = .testing then testWrite j.id n s else s | none => s

/-- VAULT_TEST starts (R190). -/
def vaultTestAct (mb : Nat) (_ : Mailbox) (s : State) : State :=
  let ns := s.vault.members.filterMap s.vaultNs
  let id := s.arr.nextJob
  let t := addJob { kind := .testWrite, ns := ns.map (·.id) } (s.onVault fun v => { v with phase := .testing, testMb := some mb })
  ns.foldl (fun u n => testWrite id n u) t
/-- Fields, objects and refusals of the command (steps 5 to 7 of R366). -/
def vaultTestPlan (s : State) (m : Mailbox) : Plan :=
  { p := (m.parse.num 1 0 2 { lo := 10, hi := 1000, dflt := 100 }).2, objects := [objVault], busy := s.vault.phase != .idle }
def execVaultTest (mb : Nat) (s : State) : Out :=
  done s (mciRun mb 0x0C04 s (vaultTestPlan s) (vaultTestAct mb))

/-- VAULT_TEST_END: the measured rates are judged; PASS stores them (R190). -/
def vaultTestEnd (rates : List Nat) (memberError : Bool) (s : State) : State :=
  if s.vault.phase ≠ .testing then s
  else
    let ms := (List.range s.vault.members.length).map (fun j => { (nth s.vault.members j {}) with rate := nth rates j 0 })
    let t := s.onVault fun v => { v with members := ms, tested := true }
    let result := if memberError then 1 else if (t.capLines).getD 0 = 0 then 2 else 0
    let shown := endVaultTest result t
    if result = 0 then shown else shown.onVault fun v => { v with members := s.vault.members, tested := s.vault.tested }
def execVaultTestEnd (rates : List Nat) (memberError : Bool) (s : State) : Out := done s (vaultTestEnd rates memberError s)

/-- VAULT_GET_STATUS (R191). -/
def vaultStatusAct (mb : Nat) (_ : Mailbox) (s : State) : State :=
  let v := s.vault
  mciOk mb (((List.range 12).map (fun i => leBytes 4 ((vaultReg (4 * i) s).getD 0))).flatten ++ leBytes 4 v.holdupUs ++ leBytes 1 v.copies ++
    leBytes 3 0 ++ padTo 256 ((v.members.map (fun m => leBytes 16 m.uid)).flatten) ++
    padTo 32 (((List.range v.members.length).map (fun j => leBytes 1 (j % max v.copies 1) ++ leBytes 1 (flag (s.vaultUp (nth v.members j {})) 0))).flatten)) [] s
/-- Fields, objects and refusals of the command (steps 5 to 7 of R366). -/
def vaultGetStatusPlan (_s : State) (m : Mailbox) : Plan :=
  { p := m.parse }
def execVaultGetStatus (mb : Nat) (s : State) : Out :=
  done s (mciRun mb 0x0C05 s (vaultGetStatusPlan s) (vaultStatusAct mb))

end Sys2Proof.Machine
end

