-- ==== Sys2Proof/Machine/Reserve.lean ====
section
/-! DEFINITION. Reservations on the members of shared arrays (R238, R253, R255, R258, R262). -/
namespace Sys2Proof.Machine

/-- The reservation keys of this device and of its partner: bytes 0 to 7 of DEVICE_ID (R238). -/
def ownKey : Nat := Config.deviceId.toNat % 2 ^ 64
def State.partnerKey (s : State) : Nat := ((s.twin.partner.map (·.toNat)).getD 0) % 2 ^ 64

/-- What a reservation job does: 1 registers the own key, 2 acquires as the owner, 3 preempts for a takeover, 4 acquires for a
move, 5 releases, 6 preempts the partner's registration at an unpairing. Answers: operation, key it names, action. -/
def reserveOp (stage : Nat) (s : State) : MOp × Nat × Nat :=
  match stage with
  | 1 => (.reservationRegister, ownKey, 0)
  | 3 => (.reservationAcquire, s.partnerKey, 2)
  | 6 => (.reservationAcquire, s.partnerKey, 1)
  | 5 => (.reservationRelease, ownKey, 0)
  | _ => (.reservationAcquire, ownKey, 0)

/-- Namespaces of an array's members, FAILED entries left out. -/
def State.memberNs (s : State) (a : Arr) : List Ns :=
  ((List.range a.body.members.length).filter (fun p => !a.failed p)).filterMap (fun p => s.memberAt a p)

/-- A reservation command goes to every member namespace of an array; the key and the action stand in its LBA and count. -/
def sendReserve (stage aid : Nat) (ms : List Ns) (s : State) : State :=
  let (op, key, act) := reserveOp stage s
  let t := addJob { kind := .reserve, array := aid, stage := stage, ns := ms.map (·.id) } s
  ms.foldl (fun u n => addCmd { ns := n.id, op := op, lba := key, count := act, job := s.arr.nextJob } u) t

/-- Every command of a reservation job has ended: a takeover waits FENCE_WAIT (R255 step 2); a move makes the MIRROR lines its
own and persists its mark (R258 steps 4 and 5). -/
def reserveEnd (j : Job) (s : State) : State :=
  let t := endJob j.id s
  match j.stage with
  | 1 => match t.array j.array with
    | some a => if a.owner ∧ a.shared then sendReserve 2 j.array (t.memberNs a) t else t
    | none => t
  | 3 => onArray j.array (fun a => { a with takeover := if a.takeover = 1 then 2 else a.takeover }) t
  | 4 => startMark j.array id [] (onArray j.array (fun a => { a with moving := 5 }) t)
  | _ => t

/-- A job with no command left has ended. -/
def reserveCheck (j : Job) (s : State) : State := if (s.jobCmds j.id) = [] then reserveEnd j s else s

/-- A reservation job starts. -/
def startReserve (stage : Nat) (a : Arr) (s : State) : State :=
  let t := sendReserve stage a.id (s.memberNs a) s
  match t.job s.arr.nextJob with | some j => reserveCheck j t | none => t

/-- A member has not done its part: in a takeover it is treated as missing (R255 step 1). -/
def reserveFailed (j : Job) (c : MCmd) (s : State) : State := if j.stage = 3 then declareFailed c.ns 8 s else s

/-- A reservation command has ended. -/
def reserveCmdDone (j : Job) (c : MCmd) (ok : Bool) (s : State) : State :=
  reserveCheck j (if ok then s else reserveFailed j c s)

/-- A reservation command has timed out: the job goes on without it. -/
def reserveMissed (j : Job) (c : MCmd) (s : State) : State :=
  reserveCheck j (reserveFailed j c (s.onArr fun a => { a with cmds := mapIf a.cmds (fun x => x.id == c.id) (fun x => { x with job := 0, discard := true }) }))

end Sys2Proof.Machine
end

