-- ==== Sys2Proof/Machine/Members.lean ====
section
/-! DEFINITION. Member ports and hot-plug (R547, R548, R551), conditions of members (R192 to R200), kiln caches (R58, R68) and
kiln memory errors. -/
namespace Sys2Proof.Machine

/-! ### Names of namespaces (log entry 10) -/

/-- A namespace's identifier is its place: port and NSID, or node and export. -/
def nsId (l : NsLoc) : Nat := if l.remote then 2 ^ 40 + l.node * 2 ^ 16 + l.exp else l.port * 2 ^ 32 + l.nsid
def nsLoc (id : Nat) : NsLoc :=
  if 2 ^ 40 ≤ id then { remote := true, node := (id - 2 ^ 40) / 2 ^ 16, exp := (id - 2 ^ 40) % 2 ^ 16 }
  else { port := id / 2 ^ 32, nsid := id % 2 ^ 32 }

/-! ### Ports -/

def State.port (s : State) (p : Nat) : Port := nth s.arr.ports p {}
def onPort (p : Nat) (f : Port → Port) (s : State) : State := s.onArr fun a => { a with ports := nthMod a.ports p f }

/-- The port exists: its group is present, and ports 24 to 47 only in bifurcated groups (R547, R550). -/
def State.portExists (s : State) (p : Nat) : Bool :=
  p < 48 && s.groupPresent (groupOfPort p) && (p < 24 || !s.hw.straps.mportX4.getLsbD (groupOfPort p))

/-- Commands on namespaces that are gone end without a result. -/
def dropCmds (p : Nat → Bool) (s : State) : State :=
  s.onArr fun a => { a with cmds := a.cmds.filter (fun c => !p c.ns) }

/-- A debounced insertion powers the port (R548). -/
def portInsert (p : Nat) (s : State) : State := onPort p (fun q => { q with present := true, power := true, refclk := true, holdoff := true }) s

/-- A debounced removal stops the port and declares its members FAILED with cause 1 (R194, R548). -/
def portRemove (p : Nat) (s : State) : State :=
  let t := onPort p (fun q => { q with present := false, power := false, refclk := false, perst := true, up := false, training := false, holdoff := true }) s
  let gone := (t.arr.ns.filter (Ns.onPort p)).map (·.id)
  let t := gone.foldl (fun u i => declareFailed i 1 u) (makeUnavailable (Ns.onPort p) 1 t)
  let t := t.onArr fun a => { a with ns := a.ns.filter (fun n => !(n.onPort p && n.arrayUid == 0)) }
  dropCmds (fun i => gone.contains i && (t.ns i).isNone) t

/-- The port takes the debounced level it has, when that differs from its state (R551). -/
def portEvent (p : Nat) (s : State) : State :=
  let q := s.port p
  if q.level = q.present then s else if q.level then portInsert p s else portRemove p s

/-- PRSNT_CHANGE: the 100 ms debounce starts; a test on the port is interrupted (R530, R551). -/
def prsntChange (p : Nat) (present : Bool) (s : State) : State :=
  let t := onPort p (fun q => { q with debounce := if present = q.level then none else some present }) s
  interruptTests (fun x => x.unit == 2 && x.index == p) t
def execPrsntChange (port : Nat) (present : Bool) (s : State) : Out :=
  done s (if s.portExists port then prsntChange port present s else s)

/-- PRSNT_DEBOUNCE_EXPIRED (R548, R551). -/
def prsntDebounced (p : Nat) (s : State) : State :=
  match (s.port p).debounce with
  | none => s
  | some b =>
    let t := onPort p (fun q => { q with level := b, debounce := none }) s
    if (s.port p).holdoff then t else portEvent p t
def execPrsntDebounceExpired (port : Nat) (s : State) : Out := done s (if s.portExists port then prsntDebounced port s else s)

/-- PRSNT_HOLDOFF_EXPIRED: a debounced level that differs from the port's state is a new event (R551). -/
def prsntHoldoff (p : Nat) (s : State) : State :=
  if (s.port p).holdoff then portEvent p (onPort p (fun q => { q with holdoff := false }) s) else s
def execPrsntHoldoffExpired (port : Nat) (s : State) : Out := done s (if s.portExists port then prsntHoldoff port s else s)

/-- MEMBER_PERST_DELAY_EXPIRED: PERST# is deasserted and the link trains (R548). -/
def perstDelay (p : Nat) (s : State) : State :=
  if (s.port p).power ∧ (s.port p).perst then onPort p (fun q => { q with perst := false, training := true }) s else s
def execMemberPerstDelayExpired (port : Nat) (s : State) : Out := done s (if s.portExists port then perstDelay port s else s)

/-- MEMBER_LINK_DOWN: the link retrains and its members become UNAVAILABLE (R193). -/
def execMemberLinkDown (port : Nat) (s : State) : Out :=
  done s (if s.portExists port ∧ (s.port port).up then retrainPort port s else s)

/-! ### Identity (R73, R193, R196, R392) -/

/-- Zeros over the mark copies, headers first, of a namespace being released (R392). -/
def startRelease (n : Ns) (mb : Option Nat) (s : State) : State :=
  let id := s.arr.nextJob
  let t := addJob { kind := .release, ns := [n.id], mb := mb } s
  issue { writeCmd id n.id 0 (List.replicate 1 {}) with fua := true } t

/-- A namespace as its current mark describes it (R87, R389): in an array of this device when the mark fits the member list
(R121 step 4), stale when it does not. -/
def readMark (s : State) (id : Nat) (i : NsIdent) : Ns :=
  let n : Ns := { id := id, loc := nsLoc id, ident := i }
  match i.mark with
  | none => n
  | some m =>
    let here := s.arr.arrays.find? (fun a => m.arrayUid != 0 && a.body.uid == m.arrayUid)
    let fits := match here with
      | some a => (a.entry m.pool).uid == m.uid && (a.entry m.pool).state != 2 && a.body.gen == m.gen
      | none => false
    { n with ident := { i with uid := m.uid }, journal := m.journal, vault := m.vault, dataStart := m.dataStart, dataSectors := m.dataSectors,
             markValid := true, arrayUid := m.arrayUid, markGen := m.gen, markB := m.copyB, poolIndex := m.pool,
             adopted := fits || (m.arrayUid == 0 && m.writer == Config.deviceId),
             byPartner := !fits && m.writer != Config.deviceId && some m.writer == s.twin.partner,
             stale := here.isSome && !fits }

/-- A mark of the bound partner shows an array that it serves: this side records it as the non-owner, and follows its metadata
(R236, R576). -/
def followPeer (i : NsIdent) (s : State) : State :=
  match i.mark with
  | none => s
  | some m => match m.peer with
    | none => s
    | some (aid, b) =>
      if some m.writer ≠ s.twin.partner ∨ b.uid = 0 then s
      else match s.arr.arrays.find? (fun a => a.body.uid == b.uid) with
        | some a => if ¬ a.owner ∧ a.body.gen < b.gen then onArray a.id (fun x => { x with body := b, markGen := b.gen }) s else s
        | none => s.onArr fun x => { x with arrays := x.arrays ++ [{ id := aid, body := b, markGen := b.gen, gen := b.genFloor, service := 2, shared := true, owner := false, ana := .inaccessible }] }

/-- A release that MRAM records goes on when its namespace appears (R392). -/
def resumeRelease (id : Nat) (s : State) : State :=
  match s.ns id with
  | none => s
  | some n =>
    if s.arr.releases.any (fun r => r.1 == n.ident.uid && r.2 == n.loc) ∧ ¬ s.arr.jobs.any (fun j => j.kind == .release && j.ns == [id]) then
      startRelease n none s else s

/-- The identity that a namespace reports is taken: a return to HEALTHY, or FAILED with cause 9 (R193). -/
def identityRead (id : Nat) (i : NsIdent) (s0 : State) : State :=
  let s := followPeer i s0
  match s.ns id with
  | none =>
    let l := nsLoc id
    if l.remote ∨ (s.port l.port).up then resumeRelease id (s.onArr fun a => { a with ns := a.ns ++ [readMark s id i] }) else s
  | some n =>
    if ¬ n.adopted ∧ ¬ n.stale then resumeRelease id (onNs id (fun _ => { readMark s id i with exported := n.exported }) s)
    else
      let same := n.ident.uid == ((i.mark.map (·.uid)).getD 0) && n.ident.capacity == i.capacity && n.ident.fmt == i.fmt
      let t := onNs id (fun x => { x with ident := { i with uid := x.ident.uid } }) s
      if n.stale then resumeRelease id t
      else match n.cond with
        | .healthy => resumeRelease id t
        | .unavailable _ =>
          if ¬ same then declareFailed id 9 t
          else if n.loc.remote ∨ (s.port n.loc.port).up then resumeRelease id (onNs id (fun x => { x with cond := .healthy, reread := false }) t) else t
def execMemberIdentityRead (ns : Nat) (ident : NsIdent) (s : State) : Out := done s (identityRead ns ident s)

/-- UNAVAIL_LIMIT_EXPIRED: the cause has not cleared (R193, R194). -/
def unavailExpired (id : Nat) (s : State) : State :=
  match s.ns id with
  | some n => match n.cond with | .unavailable c => declareFailed id c s | .healthy => s
  | none => s
def execUnavailLimitExpired (ns : Nat) (s : State) : Out := done s (unavailExpired ns s)

/-- CONTROLLER_FATAL: declared FAILED at once with cause 4 (R194). -/
def execControllerFatal (ns : Nat) (s : State) : Out :=
  done s (declareFailed ns 4 (makeUnavailable (fun n => n.id == ns) 4 s))

/-! ### Timeouts (R197 to R200) -/

def State.mcmd (s : State) (id : Nat) : Option MCmd := s.arr.cmds.find? (fun c => c.id == id && c.sent)
def dropCmd (id : Nat) (s : State) : State := s.onArr fun a => { a with cmds := a.cmds.filter (fun c => c.id != id) }

/-- The member command has timed out: an Abort goes out and the member becomes UNAVAILABLE; the piece that a Read served
takes the sector as an erasure (R54, R197). -/
def timedOut (c : MCmd) (s : State) : State :=
  let late (x : MCmd) : MCmd := { x with timedOut := true, abortSent := true, job := if x.op = .read ∧ x.step = 0 then 0 else x.job }
  let t := s.onArr fun a => { a with cmds := mapIf a.cmds (fun x => x.id == c.id) late }
  let t := emit (.memberAbort c.id) (makeUnavailable (fun n => n.id == c.ns) (if ((s.ns c.ns).map (·.loc.remote)).getD false then 6 else 3) t false)
  let t := match t.job c.job with | some j => if j.kind = .dump then dumpDrop j t else if j.kind = .reserve then reserveMissed j c t else if j.kind = .served then endJob j.id t else t | none => t
  if c.op = .read ∧ c.step = 0 ∧ c.job ≠ 0 then sliceErased c.job c.slice c.role t else t
def execMemberTimeoutExpired (mcid : Nat) (s : State) : Out :=
  done s (match s.mcmd mcid with | some c => if c.timedOut then s else timedOut c s | none => s)

/-- MEMBER_ABORT_TIMEOUT: the member controller is reset (R197). -/
def execMemberAbortTimeout (mcid : Nat) (s : State) : Out :=
  done s (match s.mcmd mcid with
    | some c => if c.timedOut ∧ c.abortSent then emit (.memberReset (((s.ns c.ns).map (·.loc.port)).getD 0)) s else s
    | none => s)

/-- A timed-out command has ended: a Write is issued again, with the member's return (R198). -/
def timedOutEnded (c : MCmd) (s : State) : State :=
  let t := dropCmd c.id s
  if c.job ≠ 0 ∧ (c.op ≠ .read ∨ c.step ≠ 0) ∧ (t.job c.job).isSome then
    addCmd { c with sent := false, timedOut := false, abortSent := false } t
  else t

/-- A timed-out command's Abort has completed: the command has ended. A member with nothing else timed out is HEALTHY again, when
the timeouts were all of the cause (R193, R197). -/
def abortDone (c : MCmd) (s : State) : State :=
  let t := timedOutEnded c s
  if t.arr.cmds.any (fun x => x.ns == c.ns && x.timedOut) then t
  else onNs c.ns (fun n => if n.reread then n else { n with cond := .healthy }) t

/-- MEMBER_CONTROLLER_RESET_DONE: the timed-out commands have ended; commands that were in flight go again (R197, R198). A
reset that fails declares the members FAILED with cause 4 (R194). -/
def resetDone (p : Nat) (ok : Bool) (s : State) : State :=
  let here (c : MCmd) : Bool := ((s.ns c.ns).map (Ns.onPort p)).getD false
  let cs := s.arr.cmds.filter (fun c => here c && c.sent)
  let t := cs.foldl (fun u c => timedOutEnded c u) s
  if ok then makeUnavailable (Ns.onPort p) 3 t
  else ((t.arr.ns.filter (Ns.onPort p)).map (·.id)).foldl (fun u i => declareFailed i 4 u) t
def execMemberControllerResetDone (port : Nat) (ok : Bool) (s : State) : Out := done s (resetDone port ok s)

/-- A completion after its timeout is discarded, counted, and its identifier quarantined (R199). -/
def lateCompletion (c : MCmd) (s : State) : State :=
  raise { source := 0x161, loc := (s.ns c.ns).map (fun n => locPort n.loc.port) }
    (s.onArr fun a => { a with lateCompletions := bump a.lateCompletions, quarantine := addOnce c.id a.quarantine })
def execMemberLateCompletion (mcid : Nat) (s : State) : Out :=
  done s (match s.mcmd mcid with | some c => if c.timedOut then lateCompletion c s else s | none => s)

/-- CID_QUARANTINE_EXPIRED (R199). -/
def execCidQuarantineExpired (mcid : Nat) (s : State) : Out :=
  done s (s.onArr fun a => { a with quarantine := a.quarantine.filter (· != mcid) })

/-- SLOW_READ_EXPIRED: the sector is reconstructed as well; whichever copy is first is delivered (R200). -/
def slowRead (c : MCmd) (s : State) : State :=
  match s.job c.job with
  | none => s
  | some j =>
    if j.kind ≠ .hostRead ∨ c.op ≠ .read ∨ c.role ≠ j.intentGen then s
    else
      let id := s.arr.nextJob
      let x := nth j.slices c.slice {}
      let t := s.onArr fun a => { a with slowReads := bump a.slowReads }
      sliceGo id 0 8 (addJob { j with slices := [{ o := x.o, erased := addOnce c.role x.erased }] } t)
def execSlowReadExpired (mcid : Nat) (s : State) : Out :=
  done s (match s.mcmd mcid with | some c => slowRead c s | none => s)

/-! ### Scrub and persistence timers -/

/-- A scrub of an array over a range of stripes. -/
def startScrub (aid : Nat) (fix patrol : Bool) (first stop : Nat) (s : State) : State :=
  s.onArr fun a => { a with scrubs := a.scrubs.filter (fun x => x.array != aid) ++ [{ array := aid, repair := fix, next := first, stop := stop, patrol := patrol }] }

/-- PATROL_SCRUB_DUE (R215). -/
def patrolDue (aid : Nat) (s : State) : State :=
  match s.array aid with
  | some a => if s.pol.scrubPeriod ≠ 255 ∧ a.service = 2 ∧ a.owner ∧ ¬ s.arr.scrubs.any (fun x => x.array == aid) then
      startScrub aid true true 0 (a.body.desc.rounds * descS a.body.desc) s else s
  | none => s
def execPatrolScrubDue (array : Nat) (s : State) : Out := done s (patrolDue array s)

/-- The exact progress of every entry goes to the marks (R100, R217). -/
def persistProgress (a : Arr) (s : State) : State :=
  startMark a.id (fun b => { b with relocs := b.relocs.map (fun (e : Reloc) =>
    match a.exact.find? (fun x => x.1 == e.seq) with
    | some (_, dn, hm) => { e with doneRound := dn, homeRound := hm }
    | none => e) }) [] s
/-- Whether an array's exact progress differs from its marks. -/
def Arr.unpersisted (a : Arr) : Bool :=
  a.body.relocs.any (fun e => a.exact.any (fun x => x.1 == e.seq && (x.2.1 != e.doneRound || x.2.2 != e.homeRound)))
/-- DONE_ROUND_PERSIST_TIMER (R100). -/
def execDoneRoundPersistTimer (s : State) : Out :=
  done s ((s.arr.arrays.filter (fun a => a.owner && a.unpersisted)).foldl (fun t a => persistProgress a t) s)

/-! ### Kiln caches (R58, R68) and memory errors -/

/-- A granted slice of a kiln refers to the decode matrix of its array and erasures. -/
def State.matrixUsed (s : State) (m : Nat × Nat × List Nat) : Bool :=
  s.arr.jobs.any (fun j => j.array == m.2.1 && j.slices.any (fun x => x.phase == .granted && x.kiln == m.1 && x.erased == m.2.2))

/-- DECODE_MATRIX_DERIVED: the matrix becomes resident; of 32 the least recently used one that no granted piece refers to
makes room (R58). -/
def matrixDerived (kiln aid : Nat) (er : List Nat) (s : State) : State :=
  let others := s.arr.matrices.filter (fun m => m != (kiln, aid, er))
  let mine := others.filter (fun m => m.1 == kiln)
  let out := if mine.length < 32 then others else match mine.find? (fun m => !s.matrixUsed m) with
    | some v => others.filter (fun m => m != v)
    | none => others
  if (out.filter (fun m => m.1 == kiln)).length < 32 then s.onArr fun a => { a with matrices := out ++ [(kiln, aid, er)] } else s
def execDecodeMatrixDerived (kiln array : Nat) (erased : List Nat) (s : State) : Out :=
  done s (if s.kilnPresent kiln ∧ (s.array array).isSome then matrixDerived kiln array erased s else s)

/-- A granted piece refers to a permutation. -/
def State.permUsed (s : State) (p : Nat × Nat × Nat) : Bool :=
  s.arr.jobs.any (fun j => j.array == p.1 && j.dg == p.2.1 && j.slices.any (fun x => x.phase == .granted) &&
    match s.array j.array with | some a => roundOf (jobDesc a j) j.stripe == p.2.2 | none => false)

/-- PERMUTATION_COMPUTED: the round's permutation enters the placement cache of 4,096 entries (R68). -/
def permComputed (aid dg r : Nat) (s : State) : State :=
  let others := s.arr.perms.filter (fun p => p != (aid, dg, r))
  let out := if others.length < 4096 then others else match others.find? (fun p => !s.permUsed p) with
    | some v => others.filter (fun p => p != v)
    | none => others
  if out.length < 4096 then s.onArr fun a => { a with perms := out ++ [(aid, dg, r)] } else s
def execPermutationComputed (array descGen round : Nat) (s : State) : Out :=
  done s (if (s.array array).isSome then permComputed array descGen round s else s)

/-- KILN_MEM_ERROR: corrected in line, or CONTAINED, which fences the kiln (R22, R58). -/
def execKilnMemError (kiln engine lane macroNo : Nat) (cell : Option Nat) (correctable : Bool) (s : State) : Out :=
  done s (if s.kilnPresent kiln then
    raise { source := 0x20 * (kiln + 1) + (if correctable then 0 else 1), loc := some (loc 0 kiln engine lane macroNo), cell := cell } s else s)

end Sys2Proof.Machine
end

