-- ==== Sys2Proof/Machine/Nvme.lean ====
section
/-! DEFINITION. The queue engine and I/O commands (chapter 11, R131 to R137, R146 to R148): fetching, admission, the way of a
write to its commit, reads, flushes, completions and interrupts. -/
namespace Sys2Proof.Machine

/-! ### Queues -/

def State.sq (s : State) (q : Nat) : Option Sq := s.nvme.sqs.find? (fun x => x.qid == q)
def State.cq (s : State) (q : Nat) : Option Cq := s.nvme.cqs.find? (fun x => x.qid == q)
def onSq (q : Nat) (f : Sq → Sq) (s : State) : State := s.onNvme fun n => { n with sqs := mapIf n.sqs (fun x => x.qid == q) f }
def onCq (q : Nat) (f : Cq → Cq) (s : State) : State := s.onNvme fun n => { n with cqs := mapIf n.cqs (fun x => x.qid == q) f }

/-- Entries of a completion queue that are free (R340); a queue of N entries holds N - 1 (log entry 11). -/
def Cq.free (c : Cq) : Nat := c.size - 1 - c.used - c.reserved

/-- Entries that a fetch may take from a submission queue. -/
def Sq.waiting (q : Sq) : Nat := (q.tail + q.size - q.head) % max q.size 1

/-! ### Asynchronous events (R356) -/

/-- An event of a type is reported, or waits; of each type only the first waits (R356). Its completion carries type,
information and log page in Dword 0. -/
def asyncEvent (typ info page : Nat) (s : State) : State :=
  match s.nvme.aers with
  | cid :: rest => cmdReady 0 cid (typ + info * 256 + page * 65536) 0 (s.onNvme fun n => { n with aers := rest })
  | [] => s.onNvme fun n => if n.events.any (fun e => e.1 == typ) then n else { n with events := n.events ++ [(typ, info, page)] }

/-- A doorbell write that R337 ignores. -/
def doorbellError (info : Nat) (s : State) : State :=
  asyncEvent 0 info 1 (s.onNcnt fun n => { n with doorbellErrors := bump n.doorbellErrors })

/-- SQ_TAIL_DOORBELL (R337). -/
def tailDoorbell (q v : Nat) (s : State) : State :=
  match s.sq q with
  | none => doorbellError 0 s
  | some x => if v < x.size then onSq q (fun x => { x with tail := v }) s else doorbellError 1 s
def execSqTailDoorbell (qid value : Nat) (s : State) : Out := done s (if s.nvme.rdy ∧ qid < 4096 then tailDoorbell qid value s else s)

/-- CQ_HEAD_DOORBELL (R337): entries are released. -/
def headDoorbell (q v : Nat) (s : State) : State :=
  match s.cq q with
  | none => doorbellError 0 s
  | some x =>
    let n := (v + x.size - x.head) % max x.size 1
    if x.size ≤ v ∨ x.used < n then doorbellError 1 s else onCq q (fun x => { x with head := v, used := x.used - n }) s
def execCqHeadDoorbell (qid value : Nat) (s : State) : Out := done s (if s.nvme.rdy ∧ qid < 4096 then headDoorbell qid value s else s)

/-! ### Fetching (R339, R343) -/

/-- A command that ends without having been admitted waits for its completion. -/
def completeEarly (c : Cmd) (status : Nat) (s : State) : State :=
  s.onNvme fun n => { n with fetched := n.fetched.filter (fun x => x != c),
                             admitted := n.admitted ++ [{ c with stage := .ready 0 status, error := some status, admittedAt := none }] }

/-- COMMAND_FETCH: one command enters the holding area; one whose CID is in flight ends with Command ID Conflict. -/
def fetchCommand (q : Nat) (e : SqEntry) (s : State) : State :=
  match s.sq q with
  | none => s
  | some x =>
    let held := (s.nvme.fetched.filter (fun c => c.sqid == q)).length
    if ¬ s.nvme.rdy ∨ s.nvme.fetchStop ∨ s.ep.d3Stop ∨ ¬ s.cfg.busMaster ∨ x.waiting = 0 ∨ 16 ≤ held ∨
        8192 ≤ s.nvme.fetched.length then s
    else
      let c : Cmd := { sqid := q, e := e }
      let t := onSq q (fun x => { x with head := (x.head + 1) % max x.size 1 }) s
      if (s.nvme.fetched ++ s.nvme.admitted).any (fun y => y.sqid == q && y.e.cid == e.cid) then
        completeEarly c scCidConflict (t.onNcnt fun n => { n with cidConflicts := bump n.cidConflicts })
      else t.onNvme fun n => { n with fetched := n.fetched ++ [c] }
def execCommandFetch (sqid : Nat) (entry : SqEntry) (s : State) : Out := done s (fetchCommand sqid entry s)

/-! ### What a command names -/

/-- The volume of a namespace identifier as new commands see it (R346, R399, R408, R409). -/
def State.volumeOf (s : State) (nsid : Nat) : Option (Arr × Volume) :=
  s.arr.arrays.findSome? (fun a =>
    if a.gone then none else (a.body.volumes.find? (fun v => v.nsid == nsid && v.state == 1)).bind (fun v =>
      match lookup a.limits v.id with
      | some 0 => none
      | some c => some (a, { v with capacity := min c v.capacity })
      | none => some (a, v)))

/-- Starting LBA and number of sectors of an I/O command. -/
def SqSlba (e : SqEntry) : Nat := u32 e.cdw10 + u32 e.cdw11 * 2 ^ 32
def SqNlb (e : SqEntry) : Nat := e.cdw12 % 65536 + 1

/-- ANA status of an array's state on this side (R237). -/
def anaStatus (a : Arr) : Nat :=
  if a.stoodDown then 0x301 else match a.ana with | .optimized => 0 | .inaccessible => 0x302 | .change => 0x303 | .persistentLoss => 0x301

/-- The data pointer's own checks (R351): PSDT 00 or 01, descriptor types, PRP offsets. A PRP must be aligned to 4 bytes. -/
def dptrStatus (e : SqEntry) : Nat :=
  match e.dptr with
  | .prp p1 _ => if e.psdt ≠ 0 then scInvalidField else if p1 % 4 ≠ 0 then scPrpOffset else 0
  | .sgl ds => if e.psdt ≠ 1 then scInvalidField else if ds.any (fun d => ¬ (d.1 = 0 ∨ d.1 = 2 ∨ d.1 = 3)) then 0x011
               else if ds.any (fun d => d.2.1 != 0) then 0x011 else 0

/-- An I/O command that moves data between host memory and sectors. -/
def movesData (e : SqEntry) : Bool := e.opc == 1 || e.opc == 2

/-- What the checks on a Read, Write, Write Zeroes or Verify find, in order (R346, R351, R352; log entry 12). -/
def ioStatus (s : State) (e : SqEntry) : Nat :=
  match (if e.nsid = 0xFFFFFFFF then none else s.volumeOf e.nsid) with
  | none => scInvalidNs
  | some (a, v) =>
    let write := e.opc == 1 || e.opc == 8
    if movesData e ∧ dptrStatus e ≠ 0 then dptrStatus e
    else if 256 < SqNlb e then scInvalidField
    else if v.capacity < SqSlba e + SqNlb e then scLbaRange
    else if anaStatus a ≠ 0 then anaStatus a
    else if a.service = 1 then scNotReady
    else if write ∧ (a.body.readOnly ∨ a.writesHeld) then scWriteProtected
    else if write ∧ s.budgetLines < SqNlb e then scInvalidField
    else if write ∧ a.shared ∧ s.twin.partner ≠ none ∧ s.sag.rxAreaLines ≠ 0 ∧ s.sag.rxAreaLines < SqNlb e ∧ volTwinRequired v then scInvalidField
    else 0

/-- What a Flush checks (R346). -/
def flushStatus (s : State) (e : SqEntry) : Nat :=
  if e.nsid = 0xFFFFFFFF then 0
  else match s.volumeOf e.nsid with
    | none => scInvalidNs
    | some (a, _) => if anaStatus a ≠ 0 then anaStatus a else if a.service = 1 then scNotReady else 0

/-- What Dataset Management checks (R346, R351). -/
def dsmStatus (s : State) (e : SqEntry) : Nat :=
  match (if e.nsid = 0xFFFFFFFF then none else s.volumeOf e.nsid) with
  | none => scInvalidNs
  | some (a, _) => if dptrStatus e ≠ 0 then dptrStatus e else if anaStatus a ≠ 0 then anaStatus a else if a.service = 1 then scNotReady else 0

/-- The status that a command's checks give as it is admitted, 0 when it passes (R346, R352). -/
def admitStatus (s : State) (e : SqEntry) : Nat := if e.opc = 0 then flushStatus s e else if e.opc = 9 then dsmStatus s e else ioStatus s e

/-- The sectors of an I/O command as array LBAs. -/
def Cmd.lba (c : Cmd) (a : Arr) (i : Nat) : Nat := (volumeToArray a.body.extents c.volume (c.slba + i)).getD 0
def Cmd.lbas (c : Cmd) (a : Arr) : List Nat := (List.range c.nlb).map (c.lba a)

/-- Stripes that sectors touch: stripe, descriptor, mask of data roles (a mirror's bit 0). -/
def touches (a : Arr) (lbas : List Nat) : List (Nat × Nat × Nat) :=
  lbas.foldl (fun l x =>
    let d := a.descAt x
    let n := stripeOf d x
    let m := 2 ^ (if isMirror d then 0 else roleOf d x)
    if l.any (fun y => y.1 == n && y.2.1 == d.gen) then mapIf l (fun y => y.1 == n && y.2.1 == d.gen) (fun y => (n, d.gen, y.2.2 ||| m))
    else l ++ [(n, d.gen, m)]) []

/-- The OPEN records a write needs, opened or gaining its roles; the answer's list names them (R162). -/
def openRecords (a : Arr) (lbas : List Nat) (s : State) : State × List (Nat × Nat × Nat) :=
  let key := arrayKey a.body.uid
  (touches a lbas).foldl (fun (t, l) x =>
    let u := openRecord key x.1 x.2.1 x.2.2 t
    (u, l ++ [(a.id, x.1, ((u.openRec key x.1 x.2.1).map (·.intentGen)).getD 0)])) (s, [])

/-! ### Admission (R40, R149, R340, R342) -/

/-- A write has room in the dirty budget and in the journal, and at the twin (R149, R164, R248). Answers: budget, journal. -/
def writeRoom (s : State) (c : Cmd) : Bool × Bool :=
  match s.volumeOf c.e.nsid with
  | none => (true, true)
  | some (a, v) =>
    if ioStatus s c.e ≠ 0 then (true, true)
    else
      let n := SqNlb c.e
      let lbas := ({ c with slba := SqSlba c.e, nlb := n, volume := v.id } : Cmd).lbas a
      let need := ((touches a lbas).filter (fun x => (s.openRec (arrayKey a.body.uid) x.1 x.2.1).isNone)).length
      let rx := !(s.twinServes a) || s.sag.rxAreaLines == 0 ||
        decide ((s.sag.lines.filter (fun l => ((s.array l.array).map s.twinServes).getD false && (l.st == .pending || l.st == .dirty || l.st == .closing))).length + n ≤ s.sag.rxAreaLines)
      (decide (s.dirtyTotal + n ≤ s.budgetLines) && rx, decide (need ≤ s.journalRoom))

/-- The oldest fetched command of a queue, when R149 and R340 let it be admitted. -/
def admissible (s : State) (q : Nat) : Option Cmd :=
  match s.nvme.fetched.find? (fun c => c.sqid == q), s.sq q with
  | some c, some x =>
    let room := ((s.cq x.cqid).map Cq.free).getD 0
    let (b, j) := if c.isWrite then writeRoom s c else (true, true)
    let fence : Bool := match s.volumeOf c.e.nsid with | some (a, _) => q == 0 || s.fenceOk a || !a.owner | none => true
    if 0 < room ∧ b ∧ j ∧ fence then some c else none
  | _, _ => none

/-- Opcodes of the admin and I/O command sets (R350, R351). -/
def knownOpcode (q opc : Nat) : Bool :=
  if q = 0 then [0x00, 0x01, 0x02, 0x04, 0x05, 0x06, 0x08, 0x09, 0x0A, 0x0C].contains opc
  else [0x00, 0x01, 0x02, 0x08, 0x09, 0x0C].contains opc

/-- An Abort is resolved as it is admitted (R342). -/
def resolveAbort (c : Cmd) (s : State) : State :=
  let q := c.e.cdw10 % 65536
  let cid := c.e.cdw10 / 65536 % 65536
  let outstanding := (s.nvme.admitted.filter (fun x => x.sqid == 0 && x.e.opc == 8 && x.stage == .admitted)).length
  if 4 < outstanding then onCmd 0 c.e.cid (fun x => { x with error := some 0x103 }) s
  else match s.nvme.fetched.find? (fun x => x.sqid == q && x.e.cid == cid) with
    | some x => onCmd 0 c.e.cid (fun y => { y with todo := [] }) (completeEarly x scAbortRequested (s.onNcnt fun n => { n with abortsDone := bump n.abortsDone }))
    | none => onCmd 0 c.e.cid (fun y => { y with todo := [1] }) s

/-- One command is admitted: it takes its place in the order, its completion entry and, if a write, its records. -/
def admitOne (c : Cmd) (s : State) : State :=
  let t := onCq (((s.sq c.sqid).map (·.cqid)).getD 0) (fun x => { x with reserved := x.reserved + 1 })
    ((s.onNvme fun n => { n with fetched := n.fetched.erase c, admitSeq := n.admitSeq + 1 }).onNcnt fun n => { n with admitted := bump n.admitted })
  let put (x : Cmd) (u : State) : State := u.onNvme fun n => { n with admitted := n.admitted ++ [{ x with seq := s.nvme.admitSeq, admittedAt := some s.hw.cycle, admitTurn := s.hw.turn }] }
  if ¬ knownOpcode c.sqid c.e.opc then put { c with stage := .ready 0 scInvalidOpcode, error := some scInvalidOpcode } t
  else if c.sqid = 0 then (if c.e.opc = 8 then resolveAbort c (put c t) else put c t)
  else if admitStatus s c.e ≠ 0 then put { c with error := some (admitStatus s c.e) } t
  else match s.volumeOf c.e.nsid with
    | none => put c t
    | some (a, v) =>
      let c := { c with array := a.id, volume := v.id, slba := SqSlba c.e, nlb := if c.e.opc = 0 ∨ c.e.opc = 9 then 0 else SqNlb c.e,
                        todo := if c.e.opc = 0 ∨ c.e.opc = 9 then [] else List.range (SqNlb c.e) }
      if c.isWrite then
        let (u, recs) := openRecords a (c.lbas a) t
        put { c with waits := recs, twinWait := u.twin.queueRec.filterMap (fun m => if m.1 == arrayKey a.body.uid && 0 < m.2.1 then some m.2.1 else none) } u
      else put c t

/-- Seat order of submission queue identifiers (R40): rotation of 1 to 4,095. -/
def seatOrder (seat : Nat) (qs : List Nat) : List Nat :=
  qs.filter (fun q => seat + 1 ≤ q) ++ qs.filter (fun q => q < seat + 1)

/-- One pass of R40 over the queues that have fetched commands. -/
def admitPass : List Nat → Nat → State → Nat × State
  | [], b, s => (b, s)
  | q :: qs, b, s =>
    if b = 0 then (0, s)
    else match admissible s q with
      | some c => admitPass qs (b - 1) (admitOne c s)
      | none => admitPass qs b s

/-- Passes until nothing is granted or the budget is used (R40). -/
def admitPasses : Nat → List Nat → Nat → State → Nat × State
  | 0, _, b, s => (b, s)
  | k + 1, qs, b, s =>
    let (b', t) := admitPass qs b s
    if b' = b ∨ b' = 0 then (b', t) else admitPasses k qs b' t

/-- At most two commands of the admin queue (R40). -/
def admitAdmin : Nat → Nat → State → Nat × State
  | 0, b, s => (b, s)
  | k + 1, b, s => match admissible s 0 with
    | some c => admitAdmin k (b - 1) (admitOne c s)
    | none => (b, s)

/-- Queues held for this turn, and why (R149, R340). -/
def heldCounts (s : State) : State :=
  let heads := s.nvme.sqs.filterMap (fun x => (s.nvme.fetched.find? (fun c => c.sqid == x.qid)).map (fun c => (x, c)))
  let full := (heads.filter (fun h => ((s.cq h.1.cqid).map Cq.free).getD 0 == 0)).length
  let b := heads.any (fun h => h.2.isWrite && !(writeRoom s h.2).1)
  let j := heads.any (fun h => h.2.isWrite && !(writeRoom s h.2).2)
  (s.onNcnt fun n => { n with cqFullHeld := sat32 (n.cqFullHeld + full) }).onSag fun g =>
    { g with budgetHeld := b, journalHeld := j, heldTurns := if b || j then bump g.heldTurns else g.heldTurns }

/-- Admission of a planning window (R40). -/
def admitAll (s : State) : State :=
  if ¬ s.nvme.rdy ∨ s.dev.holding ∨ s.ep.d3Stop ∨ ¬ s.sched.running then s
  else
    let budget := match s.sched.lenSel with | 1 => 24 | 2 => 96 | _ => 48
    let (b, t) := admitAdmin 2 budget s
    let qs := ((t.nvme.sqs.map (·.qid)).filter (fun q => q != 0)).mergeSort (· ≤ ·)
    let (b, t) := admitPasses budget (seatOrder (s.planTurn % 4095) qs) b t
    heldCounts (t.onSched fun c => { c with admitPlanned := budget - b })

/-! ### Writes (R131 to R137) -/

/-- What a write checks of its protection information (R348). -/
def writeCheck (c : Cmd) (i : Nat) : PiCheck := readCheck c i

/-- The PENDING line of a sector is taken (R131, R132). -/
def pendingLine (c : Cmd) (a : Arr) (v : Volume) (i : Nat) (data : Sector) (pi : Bytes) (s : State) : State :=
  let lba := c.lba a i
  let d := a.descAt lba
  let q := roleOf d lba
  addLine ((q + sliceOf d lba + stripeOf d lba) % max s.chanCount 1)
    { st := .pending, array := a.id, lba := lba, volume := v.id, seq := c.seq, pi := pi, data := data, sqid := c.sqid, cid := c.e.cid,
      idx := i, count := c.nlb } s

/-- HOST_DATA_LANDED: a sector of write data lands, is checked or given protection information, and takes its line (R133). -/
def dataLanded (q cid i : Nat) (data : Sector) (pi : Bytes) (s : State) : State :=
  if ¬ s.ep.reqs.any (fun r => r.2 == .writeData q cid i) then s
  else
    let t := endRequest (.writeData q cid i) s
    match t.cmd q cid with
    | none => t
    | some c => match t.array c.array with
      | none => t
      | some a => match a.volume c.volume with
        | none => t
        | some v =>
          if bit c.e.cdw12 29 then
            pendingLine c a v i (trimZeros data) (piOf v.lbaf data (c.e.cdw15 % 65536) (refOf v (refTagOf c.e + i))) t
          else match piCheck v data pi (writeCheck c i) with
            | some st => cmdFail q cid st (t.onNcnt fun n => { n with piErrors := bump n.piErrors })
            | none => pendingLine c a v i (trimZeros data) (pi.take (piSize v.lbaf)) t
def execHostDataLanded (sqid cid sector : Nat) (data : Sector) (pi : Bytes) (s : State) : Out :=
  done s (dataLanded sqid cid sector data pi s)

/-- A command of an opcode, admitted and not yet started. -/
def State.fresh (s : State) (q cid opc : Nat) : Option Cmd :=
  s.nvme.admitted.find? (fun c => c.sqid == q && c.e.cid == cid && c.e.opc == opc && c.stage == .admitted && q != 0)

/-- A command that passed its checks as it was admitted starts; one that did not ends with their status (R346, R352). -/
def startIo (c : Cmd) (go : State → State) (s : State) : State :=
  match c.error with
  | some st => cmdFail c.sqid c.e.cid st (if st = scNotReady then s.onNcnt fun n => { n with nsNotReady := bump n.nsNotReady } else s)
  | none => go (onCmd c.sqid c.e.cid (fun x => { x with stage := .running }) s)

/-- WRITE: the kiln car fetches the data (R133, R306). -/
def writeGo (c : Cmd) (s : State) : State :=
  (List.range c.nlb).foldl (fun t i => hostRead 0 (.writeData c.sqid c.e.cid i) t) s
def execWrite (sqid cid : Nat) (s : State) : Out :=
  done s (match s.fresh sqid cid 1 with | some c => startIo c (writeGo c) s | none => s)

/-- WRITE_ZEROES: zero data with generated protection information, and no host transfer (R349, R351). -/
def zeroesGo (c : Cmd) (s : State) : State :=
  match s.array c.array with
  | none => s
  | some a => match a.volume c.volume with
    | none => s
    | some v => (List.range c.nlb).foldl (fun t i =>
        pendingLine c a v i [] (piOf v.lbaf [] (c.e.cdw15 % 65536) (refOf v (refTagOf c.e + i))) t) s
def execWriteZeroes (sqid cid : Nat) (s : State) : Out :=
  done s (match s.fresh sqid cid 8 with | some c => startIo c (zeroesGo c) s | none => s)

/-- Every sector of a write has both copies of its line written, and the twin has acknowledged what it must (R134). -/
def mayCommit (s : State) (c : Cmd) : Bool :=
  let ls := s.sag.lines.filter (fun l => l.st == .pending && l.sqid == c.sqid && l.cid == c.e.cid)
  c.isWrite && c.stage == .running && 0 < c.nlb && ls.length == c.nlb && ls.all (·.written) &&
  (c.twinWait == [] || match s.array c.array with
    | some a => match a.volume c.volume with
      | some v => !volTwinRequired v || s.twinLost a
      | none => true
    | none => true)

/-- The twin, and a remote receiver, are told of a line whose two copies are written (R246, R250). -/
def mirrorLine (l : Line) (s : State) : State :=
  match s.array l.array with
  | none => s
  | some a =>
    let key := arrayKey a.body.uid
    let far := ((a.volume l.volume).bind (s.mirrorNode a)).isSome
    if ¬ s.mirrors key ∧ ¬ far then s
    else
      let seq := s.twin.twinSeq
      let gen := ((s.cmd l.sqid l.cid).bind (fun c => (c.waits.find? (fun w => w.2.1 == stripeOf (a.descAt l.lba) l.lba)).map (fun w => w.2.2))).getD 0
      let m : SlipLine := { key := key, lba := l.lba, volume := l.volume, index := l.idx, count := l.count, intentGen := gen, admitSeq := l.seq, pi := l.pi, data := l.data }
      let t := remoteLine a s.twinSide seq m (onLines (fun x => x.no == l.no) (fun x => { x with twinSeq := seq }) (tookTwinSeq s))
      if s.mirrors key then slipQueue 2 key seq l.seq (.line m seq) (onCmd l.sqid l.cid (fun c => { c with twinWait := c.twinWait ++ [seq] }) t) else t

/-- SAGGAR_PIECE_COMPLETE: both copies of a PENDING line are written, or a line has been rewritten to a new line (R127, R134). -/
def saggarPiece (n : Nat) (s : State) : State :=
  match s.lineAt n with
  | none => s
  | some l =>
    if ¬ l.granted then s
    else if s.sag.rewrites.contains n then
      match s.freeLine (s.primChan n) with
      | some m => (onLines (fun x => x.no == n) (fun x => { x with no := m, prim := true, pair := true, granted := false }) s).onSag
          fun g => { g with rewrites := g.rewrites.filter (· != n) }
      | none => s
    else if l.st = .pending ∧ ¬ l.written then
      mirrorLine l (onCmd l.sqid l.cid (fun c => { c with landed := addOnce l.idx c.landed })
        (onLines (fun x => x.no == n) (fun x => { x with written := true, granted := false }) s))
    else s
def execSaggarPieceComplete (line : Nat) (s : State) : Out := done s (saggarPiece line s)

/-! ### Reads (R137, R146) -/

/-- A read of a sector that the saggar does not hold is a miss: it is read from its member, or reconstructed (R146, R201). -/
def readMiss (c : Cmd) (a : Arr) (i lba : Nat) (s : State) : State :=
  let d := a.descAt lba
  let n := stripeOf d lba
  let q := if isMirror d then (mirrorCopy d n (s.erasures a d n)).getD 0 else roleOf d lba
  let id := s.arr.nextJob
  let t := onCmd c.sqid c.e.cid (fun x => { x with fetching := addOnce i x.fetching }) s
  let t := t.onSag fun g => { g with missSectors := bump g.missSectors }
  sliceGo id 0 8 (addJob { kind := .hostRead, array := a.id, stripe := n, dg := d.gen, intentGen := q, sqid := c.sqid, cid := c.e.cid,
                           sector := i, slices := [{ o := sliceOf d lba }] } t)

/-- One sector of a read goes on, when no earlier overlapping write is uncommitted (R137). -/
def serveSector (key : Nat × Nat) (i : Nat) (s : State) : State :=
  match s.cmd key.1 key.2 with
  | none => s
  | some c => match s.array c.array with
    | none => s
    | some a => match a.volume c.volume with
      | none => s
      | some v =>
        let lba := c.lba a i
        if c.fetching.contains i ∨ c.arrived.any (fun x => x.1 == i) ∨ ¬ c.todo.contains i ∨
            s.nvme.admitted.any (fun w => w.uncommitted && w.seq < c.seq && w.array == a.id && (w.lbas a).contains lba) then s
        else match s.version a.id lba c.seq with
          | some l =>
            if ¬ l.prim ∧ ¬ l.pair ∧ l.st ≠ .clean then cmdFail c.sqid c.e.cid scUnrecovered s
            else
            let t := onLines (fun x => x.no == l.no) (fun x => { x with stamp := s.sag.nextStamp })
              (s.onSag fun g => { g with hitSectors := bump g.hitSectors, nextStamp := g.nextStamp + 1 })
            if l.volume ≠ c.volume then arriveZeros c.sqid c.e.cid i v t else arriveSector c.sqid c.e.cid i v l.data l.pi t
          | none => if c.stage = .running then readMiss c a i lba s else s

/-- Every sector of a read that can go on does. -/
def serveRead (c : Cmd) (s : State) : State := c.todo.foldl (fun t i => serveSector (c.sqid, c.e.cid) i t) s
/-- Every admitted Read and Verify goes on. -/
def serveReads (s : State) : State :=
  (s.nvme.admitted.filter (fun c => c.sqid != 0 && (c.e.opc == 2 || c.e.opc == 0x0C) && (c.stage == .running || c.stage == .admitted))).foldl
    (fun t c => serveRead c t) s

/-- READ (R146). -/
def readGo (c : Cmd) (s : State) : State := serveRead c s
def execRead (sqid cid : Nat) (s : State) : Out :=
  done s (match s.fresh sqid cid 2 with | some c => startIo c (readGo c) s | none => s)
/-- VERIFY: reads and checks without a transfer (R349, R351). -/
def verifyGo (c : Cmd) (s : State) : State :=
  let t := serveRead c s
  if ((t.cmd c.sqid c.e.cid).map (fun x => x.todo == [])).getD false then cmdReady c.sqid c.e.cid 0 0 t else t
def execVerify (sqid cid : Nat) (s : State) : Out :=
  done s (match s.fresh sqid cid 0x0C with | some c => startIo c (verifyGo c) s | none => s)

/-- DATASET_MANAGEMENT: advisory, no effect on data (R351). -/
def dsmGo (c : Cmd) (s : State) : State := cmdReady c.sqid c.e.cid 0 0 s
def execDatasetManagement (sqid cid : Nat) (s : State) : Out :=
  done s (match s.fresh sqid cid 9 with | some c => startIo c (dsmGo c) s | none => s)

/-- A burst has moved a sector to the host; the read completes after its last byte (R146, R153). -/
def hostBurst (q cid i : Nat) (s : State) : State :=
  match s.cmd q cid with
  | none => s
  | some c => match c.arrived.find? (fun x => x.1 == i) with
    | some (_, data, pi) =>
      if ¬ c.granted.contains i then s
      else
        let t := emit (.hostData q cid i data pi) s
        let t := onCmd q cid (fun x => { x with arrived := x.arrived.filter (fun y => y.1 != i), granted := x.granted.filter (· != i),
                                                todo := x.todo.filter (· != i), landed := addOnce i x.landed }) t
        if c.todo = [i] then cmdReady q cid 0 0 t else t
    | none => s

/-! ### Commit (R134, R137, R151, R162) -/

/-- DIRTY_SECTORS of a record gains a sector; the record is written with the write's other changes (R162). -/
def gainDirty (gen : Nat) (s : State) : State :=
  if s.vault.frozen then s
  else s.onVault fun v => { v with own := mapIf v.own (fun r => r.intentGen == gen) (fun r => { r with dirty := r.dirty + 1 }) }

/-- One line of a write commits: an older DIRTY or CLEAN version is freed, and the line itself when a newer one exists (R131, R137). -/
def commitLine (c : Cmd) (a : Arr) (l : Line) (s : State) : State :=
  let d := a.descAt l.lba
  let n := stripeOf d l.lba
  let key := arrayKey a.body.uid
  let q := roleOf d l.lba
  let s := openRecord key n d.gen (2 ^ (if isMirror d then 0 else q)) s
  let gen := ((s.openRec key n d.gen).map (·.intentGen)).getD 0
  let same (x : Line) : Bool := x.at a.id l.lba && x.no != l.no
  let newer := s.sag.lines.any (fun x => same x && x.st != .pending && decide (c.seq < x.seq))
  let had := s.sag.lines.any (fun x => same x && x.st == .dirty && x.intentGen == gen)
  let t := if a.isLost l.lba then noteLost a.id [l.lba] 0 s else s
  if newer then freeLines (fun x => x.no == l.no) t
  else
    let t := freeLines (fun x => same x && (x.st == .dirty || x.st == .clean) && decide (x.seq < c.seq)) t
    let t := onLines (fun x => x.no == l.no) (fun x => { x with st := .dirty, intentGen := gen }) t
    let t := if had then t else gainDirty gen t
    openGather a.id n d.gen t

/-- A write commits (R134): its lines become DIRTY together. Reads of what it covers, admitted after it, are served first. -/
def commitWrite (c : Cmd) (s : State) : State :=
  match s.array c.array with
  | none => s
  | some a => match a.volume c.volume with
    | none => s
    | some v =>
      let ls := s.sag.lines.filter (fun l => l.st == .pending && l.sqid == c.sqid && l.cid == c.e.cid)
      let t := onCmd c.sqid c.e.cid (fun x => { x with stage := .committed }) s
      let t := onLines (fun l => l.st == .pending && l.sqid == c.sqid && l.cid == c.e.cid) (fun l => { l with st := .dirty }) t
      let t := serveReads t
      let t := ls.foldl (fun u l => commitLine c a l u) t
      let wt := s.writeThrough a v || (bit c.e.cdw12 30 && volFlushToMedia v)
      let st := touches a (ls.map (·.lba))
      let key := arrayKey a.body.uid
      let gens := st.filterMap (fun x => (t.openRec key x.1 x.2.1).map (fun r => (a.id, x.1, r.intentGen)))
      let was (g : Nat) : Nat := ((s.recOf g).map (·.dirty)).getD 0
      let t := gens.foldl (fun u x => if ((u.recOf x.2.2).map (·.dirty)).getD 0 = was x.2.2 then u else writeRec x.2.2 id u) t
      let t := st.foldl (fun u x => if wt ∨ u.stripeWhole a (a.descOf x.2.1) x.1 then readyClose a.id x.1 x.2.1 u else u) t
      if wt then onCmd c.sqid c.e.cid (fun x => { x with waits := gens, twinWait := [] }) t
      else onCmd c.sqid c.e.cid (fun x => { x with stage := .ready 0 0, waits := [], twinWait := [] }) t

/-- Every write that may commits, in admission order (R134, R137). -/
def commitAll (s : State) : State := (s.nvme.admitted.filter (mayCommit s)).foldl (fun t c => commitWrite c t) s

/-! ### Flush (R147) -/

/-- Whether a write belongs to the namespace of a Flush. -/
def flushCovers (f w : Cmd) : Bool := f.e.nsid == 0xFFFFFFFF || (w.array == f.array && w.volume == f.volume)

/-- A Flush goes on: it waits for earlier writes, then with FLUSH_TO_MEDIA for the closes that hold their lines. -/
def flushGo (c : Cmd) (s : State) : State :=
  let before := s.nvme.admitted.any (fun w => w.isWrite && w.seq < c.seq && flushCovers c w &&
    (w.uncommitted || w.stage == .committed))
  if before then s
  else
    let vols := s.arr.arrays.flatMap (fun a => (a.body.volumes.filter (fun v => volFlushToMedia v && (c.e.nsid == 0xFFFFFFFF || (a.id == c.array && v.id == c.volume)))).map (fun v => (a, v)))
    let ls := s.sag.lines.filter (fun l => (l.st == .dirty || l.st == .closing) && decide (l.seq < c.seq) && vols.any (fun x => x.1.id == l.array && x.2.id == l.volume))
    if ls = [] then cmdReady c.sqid c.e.cid 0 0 s
    else
      let t := ls.foldl (fun u l => match u.array l.array with
        | some a => readyClose a.id (stripeOf (a.descAt l.lba) l.lba) (a.descAt l.lba).gen u
        | none => u) s
      onCmd c.sqid c.e.cid (fun x => { x with stage := .committed, waits := ls.foldl (fun w l => if w.any (fun y => y.2.2 == l.intentGen) then w else w ++ [(l.array, 0, l.intentGen)]) [] }) t

/-- FLUSH: it covers what was admitted before it (R147). -/
def execFlush (sqid cid : Nat) (s : State) : Out :=
  done s (match s.fresh sqid cid 0 with | some c => startIo c (flushGo c) s | none => s)

/-- Flushes that wait go on. -/
def flushAll (s : State) : State :=
  (s.nvme.admitted.filter (fun c => c.sqid != 0 && c.e.opc == 0 && c.stage == .running)).foldl (fun t c => flushGo c t) s

/-! ### Completions (R136, R154, R336, R341, R344, R345) -/

/-- DNR is set on every error but those of R357. -/
def statusField (st : Nat) : Nat :=
  if st = 0 ∨ st = scNotReady ∨ st = scInterrupted ∨ st = 0x302 ∨ st = 0x303 then st else st + 16384

/-- Coalescing applies to a vector of an I/O queue (R345). -/
def State.coalesced (s : State) (q v : Nat) : Bool := q != 0 && !s.nvme.feat.coalDisabled.contains v && (s.nvme.feat.coalThr != 0 || s.nvme.feat.coalTime != 0)

/-- An entry is announced on its vector, or waits for coalescing (R345). -/
def announce (q v : Nat) (s : State) : State :=
  if s.coalesced q v then
    let l := s.nvme.unannounced
    let l := if l.any (fun x => x.1 == v) then mapIf l (fun x => x.1 == v) (fun x => (v, x.2.1 + 1, x.2.2)) else l ++ [(v, 1, s.hw.turn)]
    s.onNvme fun n => { n with unannounced := l }
  else signalNvme v s

/-- Host latency kind of a command (R496). -/
def latencyKind (c : Cmd) : Nat := if c.sqid = 0 then 4 else match c.e.opc with | 1 => 2 | 8 => 2 | 0 => 3 | _ => 1

/-- Deletes of submission queues complete after the last command of their queue (R341). -/
def finishDeletes (s : State) : State :=
  (s.nvme.sqs.filter (fun q => q.deleting && !(s.nvme.admitted ++ s.nvme.fetched).any (fun c => c.sqid == q.qid))).foldl
    (fun t q => cmdReady 0 (q.delCid.getD 0) 0 0 (t.onNvme fun n => { n with sqs := n.sqs.filter (fun x => x.qid != q.qid) })) s

/-- SHST is complete when the last admitted command has completed (R336). -/
def finishShutdown (s : State) : State :=
  if s.nvme.shst = 1 ∧ s.nvme.admitted = [] then s.onNvme fun n => { n with shst := 2 } else s

/-- COMPLETION_POST: the entry of a command whose conditions are met is written once, then its vector signals (R344). -/
def postCompletion (q cid : Nat) (s : State) : State :=
  match s.nvme.admitted.find? (fun c => c.sqid == q && c.e.cid == cid && match c.stage with | .ready _ _ => true | _ => false), s.sq q with
  | some c, some x => match c.stage, s.cq x.cqid with
    | .ready dw0 st, some k =>
      if ¬ s.nvme.rdy ∨ ¬ s.cfg.busMaster ∨ s.ep.d3hot ∨ (c.admittedAt = none ∧ k.free = 0) then s
      else
        let t := s.onNvme fun n => { n with
          admitted := n.admitted.erase c
          errorLog := if st = 0 ∨ st = scNotReady then n.errorLog else ((q, cid, statusField st) :: n.errorLog).take 64 }
        let t := onCq k.qid (fun y => { y with tail := (y.tail + 1) % max y.size 1, phase := if y.tail + 1 = y.size then !y.phase else y.phase,
                                               used := y.used + 1, reserved := if c.admittedAt = none then y.reserved else y.reserved - 1 }) t
        let t := emit (.cqe k.qid q cid dw0 (statusField st) x.head k.phase) t
        let t := if c.admittedAt = none then t else sample 0x0101 (latencyKind c) 0 ((s.hw.turn - c.admitTurn) * s.turnNs / 1000) t
        finishShutdown (finishDeletes (if k.ien then announce k.qid k.iv t else t))
    | _, _ => s
  | _, _ => s
def execCompletionPost (sqid cid : Nat) (s : State) : Out := done s (postCompletion sqid cid s)

/-- COALESCING_TIMER: the vector is due at the next boundary (R345). -/
def execCoalescingTimer (vector : Nat) (s : State) : Out :=
  done s (if s.nvme.unannounced.any (fun x => x.1 == vector) then s.onNvme fun n => { n with coalDue := addOnce vector n.coalDue } else s)

/-- Coalesced vectors that are due signal at a boundary (R345). -/
def signalCoalesced (s : State) : State :=
  let due := s.nvme.unannounced.filter (fun x => s.nvme.coalDue.contains x.1 || decide (s.nvme.feat.coalThr + 1 ≤ x.2.1))
  due.foldl (fun t x => signalNvme x.1 t)
    (s.onNvme fun n => { n with unannounced := n.unannounced.filter (fun x => !due.any (fun y => y.1 == x.1)), coalDue := [] })

/-! ### The controller (R333 to R336) -/

/-- Every command of the queue engine is discarded: uncommitted writes leave no trace, committed ones go on closing, and no
completion is posted for them (R135, R154). -/
def discardCommands (s : State) : State :=
  let t := (s.nvme.admitted.filter Cmd.uncommitted).foldl (fun u c => dropWrite c (u.onNvme fun n => { n with admitted := n.admitted.filter (fun x => x.seq != c.seq || x.admittedAt == none) })) s
  let t := t.onNvme fun n => { n with fetched := [], admitted := [], sqs := [], cqs := [], aers := [], events := [], unannounced := [], coalDue := [] }
  (t.arr.jobs.filter (fun j => j.kind == .hostRead)).foldl (fun u j => endJob j.id u) t

/-- The controller resets: EN is 0 and every queue is gone; AQA, ASQ, ACQ and features stay (R335). -/
def controllerReset (s : State) : State :=
  (discardCommands s).onNvme fun n => { n with rdy := false, readying := false, shst := 0, fetchStop := false, feat := { n.feat with queuesSet := false } }

/-- The fields of CC that software writes (R333). -/
def ccMask : Nat := 0x00FFFFF1
def ccEn (v : W32) : Bool := v.getLsbD 0

/-- CC_ENABLE: the controller starts to become ready when CSS, AMS and MPS are valid (R334). The admin queues are those of AQA,
ASQ and ACQ. -/
def ccEnable (v : Nat) (s : State) : State :=
  let ok := v / 16 % 8 = 0 ∧ v / 2048 % 8 = 0 ∧ v / 128 % 16 ≤ 4
  let a := s.nvme.aqa.toNat
  let sqSize := a % 4096 + 1
  let cqSize := a / 65536 % 4096 + 1
  s.onNvme fun n => { n with
    cc := BitVec.ofNat 32 (v &&& ccMask)
    readying := decide ok
    sqs := if ok then [{ qid := 0, size := sqSize, base := n.asq, cqid := 0 }] else n.sqs
    cqs := if ok then [{ qid := 0, size := cqSize, base := n.acq, iv := 0, ien := true }] else n.cqs }
def execCcEnable (value : Nat) (s : State) : Out :=
  done s (if ¬ ccEn s.nvme.cc ∧ bit value 0 then ccEnable value s else s)

/-- CONTROLLER_READY: RDY is set, unless CFS is, once the control complex runs and not in recovery boot (R334, R467). -/
def execControllerReady (s : State) : Out :=
  done s (if s.nvme.readying ∧ ¬ s.nvme.cfs ∧ s.sec.bootStep = 6 then s.onNvme fun n => { n with rdy := true, readying := false } else s)

/-- CC_DISABLE (R335). -/
def execCcDisable (value : Nat) (s : State) : Out :=
  done s (if ccEn s.nvme.cc ∧ ¬ bit value 0 then
    (controllerReset s).onNvme fun n => { n with cc := BitVec.ofNat 32 (value &&& ccMask) } else s)

/-- SHUTDOWN_NOTIFICATION: SHST is in progress, and fetch stops at the next boundary (R336). -/
def execShutdownNotification (value : Nat) (s : State) : Out :=
  done s (if value / 16384 % 4 = 1 ∨ value / 16384 % 4 = 2 then
    finishShutdown (s.onNvme fun n => { n with cc := BitVec.ofNat 32 (value &&& ccMask), shst := 1 }) else s)

/-- Vectors that are pending and no longer masked signal (R312, R333). -/
def signalUnmasked (m : W32) (s : State) : State :=
  let vs := s.cfg.pending.filter (fun v => m.getLsbD (if s.cfg.irqMode = 2 then v % 2 ^ s.cfg.mme else v % 32))
  vs.foldl (fun t v => signalNvme v t) (s.onCfg fun c => { c with pending := c.pending.filter (fun v => !vs.contains v) })

/-- INTMS_WRITE, INTMC_WRITE: in MSI-X mode they have no effect (R333, R345). -/
def execIntmsWrite (value : Nat) (s : State) : Out :=
  done s (if s.cfg.irqMode = 3 then s else s.onNvme fun n => { n with intMask := n.intMask ||| BitVec.ofNat 32 value })
def execIntmcWrite (value : Nat) (s : State) : Out :=
  done s (if s.cfg.irqMode = 3 then s else
    signalUnmasked (BitVec.ofNat 32 value) (s.onNvme fun n => { n with intMask := n.intMask &&& ~~~(BitVec.ofNat 32 value) }))

/-! ### Registers (R333, R359) -/

/-- CSTS (R333). -/
def cstsReg (s : State) : Nat := flag s.nvme.rdy 0 + flag s.nvme.cfs 1 + s.nvme.shst * 4

/-- A 32-bit read of BAR0; reserved space reads zero (R333). -/
def bar0Reg (off : Nat) (s : State) : Nat :=
  match off with
  | 0x00 => 0x0400FFFF + 65536
  | 0x04 => 0x20 + 4 * 2 ^ 20
  | 0x08 => 0x00020000
  | 0x0C => s.nvme.intMask.toNat
  | 0x10 => s.nvme.intMask.toNat
  | 0x14 => s.nvme.cc.toNat
  | 0x1C => cstsReg s
  | 0x24 => s.nvme.aqa.toNat
  | 0x28 => u32 s.nvme.asq
  | 0x2C => s.nvme.asq / 2 ^ 32
  | 0x30 => u32 s.nvme.acq
  | 0x34 => s.nvme.acq / 2 ^ 32
  | 0x68 => 0x00040004
  | _ => 0

/-- A write of a BAR0 register that has no row of its own: CC with EN unchanged, AQA, ASQ, ACQ (R333). -/
def bar0Write (off v : Nat) (s : State) : State :=
  s.onNvme fun n => match off with
    | 0x14 => if bit v 0 = ccEn n.cc then { n with cc := BitVec.ofNat 32 (v &&& ccMask) } else n
    | 0x24 => { n with aqa := BitVec.ofNat 32 (v &&& 0x0FFF0FFF) }
    | 0x28 => { n with asq := n.asq / 2 ^ 32 * 2 ^ 32 + v / 4096 * 4096 }
    | 0x2C => { n with asq := u32 n.asq + v * 2 ^ 32 }
    | 0x30 => { n with acq := n.acq / 2 ^ 32 * 2 ^ 32 + v / 4096 * 4096 }
    | 0x34 => { n with acq := u32 n.acq + v * 2 ^ 32 }
    | _ => n

/-- The queue engine block (R359). -/
def qeReg (off : Nat) (s : State) : Option Nat :=
  match off with
  | 0x000 => some ((s.nvme.sqs.filter (fun q => q.qid != 0)).length % 4096)
  | 0x004 => some ((s.nvme.cqs.filter (fun q => q.qid != 0)).length % 4096)
  | 0x008 => some (s.nvme.fetched.length)
  | 0x00C => some s.ncnt.admitted
  | 0x010 => some s.ncnt.cqFullHeld
  | 0x014 => some s.ncnt.piErrors
  | 0x018 => some s.ncnt.piRegenerated
  | 0x01C => some s.ncnt.cidConflicts
  | 0x020 => some s.ncnt.doorbellErrors
  | 0x024 => some s.ncnt.abortsDone
  | 0x028 => some s.ncnt.nsNotReady
  | _ => none

/-- The RC registers of the queue engine cleared by a read. -/
def qeClear (off : Nat) (s : State) : State :=
  s.onNcnt fun c => match off with
    | 0x00C => { c with admitted := 0 }
    | 0x010 => { c with cqFullHeld := 0 }
    | 0x014 => { c with piErrors := 0 }
    | 0x018 => { c with piRegenerated := 0 }
    | 0x01C => { c with cidConflicts := 0 }
    | 0x020 => { c with doorbellErrors := 0 }
    | 0x024 => { c with abortsDone := 0 }
    | 0x028 => { c with nsNotReady := 0 }
    | _ => c

end Sys2Proof.Machine
end

