-- ==== Sys2Proof/Machine/NvmeAdmin.lean ====
section
/-! DEFINITION. Admin commands (R338, R341, R342, R350, R353 to R356). Where the spec names a field of a log page or of Identify,
its place is that of the NVM Express specification the chapter follows (log entry 13). -/
namespace Sys2Proof.Machine

/-- An admitted admin command of an opcode that has not been answered. -/
def State.freshAdmin (s : State) (cid opc : Nat) : Option Cmd :=
  s.nvme.admitted.find? (fun c => c.sqid == 0 && c.e.cid == cid && c.e.opc == opc && c.stage == .admitted)

/-- An admin row's meaning: nothing where no such command waits. -/
def adminRun (cid opc : Nat) (act : Cmd → State → State) (s : State) : State :=
  match s.freshAdmin cid opc with | some c => act c s | none => s

/-- An admin command answers data to host memory, cut to the length asked for. -/
def answerData (cid : Nat) (data : Bytes) (s : State) : State := cmdReady 0 cid 0 0 (emit (.adminData cid data) s)

/-! ### Queues (R338, R341) -/

/-- QID and size of a Create command. -/
def newQid (e : SqEntry) : Nat := e.cdw10 % 65536
def newSize (e : SqEntry) : Nat := e.cdw10 / 65536 % 65536 + 1

/-- A queue's identifier is usable: 1 to 4,095, within the count granted, and new. -/
def qidOk (granted : Nat) (exists_ : Bool) (q : Nat) : Bool := 1 ≤ q && q ≤ 4095 && q ≤ granted && !exists_

/-- IV of a completion queue in the interrupt mode in force. -/
def ivOk (s : State) (iv : Nat) : Bool :=
  match s.cfg.irqMode with | 3 => iv ≤ 2047 | 2 => iv < 2 ^ s.cfg.mme | _ => iv == 0

/-- CREATE_IO_COMPLETION_QUEUE, its checks in the order of R338. -/
def createCq (c : Cmd) (s : State) : State :=
  let q := newQid c.e
  let iv := c.e.cdw11 / 65536
  let st := if ¬ qidOk s.nvme.feat.ncq (s.cq q).isSome q then 0x101
    else if newSize c.e < 2 then 0x102
    else if ¬ bit c.e.cdw11 0 ∨ s.nvme.cc.toNat / 2 ^ 20 % 16 ≠ 4 then scInvalidField
    else if ¬ ivOk s iv then 0x108 else 0
  if st ≠ 0 then cmdFail 0 c.e.cid st s
  else
    let base := match c.e.dptr with | .prp p _ => p | _ => 0
    cmdReady 0 c.e.cid 0 0 (s.onNvme fun n => { n with cqs := n.cqs ++ [{ qid := q, size := newSize c.e, base := base, iv := iv, ien := bit c.e.cdw11 1 }] })
def execCreateIoCompletionQueue (cid : Nat) (s : State) : Out := done s (adminRun cid 0x05 createCq s)

/-- CREATE_IO_SUBMISSION_QUEUE, its checks in the order of R338. QPRIO is ignored. -/
def createSq (c : Cmd) (s : State) : State :=
  let q := newQid c.e
  let k := c.e.cdw11 / 65536
  let st := if ¬ qidOk s.nvme.feat.nsq (s.sq q).isSome q then 0x101
    else if newSize c.e < 2 then 0x102
    else if ¬ bit c.e.cdw11 0 ∨ s.nvme.cc.toNat / 2 ^ 16 % 16 ≠ 6 then scInvalidField
    else if k = 0 ∨ (s.cq k).isNone then 0x100 else 0
  if st ≠ 0 then cmdFail 0 c.e.cid st s
  else
    let base := match c.e.dptr with | .prp p _ => p | _ => 0
    cmdReady 0 c.e.cid 0 0 (s.onNvme fun n => { n with sqs := n.sqs ++ [{ qid := q, size := newSize c.e, base := base, cqid := k }] })
def execCreateIoSubmissionQueue (cid : Nat) (s : State) : Out := done s (adminRun cid 0x01 createSq s)

/-- DELETE_IO_SUBMISSION_QUEUE: fetched commands end with Command Aborted due to SQ Deletion; fetch stops at the next boundary, and the Delete
completes after the last completion of the queue (R341). -/
def deleteSq (c : Cmd) (s : State) : State :=
  let q := newQid c.e
  if q = 0 ∨ (s.sq q).isNone then cmdFail 0 c.e.cid 0x101 s
  else
    let t := onSq q (fun x => { x with deleting := true, delCid := some c.e.cid }) (onCmd 0 c.e.cid (fun x => { x with stage := .running }) s)
    finishDeletes ((t.nvme.fetched.filter (fun x => x.sqid == q)).foldl (fun u x => completeEarly x scSqDeletion u) t)
def execDeleteIoSubmissionQueue (cid : Nat) (s : State) : Out := done s (adminRun cid 0x00 deleteSq s)

/-- DELETE_IO_COMPLETION_QUEUE: refused while a submission queue is attached (R338). -/
def deleteCq (c : Cmd) (s : State) : State :=
  let q := newQid c.e
  if q = 0 ∨ (s.cq q).isNone then cmdFail 0 c.e.cid 0x101 s
  else if s.nvme.sqs.any (fun x => x.cqid == q) then cmdFail 0 c.e.cid 0x10C s
  else cmdReady 0 c.e.cid 0 0 (s.onNvme fun n => { n with cqs := n.cqs.filter (fun x => x.qid != q) })
def execDeleteIoCompletionQueue (cid : Nat) (s : State) : Out := done s (adminRun cid 0x04 deleteCq s)

/-- ABORT: resolved at admission; its result is answered (R342). -/
def abortEnd (c : Cmd) (s : State) : State :=
  match c.error with
  | some st => cmdReady 0 c.e.cid 0 st s
  | none => cmdReady 0 c.e.cid (if c.todo = [] then 0 else 1) 0 s
def execAbortCmd (cid : Nat) (s : State) : Out := done s (adminRun cid 0x08 abortEnd s)

/-- ASYNCHRONOUS_EVENT_REQUEST: four wait; a fifth is refused; a waiting event is reported at once (R350, R356). -/
def aerGo (c : Cmd) (s : State) : State :=
  if 4 ≤ s.nvme.aers.length then cmdFail 0 c.e.cid 0x105 s
  else
    let t := onCmd 0 c.e.cid (fun x => { x with stage := .running }) s
    match t.nvme.events with
    | e :: es => cmdReady 0 c.e.cid (e.1 + e.2.1 * 256 + e.2.2 * 65536) 0 (t.onNvme fun n => { n with events := es })
    | [] => t.onNvme fun n => { n with aers := n.aers ++ [c.e.cid] }
def execAsynchronousEventRequest (cid : Nat) (s : State) : Out := done s (adminRun cid 0x0C aerGo s)

/-! ### Features (R353) -/

def featureIds : List Nat := [0x01, 0x02, 0x04, 0x07, 0x08, 0x09, 0x0A, 0x0B]

/-- SET_FEATURES: the new value, Dword 0 and status. -/
def setFeature (fid v : Nat) (f : Features) : Features × Nat × Nat :=
  match fid with
  | 0x01 => ({ f with arbitration := v % 8 }, 0, 0)
  | 0x02 => (f, 0, if v % 32 = 0 then 0 else scInvalidField)
  | 0x04 =>
    if v / 65536 % 16 ≠ 0 ∨ 1 < v / 2 ^ 20 % 4 then (f, 0, scInvalidField)
    else if v / 2 ^ 20 % 4 = 1 then ({ f with tempUnder := v % 65536 }, 0, 0) else ({ f with tempOver := v % 65536 }, 0, 0)
  | 0x07 =>
    if f.queuesSet then (f, 0, 0x00C)
    else if v % 65536 = 65535 ∨ v / 65536 = 65535 then (f, 0, scInvalidField)
    else
      let a := min (v % 65536) 4094
      let b := min (v / 65536 % 65536) 4094
      ({ f with nsq := a + 1, ncq := b + 1, queuesSet := true }, a + b * 65536, 0)
  | 0x08 => ({ f with coalThr := v % 256, coalTime := v / 256 % 256 }, 0, 0)
  | 0x09 =>
    let iv := v % 65536
    if 2047 < iv then (f, 0, scInvalidField)
    else ({ f with coalDisabled := if bit v 16 then addOnce iv f.coalDisabled else f.coalDisabled.filter (· != iv) }, 0, 0)
  | 0x0A => ({ f with atomicity := v % 2 }, 0, 0)
  | _ => ({ f with aecHealth := v % 256, aecNs := bit v 8, aecAna := bit v 11 }, 0, 0)

/-- SET_FEATURES (R353): a Set with SV set cannot be saved. -/
def setFeaturesGo (c : Cmd) (s : State) : State :=
  let fid := c.e.cdw10 % 256
  if ¬ featureIds.contains fid then cmdFail 0 c.e.cid scInvalidField s
  else if bit c.e.cdw10 31 then cmdFail 0 c.e.cid 0x10D s
  else
    let (f, dw0, st) := setFeature fid c.e.cdw11 s.nvme.feat
    if st ≠ 0 then cmdFail 0 c.e.cid st s else cmdReady 0 c.e.cid dw0 0 (s.onNvme fun n => { n with feat := f })
def execSetFeatures (cid : Nat) (_data : Bytes) (s : State) : Out := done s (adminRun cid 0x09 setFeaturesGo s)

/-- The value a feature reads as. -/
def featureValue (fid dw11 : Nat) (f : Features) : Nat :=
  match fid with
  | 0x01 => f.arbitration
  | 0x04 => if dw11 / 2 ^ 20 % 4 = 1 then f.tempUnder else f.tempOver
  | 0x07 => (f.nsq - 1) + (f.ncq - 1) * 65536
  | 0x08 => f.coalThr + f.coalTime * 256
  | 0x09 => dw11 % 65536 + flag (f.coalDisabled.contains (dw11 % 65536)) 16
  | 0x0A => f.atomicity
  | 0x0B => f.aecHealth + flag f.aecNs 8 + flag f.aecAna 11
  | _ => 0

/-- GET_FEATURES: SEL 0 current, 1 default, 2 saved (equal to default), 3 capabilities: changeable, not saveable (R350, R353). -/
def getFeaturesGo (c : Cmd) (s : State) : State :=
  let fid := c.e.cdw10 % 256
  let sel := c.e.cdw10 / 256 % 8
  if ¬ featureIds.contains fid ∨ 3 < sel ∨ (fid = 0x09 ∧ 2047 < c.e.cdw11 % 65536) then cmdFail 0 c.e.cid scInvalidField s
  else
    let v := match sel with
      | 0 => featureValue fid c.e.cdw11 s.nvme.feat
      | 3 => 4
      | _ => featureValue fid c.e.cdw11 {}
    cmdReady 0 c.e.cid v 0 s
def execGetFeatures (cid : Nat) (s : State) : Out := done s (adminRun cid 0x0A getFeaturesGo s)

/-! ### Identify (R355) -/

/-- Fields laid at their offsets over zeros. -/
def layout (size : Nat) (fs : List (Nat × Bytes)) : Bytes := padTo size (fs.foldl (fun b f => putBytes b f.1 f.2) [])

/-- One digit in hexadecimal. -/
def hexDigit (upper : Bool) (n : Nat) : Byte := BitVec.ofNat 8 (if n < 10 then 48 + n else (if upper then 55 else 87) + n)
/-- Bytes in hexadecimal. -/
def hexBytes (upper : Bool) (b : Bytes) : Bytes := b.flatMap (fun x => [hexDigit upper (x.toNat / 16), hexDigit upper (x.toNat % 16)])
/-- A DEVICE_ID written as a UUID. -/
def uuidText (b : Bytes) : Bytes :=
  hexBytes false (slice b 0 4) ++ ascii "-" ++ hexBytes false (slice b 4 2) ++ ascii "-" ++ hexBytes false (slice b 6 2) ++ ascii "-" ++
  hexBytes false (slice b 8 2) ++ ascii "-" ++ hexBytes false (slice b 10 6)

/-- Subsystem IDs in force (R302, R385). -/
def State.subVendorId (s : State) : Nat := s.pol.subVendor.getD (Config.flashSubVendor.getD 0x1E7B)
def State.subsystemId (s : State) : Nat := s.pol.subId.getD (Config.flashSubId.getD 0x7480)

/-- The DEVICE_ID of side 0, or of this device when unpaired. -/
def State.side0Id (s : State) : Bytes :=
  match s.twin.partner with | some p => if s.twinSide = 0 then deviceIdBytes else leBytes 16 p.toNat | none => deviceIdBytes

/-- Control firmware revision as text. -/
def State.fwText (s : State) : Bytes := hexBytes true (beBytes 4 s.sec.fwVersion)

/-- Spaces to the right of a text. -/
def padSpaces (k : Nat) (b : Bytes) : Bytes := (b ++ List.replicate k 0x20).take k

/-- Identify Controller. -/
def identifyController (s : State) : Bytes :=
  layout 4096 [(0, leBytes 2 0x1E7B), (2, leBytes 2 s.subVendorId), (4, hexBytes true (deviceIdBytes.take 10)), (24, padSpaces 40 (ascii "Roltitik RTK7480")),
    (64, padSpaces 8 s.fwText), (76, [0x0A]), (77, [8]), (78, leBytes 2 (if s.twin.partner = none then 1 else s.twinSide + 1)), (80, leBytes 4 0x00020000),
    (84, leBytes 4 900000), (88, leBytes 4 2000000), (92, leBytes 4 0x00000900), (256, leBytes 2 0), (258, [3, 3]), (261, [2, 63, 0]),
    (266, leBytes 2 378), (268, leBytes 2 383), (342, [10, 0x5D]), (344, leBytes 4 64), (348, leBytes 4 64), (512, [0x66, 0x44]), (516, leBytes 4 1024),
    (520, leBytes 2 0x008C), (525, [0]), (526, leBytes 2 255), (528, leBytes 2 255), (536, leBytes 4 1),
    (768, padTo 256 (ascii "nqn.2014-08.org.nvmexpress:uuid:" ++ uuidText s.side0Id)), (2048, leBytes 2 17500)]

/-- Identify Namespace: an inactive identifier reads zeros (R346, R355). -/
def identifyNamespace (s : State) (nsid : Nat) : Bytes :=
  match s.volumeOf nsid with
  | none => leBytes 4096 0
  | some (a, v) =>
    layout 4096 [(0, leBytes 8 v.capacity), (8, leBytes 8 v.capacity), (16, leBytes 8 v.capacity), (25, [2, BitVec.ofNat 8 v.lbaf, 2]),
      (28, [if piSize v.lbaf = 0 then 0 else 0x15 + 0x08]), (29, [BitVec.ofNat 8 (if piSize v.lbaf = 0 then 0 else 8 + (if volType3 v then 3 else 1))]),
      (30, [if a.shared then 1 else 0]), (34, leBytes 2 255), (36, leBytes 2 255), (92, leBytes 4 (a.id + 1)), (104, leBytes 16 v.nguid),
      (128, leBytes 4 (12 * 65536)), (132, leBytes 4 (8 + 12 * 65536)), (136, leBytes 4 (16 + 12 * 65536))]

/-- Active namespace identifiers above one, in order. -/
def activeList (s : State) (above : Nat) : Bytes :=
  padTo 4096 ((((List.range 1025).filter (fun n => above < n && n != 0 && (s.volumeOf n).isSome)).map (leBytes 4)).flatten)

/-- IDENTIFY (R355). -/
def identifyGo (c : Cmd) (s : State) : State :=
  let cns := c.e.cdw10 % 256
  let csi := c.e.cdw11 / 2 ^ 24
  let bad := c.e.nsid = 0xFFFFFFFF
  match cns with
  | 0x00 => if bad then cmdFail 0 c.e.cid scInvalidNs s else answerData c.e.cid (identifyNamespace s c.e.nsid) s
  | 0x01 => answerData c.e.cid (identifyController s) s
  | 0x02 => if bad then cmdFail 0 c.e.cid scInvalidNs s else answerData c.e.cid (activeList s c.e.nsid) s
  | 0x03 => if bad then cmdFail 0 c.e.cid scInvalidNs s else
      answerData c.e.cid (match s.volumeOf c.e.nsid with
        | some (_, v) => padTo 4096 ([2, 16, 0, 0] ++ leBytes 16 v.nguid ++ [4, 1, 0, 0, 0])
        | none => leBytes 4096 0) s
  | 0x05 => if csi ≠ 0 then cmdFail 0 c.e.cid scInvalidField s else if bad then cmdFail 0 c.e.cid scInvalidNs s else
      answerData c.e.cid (match s.volumeOf c.e.nsid with
        | some _ => layout 4096 [(20, leBytes 4 (2 * 128))]
        | none => leBytes 4096 0) s
  | 0x06 => if csi ≠ 0 then cmdFail 0 c.e.cid scInvalidField s else answerData c.e.cid (layout 4096 [(1, [8])]) s
  | 0x08 => if bad then cmdFail 0 c.e.cid scInvalidNs s else
      answerData c.e.cid (match s.volumeOf c.e.nsid with
        | some (a, _) => layout 4096 [(1, [if a.shared then 1 else 0]), (4, leBytes 4 (a.id + 1))]
        | none => leBytes 4096 0) s
  | 0x1C => answerData c.e.cid (layout 4096 [(0, [1])]) s
  | _ => cmdFail 0 c.e.cid scInvalidField s
def execIdentify (cid : Nat) (s : State) : Out := done s (adminRun cid 0x06 identifyGo s)

/-! ### Log pages (R354) -/

/-- Pool indices that are FAILED, UNAVAILABLE or REPLACING and not fully relocated; MARGIN is m less their number (R121, R228). -/
def Arr.relocated (a : Arr) (p : Nat) : Bool :=
  let es := a.body.relocs.filter (fun e => e.lost == p)
  es != [] && es.all (fun e => e.state != 1)
def State.shortIndices (s : State) (a : Arr) : Nat :=
  ((List.range a.body.members.length).filter (fun p =>
    let e := a.entry p
    (e.state == 2 || e.state == 3 || !s.healthyAt a p) && !a.relocated p)).length
/-- Some array has MARGIN 0 or below (R225). -/
def State.atRisk (s : State) : Bool := s.arr.arrays.any (fun a => a.service == 2 && decide (a.body.desc.m ≤ s.shortIndices a))

/-- Percentage of spare slots not taken, of an array that has some: those a REBUILDING or REBUILT entry has not taken. -/
def spareLeft (a : Arr) : Option Nat :=
  let d := a.body.desc
  let spare := (d.n - descS d * descW d) * d.rounds
  if spare = 0 then none
  else
    let taken := total ((a.body.relocs.filter (fun e => e.descGen == d.gen)).map (fun e => (e.stop - e.first) * (descS d * descW d) / max d.n 1))
    some ((spare - taken) * 100 / spare)
def State.availableSpare (s : State) : Nat := (leastOf ((s.arr.arrays.filter (fun a => a.service == 2)).filterMap spareLeft)).getD 100

/-- Composite temperature in kelvin: the hottest sensor. -/
def State.composite (s : State) : Nat := ((s.pins.temps.foldl max (-273)) + 273).toNat

/-- Critical warning bits (R354). -/
def State.criticalBits (s : State) : Nat :=
  flag (s.availableSpare < 10) 0 + flag (s.nvme.feat.tempOver ≤ s.composite || s.composite < s.nvme.feat.tempUnder) 1 +
  flag (s.atRisk || s.arr.dataLost) 2 + flag (s.arr.arrays.any (fun a => a.body.readOnly)) 3 + flag (!s.vault.armed) 4

/-- A critical warning bit that becomes set raises a SMART / Health event when its bit of the configuration is set (R356). -/
def healthEvents (s : State) : State :=
  let now := s.criticalBits
  let new (b : Nat) : Bool := bit now b && !bit s.nvme.critical b && bit s.nvme.feat.aecHealth b
  let t := s.onNvme fun n => { n with critical := now }
  let t := if new 2 || new 3 || new 4 then asyncEvent 1 0 2 t else t
  let t := if new 1 then asyncEvent 1 1 2 t else t
  if new 0 then asyncEvent 1 2 2 t else t

/-- A volume was created, deleted or resized (R354, R356). -/
def namespaceChanged (nsid : Nat) (s : State) : State :=
  let t := s.onNvme fun n => { n with changedNs := (addOnce nsid n.changedNs).mergeSort (· ≤ ·) }
  if t.nvme.feat.aecNs then asyncEvent 2 0 4 t else t
/-- An ANA state has changed (R237, R356). -/
def anaChanged (s : State) : State := if s.nvme.feat.aecAna then asyncEvent 2 3 0x0C s else s

/-- SMART / Health Information. -/
def smartPage (s : State) : Bytes :=
  layout 512 [(0, [BitVec.ofNat 8 s.criticalBits]), (1, leBytes 2 s.composite), (3, [BitVec.ofNat 8 s.availableSpare, 10, 0]),
    (112, leBytes 16 s.hw.powerCycle), (128, leBytes 16 (s.hw.opMinutes / 60)), (144, leBytes 16 s.pol.unsafeShutdowns), (160, leBytes 16 s.pol.slicesLostEver)]

/-- ANA state code of NVMe. -/
def anaCode (a : Arr) : Nat := match a.ana with | .optimized => 1 | .inaccessible => 3 | .persistentLoss => 4 | .change => 0xF

/-- Asymmetric Namespace Access: one group per array in service, without descriptors of namespaces when RGO asks. -/
def anaPage (s : State) (rgo : Bool) : Bytes :=
  let as_ := (s.arr.arrays.filter (fun a => a.service != 1)).mergeSort (fun x y => x.id ≤ y.id)
  leBytes 8 0 ++ leBytes 2 as_.length ++ leBytes 6 0 ++ (as_.map (fun a =>
    let ns := if rgo then [] else (a.body.volumes.filter (fun v => v.state == 1)).map (·.nsid)
    leBytes 4 (a.id + 1) ++ leBytes 4 ns.length ++ leBytes 8 0 ++ leBytes 1 (anaCode a) ++ leBytes 15 0 ++ (ns.map (leBytes 4)).flatten)).flatten

/-- The bytes of a supported log page. -/
def logPage (s : State) (lid lsp : Nat) : Option Bytes :=
  match lid with
  | 0x00 => some (layout 1024 ([0, 1, 2, 3, 4, 5, 0x0C].map (fun l => (4 * l, leBytes 4 1))))
  | 0x01 => some (padTo 4096 ((s.nvme.errorLog.map (fun e => padTo 64 (leBytes 8 1 ++ leBytes 2 e.1 ++ leBytes 2 e.2.1 ++ leBytes 2 (e.2.2 * 2)))).flatten))
  | 0x02 => some (smartPage s)
  | 0x03 => some (layout 512 [(0, [if s.sec.bootedB then 2 else 1]), (8, padSpaces 8 (hexBytes true (beBytes 4 s.sec.slotA.m.fwVersion))),
                              (16, padSpaces 8 (hexBytes true (beBytes 4 s.sec.slotB.m.fwVersion)))])
  | 0x04 => some (padTo 4096 ((s.nvme.changedNs.map (leBytes 4)).flatten))
  | 0x05 => some (layout 4096 ((([0, 1, 2, 4, 5, 6, 8, 9, 0xA, 0xC].map (fun o => (4 * o, leBytes 4 1))) ++
                               ([0, 1, 2, 8, 9, 0xC].map (fun o => (1024 + 4 * o, leBytes 4 (if o = 1 ∨ o = 8 then 3 else 1)))))))
  | 0x0C => some (anaPage s (bit lsp 0))
  | _ => none

/-- GET_LOG_PAGE: offset and length honoured; without RAE a read of the changed list clears it (R350, R354). -/
def getLogGo (c : Cmd) (s : State) : State :=
  let lid := c.e.cdw10 % 256
  let lsp := c.e.cdw10 / 256 % 128
  let rae := bit c.e.cdw10 15
  let numd := c.e.cdw10 / 65536 + c.e.cdw11 % 65536 * 65536 + 1
  let off := u32 c.e.cdw12 + u32 c.e.cdw13 * 2 ^ 32
  match logPage s lid lsp with
  | none => cmdFail 0 c.e.cid 0x109 s
  | some b =>
    if off % 4 ≠ 0 ∨ b.length < off then cmdFail 0 c.e.cid scInvalidField s
    else
      let t := if lid = 0x04 ∧ ¬ rae then s.onNvme fun n => { n with changedNs := [] } else s
      answerData c.e.cid (slice b off (4 * numd)) t
def execGetLogPage (cid : Nat) (s : State) : Out := done s (adminRun cid 0x02 getLogGo s)

end Sys2Proof.Machine
end

