-- ==== Sys2Proof/Machine/Rebuild.lean ====
section
/-! DEFINITION. Failure in force (R195), relocation planning (R203), journal members (R169), replacement (R216 to R219), migration
(R220 to R223), background work (R206), and the rebuild registers and commands (R225 to R230). -/
namespace Sys2Proof.Machine

/-! ### Relocation planning (R203) -/

/-- The pool has spare slots (R64). -/
def hasSpare (d : Desc) : Bool := decide (descS d * descW d < d.n)

/-- Pool indices that are FAILED or UNAVAILABLE (R203). -/
def State.unhealthy (s : State) (a : Arr) (b : MarkBody) : List Nat :=
  (List.range b.members.length).filter (fun p => (nth b.members p { state := 2 }).state == 2 || !s.healthyAt { a with body := b } p)

/-- An entry for a FAILED pool index under a descriptor, where a spare slot and a place in the table exist (R102, R203). -/
def planEntry (s : State) (a : Arr) (d : Desc) (p : Nat) (b : MarkBody) : MarkBody :=
  if ¬ hasSpare d ∨ 256 ≤ b.relocs.length ∨ d.n ≤ p ∨ b.relocs.any (fun e => e.lost == p && e.descGen == d.gen) then b
  else { b with relocs := b.relocs ++ [{ seq := b.relocSeqNext, descGen := d.gen, lost := p, state := 1, first := 0, stop := d.rounds,
                                         exclude := addOnce p (s.unhealthy a b) }],
                relocSeqNext := b.relocSeqNext + 1 }

/-- Descriptors that still place data. -/
def liveDescs (b : MarkBody) : List Desc :=
  match b.descNext with
  | some d => if b.migrating then (if 0 < b.migrateLba then [d, b.desc] else [b.desc]) else [b.desc]
  | none => [b.desc]

/-- Entries for one index under every descriptor that places data; while a migration runs, none yet (R203, R222). -/
def planIndex (s : State) (a : Arr) (p : Nat) (b : MarkBody) : MarkBody :=
  if b.migrating ∧ ¬ a.migrationPaused then b else (liveDescs b).foldl (fun b d => planEntry s a d p b) b

/-- FAILED indices without an entry. -/
def unplanned (b : MarkBody) : List Nat :=
  (List.range b.members.length).filter (fun p => (nth b.members p {}).state == 2 && !b.relocs.any (fun e => e.lost == p))

/-- The table is full although an index needs an entry (R102). -/
def tableFull (b : MarkBody) : Bool := 256 ≤ b.relocs.length && (liveDescs b).any (fun d => hasSpare d) && unplanned b != []

/-! ### Journal members (R165, R169) -/

/-- The index that a journal member's place goes to: the lowest healthy one that is not named, local ones first. -/
def State.journalPick (s : State) (a : Arr) (named : List Nat) : Option Nat :=
  let ok := (List.range a.body.members.length).filter (fun p => (a.entry p).state == 1 && s.healthyAt a p && !named.contains p)
  match ok.find? (fun p => !(a.entry p).remote) with
  | some p => some p
  | none => ok.head?

/-- Live records of an array in MRAM. -/
def State.liveRecs (s : State) (a : Arr) : List Rec := s.vault.own.filter (fun r => r.key == arrayKey a.body.uid)

/-- Records cut into ring sectors. -/
def chunk63 : Nat → List Rec → List (List Rec)
  | 0, _ => []
  | k + 1, l => if l = [] then [] else l.take 63 :: chunk63 k (l.drop 63)

/-- A snapshot of every live record goes to a new member's half, from its first sector (R169 step 1). `old` is the index whose
place it takes. -/
def startSnapshot (a : Arr) (old p : Nat) (s : State) : State :=
  match s.memberAt a p with
  | none => s
  | some n =>
    let key := arrayKey a.body.uid
    let h := s.ringHalf
    let (q, _) := s.ringPos key h
    let recs := s.liveRecs a
    let cs := chunk63 (recs.length + 1) recs
    let id := s.arr.nextJob
    let t := addJob { kind := .snapshot, array := a.id, ns := [n.id], fixed := [(old, p)], sector := cs.length } s
    let t := setRingPos key h (q + cs.length) ((s.ringPos key h).2) t
    let t := (List.range cs.length).foldl (fun u i =>
      issue (writeCmd id n.id (256 + h * (n.journal / 2) + i) (plainSectors 1 (ringBytes (q + 1 + i) h key (nth cs i [])))) u) t
    t

/-- The snapshot is written: the member is named by a mark update, and its place in the half is kept (R169 steps 2 and 3). -/
def snapshotDone (j : Job) (s : State) : State :=
  match s.array j.array, j.fixed with
  | some a, [(old, p)] =>
    let half := match s.memberAt a p with | some n => max (n.journal / 2) 1 | none => 1
    let (_, pos) := s.ringPos (arrayKey a.body.uid) s.ringHalf
    let off := (j.sector + half - pos % half) % half
    let t := (endJob j.id s).onVault fun v => { v with ringOff := insert ((j.ns.headD 0)) off v.ringOff }
    startMark a.id (fun b => { b with journalMembers := b.journalMembers.map (fun x => if x = old then p else x) }) [] t
  | _, _ => endJob j.id s

/-- A snapshot's write has ended. -/
def snapshotCmdDone (j : Job) (c : MCmd) (ok : Bool) (s : State) : State :=
  if ¬ ok then endJob j.id (declareFailed c.ns 5 s)
  else if (s.jobCmds j.id) ≠ [] then s else snapshotDone j s

/-- Unnamed entries are filled as soon as an index is healthy and free (R169). -/
def fillJournal (aid : Nat) (s : State) : State :=
  match s.array aid with
  | none => s
  | some a =>
    if a.service ≠ 2 ∨ ¬ a.owner ∨ s.arr.jobs.any (fun j => j.kind == .snapshot && j.array == aid) ∨ (s.markJob aid).isSome ∨ a.persisted.isSome then s
    else
      match (a.body.journalMembers.take (min 4 (a.body.desc.m + 1))).find? (fun p => p == 0xFFFF || a.failed p) with
      | some old => match s.journalPick a a.body.journalMembers with
        | some p =>
          let t := startSnapshot a old p s
          if t.arr.cmds.any (fun c => c.job == s.arr.nextJob) then t
          else match t.job s.arr.nextJob with | some j => snapshotDone j t | none => t
        | none => s
      | none => s

/-! ### A declaration takes effect (R195, R203) -/

/-- Outstanding commands of a declared member end for the pieces they served. -/
def cutCommands (id : Nat) (s : State) : State :=
  let mine := s.arr.cmds.filter (fun c => c.ns == id)
  let t := s.onArr fun a => { a with cmds := mapIf (a.cmds.filter (fun c => c.ns != id || c.sent)) (fun c => c.ns == id) (fun c => { c with job := 0, discard := true }) }
  mine.foldl (fun u c => match u.job c.job with
    | some j =>
      if c.op = .read ∧ c.step = 0 then sliceErased c.job c.slice c.role u
      else match j.kind with
        | .mark => if (u.jobCmds j.id) = [] then (if j.stage = 0 ∧ j.succeeded ≠ [] then markHeaders j u else markEnd j u) else u
        | .dump => dumpDrop j u
        | .reserve => reserveCheck j u
        | .ring => if (u.jobCmds j.id) = [] then ringCmdDone j c false u else u
        | _ => if isClose j.kind then jobStep j.id u else endJob j.id u
    | none => u) t

/-- The mark update that persists a failure: STATE FAILED, its time, an entry when AUTO_REBUILD is ON, and the journal entry
that finds no successor (R86, R92, R169, R203). -/
def failBody (s : State) (a : Arr) (p : Nat) (b : MarkBody) : MarkBody :=
  let b := { b with members := nthMod b.members p (fun e => { e with state := 2, failPc := s.hw.powerCycle, failMin := s.hw.opMinutes }) }
  let b := if b.journalMembers.contains p ∧ (s.journalPick { a with body := b } b.journalMembers).isNone then
      { b with journalMembers := b.journalMembers.map (fun x => if x = p then 0xFFFF else x) } else b
  if s.pol.autoRebuild then planIndex s a p b else b

/-- Mailboxes whose MEMBER_FAIL waits for a pool index (R393). -/
def State.failMailboxes (s : State) (aid p : Nat) : List Nat :=
  (List.range 16).filter (fun j =>
    let m := s.mb j
    m.st == .executing && m.started && m.staged.isNone && m.opcode == 0x0204 && field m.params 0 1 == aid + 1 && field m.params 2 2 == p)

/-- One declaration comes into force. -/
def declareNs (n : Ns) (cause : Nat) (s : State) : State :=
  let s := onNs n.id (fun x => { x with declare := none, failing := some cause }) s
  match s.arr.arrays.find? (fun a => a.body.uid == n.arrayUid) with
  | none => onNs n.id (fun x => { x with failing := none, stale := true }) s
  | some a =>
    let t := onArray a.id (fun x => { x with causes := insert n.poolIndex cause x.causes }) (abandonMark a.id (cutCommands n.id s))
    let base := match t.array a.id with | some x => t.markBase x | none => a.body
    let named := base.journalMembers.contains n.poolIndex
    let b := failBody t a n.poolIndex base
    let t := startMark a.id (failBody t a n.poolIndex) (t.failMailboxes a.id n.poolIndex) t
    let t := if named ∧ ¬ b.journalMembers.contains n.poolIndex then raise { source := 0x140 } t else t
    if tableFull b ∧ s.pol.autoRebuild then raise { source := 0x166 } t else t

/-- Declarations take effect at a boundary (R195). -/
def declareAll (s : State) : State :=
  (s.arr.ns.filterMap (fun n => n.declare.map (fun c => (n, c)))).foldl (fun t x => declareNs x.1 x.2 t) s

/-- A pool index that no namespace holds is FAILED: with cause 8 when recovery misses it, 7 by command (R121 step 7, R393). -/
def failMissing (aid p cause : Nat) (mbs : List Nat) (s : State) : State :=
  match s.array aid with
  | none => s
  | some a =>
    recordArray aid 1 [cause, p, (a.entry p).uid]
      (raise { source := 0x160 } (startMark aid (failBody s a p) mbs (onArray aid (fun x => { x with causes := insert p cause x.causes }) s)))

/-! ### Zeroing (R106) -/

/-- The regions of a member that are made to read as unwritten: DATA and TAG, as first sector and one past the last. -/
def unwrittenRange (n : Ns) : Nat × Nat :=
  (n.dataStart, n.dataStart + n.dataSectors + (if n.ident.fmt = 1 then tagSectors n.dataSectors else 0))

/-- The next Write Zeroes of a namespace, or deallocation where deallocated blocks read as zeros, from sector `lba` up to `stop`. -/
def zeroNext (id nsid lba stop : Nat) (s : State) : State :=
  match s.ns nsid with
  | none => s
  | some n =>
    let i := n.ident
    let blocks := if i.dsmBlocks = 0 then 2 ^ 32 - 1 else i.dsmBlocks
    let lim := if i.deallocZero then (if i.dsmRanges = 0 then 256 else min 256 i.dsmRanges) * blocks
      else if i.wzLimit = 0 then 65536 else min 65536 i.wzLimit
    if stop ≤ lba then s
    else addCmd { ns := nsid, op := if i.deallocZero then .deallocate else .writeZeroes, lba := lba, count := min lim (stop - lba), job := id, cls := 2 } s

/-- A zeroing job over ranges of namespaces. `stage` says what follows: 1 replacement, 2 creation, 3 a migration's start, 4 a
migration's end; `sector` is the pool index of a replacement. -/
def startZero (stage aid sector : Nat) (mb : Option Nat) (body : Option MarkBody) (ranges : List (Nat × Nat × Nat)) (s : State) : State :=
  let id := s.arr.nextJob
  let t := addJob { kind := .zero, array := aid, stage := stage, sector := sector, mb := mb, body := body, ns := ranges.map (·.1),
                    fixed := ranges.map (fun r => (r.1, r.2.2)) } s
  ranges.foldl (fun u r => zeroNext id r.1 r.2.1 r.2.2 u) t

/-! ### Replacement (R216 to R218) -/

/-- The entry of a pool index taken by a replacement member (R216). -/
def replaceBody (n : Ns) (p : Nat) (b : MarkBody) : MarkBody :=
  { b with members := nthMod b.members p (fun e => { e with
      uid := n.ident.uid, state := 3, fmt := n.ident.fmt, remote := n.loc.remote, node := n.loc.node,
      port := if n.loc.remote then 0xFFFF else n.loc.port, dataStart := n.dataStart, dataSectors := n.dataSectors, failPc := 0, failMin := 0 }) }

/-- A namespace takes its place in an array. -/
def joinArray (nsid uid p : Nat) (s : State) : State := onNs nsid (fun n => { n with arrayUid := uid, poolIndex := p }) s

/-- The replacement has been zeroed: the mark update names it, and the direct pass starts at round 0 (R216, R217). -/
def replaceZeroed (j : Job) (s : State) : State :=
  match s.array j.array, s.ns (j.ns.headD 0) with
  | some a, some n =>
    let t := joinArray n.id a.body.uid j.sector (endJob j.id s)
    startMark a.id (replaceBody n j.sector) (j.mb.toList) (onArray a.id (fun x => { x with directRound := insert j.sector 0 x.directRound }) t)
  | _, _ => endJob j.id s

/-- A replacement starts (R216). -/
def startReplace (aid p : Nat) (n : Ns) (mb : Option Nat) (s : State) : State :=
  let r := unwrittenRange n
  startZero 1 aid p mb none [(n.id, r.1, r.2)] s

/-- The member that AUTO_REPLACE takes: the lowest-numbered adopted one in no array that is large enough, local ones first. -/
def State.freeMember (s : State) (need : Nat) : Option Ns :=
  let ok := (s.arr.ns.filter (fun n => n.adopted && n.arrayUid == 0 && n.up && n.exported.isNone && !n.byPartner && decide (need ≤ n.dataSectors) &&
    !s.arr.jobs.any (fun j => j.kind == .zero && j.ns.contains n.id))).mergeSort (fun x y => x.id ≤ y.id)
  match ok.find? (fun n => !n.loc.remote) with
  | some n => some n
  | none => ok.head?

/-- AUTO_REPLACE takes a member for a FAILED index whose entries are all REBUILT, or that can get none (R216). -/
def autoReplace (aid : Nat) (s : State) : State :=
  match s.array aid with
  | none => s
  | some a =>
    if ¬ s.pol.autoReplace ∨ a.service ≠ 2 ∨ ¬ a.owner ∨ (s.markJob aid).isSome ∨ a.persisted.isSome ∨
        s.arr.jobs.any (fun j => j.kind == .zero && j.array == aid) then s
    else
      let ready (p : Nat) : Bool :=
        let es := a.body.relocs.filter (fun e => e.lost == p)
        (a.entry p).state == 2 && (if es = [] then !hasSpare a.body.desc || decide (256 ≤ a.body.relocs.length) else es.all (fun e => e.state == 2))
      match (List.range a.body.members.length).find? ready with
      | some p => match s.freeMember (a.entry p).dataSectors with
        | some n => startReplace aid p n none s
        | none => s
      | none => s

/-- Entries of the tail that meet R101 leave. -/
def trimHome (l : List Reloc) : List Reloc :=
  (l.reverse.dropWhile (fun e => e.state == 4 && decide (e.stop ≤ e.homeRound))).reverse

/-- The stages of a replacement that need a mark update: copy-back begins, an entry is HOME, the index is ACTIVE (R217, R218). -/
def replaceMarks (aid : Nat) (s : State) : State :=
  match s.array aid with
  | none => s
  | some a =>
    if (s.markJob aid).isSome ∨ a.persisted.isSome ∨ a.markWaiting.isSome ∨ ¬ a.owner then s
    else
      (List.range a.body.members.length).foldl (fun t p =>
        if (a.entry p).state ≠ 3 then t
        else
          let es := a.body.relocs.filter (fun e => e.lost == p)
          let direct := decide ((((liveDescs a.body).map (·.rounds)).foldl max 0) ≤ (lookup a.directRound p).getD 0)
          let upd (f : Reloc → Reloc) (t : State) : State := startMark aid (fun b => { b with relocs := mapIf b.relocs (fun e => e.lost == p) f }) [] t
          if es.any (fun e => e.state == 1) then t
          else if direct ∧ es.any (fun e => e.state == 2) then upd (fun e => if e.state = 2 then { e with state := 3, homeRound := 0 } else e) t
          else if es.any (fun e => e.state == 3 && decide (e.stop ≤ (a.progress e).2)) then
            upd (fun e => if e.state = 3 ∧ e.stop ≤ (a.progress e).2 then { e with state := 4, homeRound := e.stop } else e) t
          else if direct ∧ es.all (fun e => e.state == 4 && decide (e.stop ≤ e.homeRound)) then
            startMark aid (fun b => { b with members := nthMod b.members p (fun e => { e with state := 1 }), relocs := trimHome b.relocs }) [] t
          else t) s

/-! ### Work of the background class (R206) -/

/-- A job over every slice of a stripe starts to read. While a slice has more erasures than m that were not found before, the
first such slice is repaired instead (R209, R211). -/
def startStripe (j : Job) (a : Arr) (d : Desc) (er : List Nat) (s : State) : State :=
  let id := s.arr.nextJob
  let sls := (List.range (descSsec d)).map (fun o => Slice.zeroed a d j.stripe { o := o, erased := er })
  match sls.find? (fun x => decide (d.m < x.erased.length)) with
  | some x => startRepair a d j.stripe x (isRebuild j.kind) s
  | none => (List.range (descSsec d)).foldl (fun u k => sliceGo id k 8 u) (addJob { j with slices := sls } s)

/-- Whether an array has background work of a kind in hand. -/
def State.busyWith (s : State) (aid : Nat) (p : JobKind → Bool) : Bool := s.arr.jobs.any (fun j => j.array == aid && p j.kind)

/-- One mending piece starts (R207). -/
def mendOne (m : Nat × Nat × Nat × Nat × Nat) (s : State) : State :=
  let (aid, dg, n, o, q) := m
  match s.array aid with
  | none => s.onArr fun a => { a with mendQueue := a.mendQueue.filter (· != m) }
  | some a =>
    let d := a.descOf dg
    if s.closing aid n d.gen ∨ s.busyWith aid (· == .mend) then s
    else
      let t := s.onArr fun a => { a with mendQueue := a.mendQueue.filter (· != m) }
      match s.readAt a d n q with
      | none => t
      | some p =>
        let er := addOnce q (s.erasures a d n)
        let id := t.arr.nextJob
        let x := Slice.zeroed a d n { o := o, erased := er }
        if d.m < x.erased.length then startRepair a d n x false t
        else sliceGo id 0 8 (addJob { kind := .mend, array := aid, stripe := n, dg := d.gen, fixed := [(q, p)], slices := [{ o := o, erased := er }] } t)

/-- Roles of a stripe that a rebuild piece produces: erasures whose chain ends in an entry in REBUILDING (R204). -/
def State.rebuildRoles (s : State) (a : Arr) (d : Desc) (n : Nat) : List (Nat × Nat) :=
  (s.erasures a d n).filterMap (fun q =>
    let x := stripOf d a.relocs (roundOf d n) (indexOf d n) q
    match x.chain.getLast? with
    | some e => if e.state = 1 ∧ ¬ a.failed x.loc then some (q, x.loc) else none
    | none => none)

/-- The sweep of the lowest entry passes stripes with nothing to do and starts a piece on the next one (R204). -/
def rebuildOne (aid : Nat) : Nat → State → State
  | 0, s => s
  | k + 1, s => match s.array aid with
    | none => s
    | some a =>
      if a.service ≠ 2 ∨ ¬ a.owner ∨ s.busyWith aid isRebuild ∨ s.pol.rateCap * s.turnNs / 1000 < s.arr.rateDebt then s
      else match a.sweepEntry with
        | none => s
        | some e =>
          let d := a.descOf e.descGen
          let r := (a.progress e).1
          let n := r * descS d + a.sweep
          if s.closing aid n d.gen then s
          else match s.rebuildRoles a d n with
            | [] => rebuildOne aid k (if a.sweep + 1 < descS d then onArray aid (fun x => { x with sweep := a.sweep + 1 }) s else roundDone aid e r s)
            | fx => startStripe { kind := .rebuild, array := aid, stripe := n, dg := d.gen, fixed := fx } a d (s.erasures a d n) s

/-- The home strip of an index in a round: stripe index and role (R62). -/
def homeStrip (d : Desc) (r p : Nat) : Option (Nat × Nat) :=
  ((homeStrips d r).find? (fun x => x.loc == p)).map (fun x => (x.j, x.q))

/-- The direct pass rebuilds home strips of a REPLACING index that are not relocated (R217 stage 2). -/
def directOne (aid p : Nat) : Nat → State → State
  | 0, s => s
  | k + 1, s => match s.array aid with
    | none => s
    | some a =>
      let d := a.body.desc
      let r := (lookup a.directRound p).getD 0
      if (a.entry p).state ≠ 3 ∨ d.rounds ≤ r ∨ s.busyWith aid isRebuild ∨ ¬ s.healthyAt a p ∨ s.pol.rateCap * s.turnNs / 1000 < s.arr.rateDebt ∨
          a.body.relocs.any (fun e => e.lost == p && e.state == 1) then s
      else
        let skip := directOne aid p k (onArray aid (fun x => { x with directRound := insert p (r + 1) x.directRound }) s)
        match homeStrip d r p with
        | none => skip
        | some (j, q) =>
          let n := r * descS d + j
          if (stripOf d a.relocs r j q).chain ≠ [] then skip
          else if s.closing aid n d.gen then s
          else startStripe { kind := .direct, array := aid, stripe := n, dg := d.gen, fixed := [(q, p)] } a d (s.erasures a d n) s

/-- Copy-back of the lowest entry in COPYBACK (R217 stage 3). -/
def copybackOne (aid : Nat) : Nat → State → State
  | 0, s => s
  | k + 1, s => match s.array aid with
    | none => s
    | some a =>
      match a.body.relocs.find? (fun e => e.state == 3 && decide ((a.progress e).2 < e.stop)) with
      | none => s
      | some e =>
        let d := a.descOf e.descGen
        let r := (a.progress e).2
        if s.busyWith aid isRebuild ∨ ¬ s.healthyAt a e.lost ∨ s.pol.rateCap * s.turnNs / 1000 < s.arr.rateDebt then s
        else match (strips d a.relocs r).find? (fun x => (x.chain.head?.map (·.seq)) == some e.seq) with
          | none => copybackOne aid k (setExact aid e.seq (a.progress e).1 (r + 1) s)
          | some x =>
            let n := r * descS d + x.j
            let er := s.erasures a d n
            if s.closing aid n d.gen then s
            else startStripe { kind := .copyback, array := aid, stripe := n, dg := d.gen, fixed := [(x.q, e.lost)], sector := e.seq } a d
              (if er.contains x.q then er else []) s

/-- A line of a migrating round moves to a record under DESC_NEXT (R222). -/
def adoptLine (a : Arr) (d2 : Desc) (l : Line) (s : State) : State :=
  let n := stripeOf d2 l.lba
  let key := arrayKey a.body.uid
  let t := openRecord key n d2.gen (2 ^ (if isMirror d2 then 0 else roleOf d2 l.lba)) s
  let gen := ((t.openRec key n d2.gen).map (·.intentGen)).getD 0
  if l.st = .dirty ∧ l.intentGen = gen then t
  else
    let t := if l.st = .dirty then
        (match t.recOf l.intentGen with
         | some r => if r.dirty ≤ 1 then freeRec l.intentGen t else writeRec l.intentGen (fun x => { x with dirty := x.dirty - 1 }) t
         | none => t) else t
    let t := onLines (fun x => x.no == l.no) (fun x => { x with st := .dirty, intentGen := gen, pair := true }) t
    openGather a.id n d2.gen (writeRec gen (fun x => { x with dirty := x.dirty + 1 }) t)

/-- Sectors of the round that DESC_NEXT takes next. -/
def migrateRange (a : Arr) (d2 : Desc) : Nat × Nat :=
  let w := descS d2 * descDsec d2
  (a.body.migrateLba, min (a.body.migrateLba + w) (descCapacity a.body.desc))

/-- Up to `k` sectors of a migrating round are staged (R222 step 1). -/
def stageSome (aid : Nat) : Nat → State → State
  | 0, s => s
  | k + 1, s => match s.array aid with
    | none => s
    | some a => match a.body.descNext with
      | none => s
      | some d2 =>
        let (lo, hi) := migrateRange a d2
        let lba := max lo a.stageLba
        if hi ≤ lba then
          (if s.busyWith aid (· == .migrate) then s
           else startMark aid (fun b => { b with migrateLba := hi }) [] (onArray aid (fun x => { x with stageStep := 2 }) s))
        else if s.sag.lines.any (fun l => l.at aid lba && (l.st == .dirty || l.st == .closing || l.st == .clean)) then
          stageSome aid k (onArray aid (fun x => { x with stageLba := lba + 1 }) s)
        else
          let d := a.body.desc
          let n := stripeOf d lba
          let er := s.erasures a d n
          let q := if isMirror d then (mirrorCopy d n er).getD 0 else roleOf d lba
          let id := s.arr.nextJob
          let t := onArray aid (fun x => { x with stageLba := lba + 1 }) s
          stageSome aid k (sliceGo id 0 8 (addJob { kind := .migrate, array := aid, stripe := n, dg := d.gen, intentGen := q, sector := lba,
                                                     slices := [{ o := sliceOf d lba }] } t))

/-- The members' slots of old rounds above the last migrated new round (R223). -/
def oldSlots (s : State) (a : Arr) (d2 : Desc) : List (Nat × Nat × Nat) :=
  let d := a.body.desc
  let lastNew := cdiv (descCapacity d) (max (descS d2 * descDsec d2) 1)
  (List.range d.n).filterMap (fun p => match s.memberAt a p with
    | some n => if lastNew < d.rounds then some (n.id, n.dataStart + lastNew * descSsec d, n.dataStart + d.rounds * descSsec d) else none
    | none => none)

/-- The final mark update of a migration (R90, R223). -/
def migrationEndBody (b : MarkBody) : MarkBody :=
  { b with migrating := false, migrateLba := 0, desc := b.descNext.getD b.desc, descNext := none,
           members := mapIf b.members (fun e => e.state == 4) (fun e => { e with state := 1 }) }

/-- A migration goes on by one step (R222, R223). -/
def migrateOne (aid : Nat) (s : State) : State :=
  match s.array aid with
  | none => s
  | some a => match a.body.descNext with
    | none => s
    | some d2 =>
      if ¬ a.body.migrating ∨ ¬ a.owner ∨ a.service ≠ 2 ∨ s.pol.rateCap * s.turnNs / 1000 < s.arr.rateDebt then s
      else if a.migrationPaused then
        (if a.body.relocs = [] ∧ a.body.members.all (fun e => e.state != 2 && e.state != 3) then onArray aid (fun x => { x with migrationPaused := false }) s else s)
      else match a.stageStep with
        | 0 =>
          if a.body.members.any (fun e => e.state == 2) then
            startMark aid (fun b => (unplanned b).foldl (fun b p => planIndex s { a with migrationPaused := true } p b) b) []
              (onArray aid (fun x => { x with migrationPaused := true }) s)
          else if descCapacity a.body.desc ≤ a.body.migrateLba then
            (let rs := oldSlots s a d2
             if rs = [] then startMark aid migrationEndBody [] (onArray aid (fun x => { x with stageStep := 5 }) s)
             else startZero 4 aid 0 none none rs (onArray aid (fun x => { x with stageStep := 4 }) s))
          else onArray aid (fun x => { x with stageStep := 1, stageLba := a.body.migrateLba }) s
        | 1 => stageSome aid 8 s
        | 3 =>
          if s.sag.lines.any (fun l => l.array == aid && (l.st == .dirty || l.st == .closing) && decide (a.body.migrateLba - descS d2 * descDsec d2 ≤ l.lba) && decide (l.lba < a.body.migrateLba)) then s
          else
            let n := descS d2 * descDsec d2
            (onArray aid (fun x => { x with stageStep := 0 }) s).onArr fun x => { x with rebuilt := sat32 (x.rebuilt + n), rateDebt := x.rateDebt + n * 4096 }
        | _ => s

/-- MIGRATE_LBA is persisted: lines of the round belong to DESC_NEXT and its stripes close (R222 step 3). -/
def migrateInstalled (aid : Nat) (s : State) : State :=
  match s.array aid with
  | none => s
  | some a => match a.body.descNext with
    | none => if a.stageStep = 5 then onArray aid (fun x => { x with stageStep := 0 }) s else s
    | some d2 =>
      if a.stageStep ≠ 2 then s
      else
        let hi := a.body.migrateLba
        let lo := hi - descS d2 * descDsec d2
        let ls := s.sag.lines.filter (fun l => l.array == aid && (l.st == .dirty || l.st == .clean) && decide (lo ≤ l.lba) && decide (l.lba < hi))
        let t := ls.foldl (fun u l => adoptLine a d2 l u) (onArray aid (fun x => { x with stageStep := 3 }) s)
        (List.range (descS d2)).foldl (fun u i => readyClose aid (lo / max (descDsec d2) 1 + i) d2.gen u) t

/-- A finished stripe of a scrub moves it on; a whole REPAIR scrub ends the write hold (R181, R214). -/
def scrubNext (x : Scrub) (s : State) : State :=
  let nx := x.next + 1
  let t := s.onArr fun a => { a with scrubs := if nx < x.stop then mapIf a.scrubs (fun y => y.array == x.array) (fun y => { y with next := nx })
                                              else a.scrubs.filter (fun y => y.array != x.array) }
  match s.array x.array with
  | some a => if x.repair ∧ x.stop ≤ nx ∧ a.body.desc.rounds * descS a.body.desc ≤ x.stop then
      onArray a.id (fun y => { y with writesHeld := false }) t else t
  | none => t

/-- A scrub goes on by a stripe (R213). -/
def scrubOne (x : Scrub) (s : State) : State :=
  match s.array x.array with
  | none => s.onArr fun a => { a with scrubs := a.scrubs.filter (fun y => y.array != x.array) }
  | some a =>
    match s.arr.jobs.find? (fun j => j.array == x.array && (j.kind == .scrub true || j.kind == .scrub false)) with
    | some j => if j.slices.all (fun y => y.phase == .done) then scrubNext x (endJob j.id s) else s
    | none =>
      let d := a.descAt (x.next * descDsec a.body.desc)
      let er := s.erasures a d x.next
      if s.closing x.array x.next d.gen ∨ s.busyWith x.array isRebuild ∨ a.service ≠ 2 then s
      else startStripe { kind := .scrub x.repair, array := x.array, stripe := x.next, dg := d.gen } a d er s

/-- Arrays by the seat of the turn (R39). -/
def State.arraysBySeat (s : State) : List Nat :=
  let ids := (s.arr.arrays.map (·.id)).mergeSort (· ≤ ·)
  let seat := s.planTurn % 64
  ids.filter (fun i => seat ≤ i) ++ ids.filter (fun i => i < seat)

/-- Background work of a planning window, in the order of R206. Nothing starts while the device holds or recovers. -/
def background (s : State) : State :=
  if s.dev.holding ∨ s.dev.recovering ∨ s.vault.frozen then s
  else
    let t := (s.arr.mendQueue.take 16).foldl (fun u m => mendOne m u) s
    let ids := s.arraysBySeat
    let t := ids.foldl (fun u i => rebuildOne i 64 u) t
    let t := ids.foldl (fun u i => match u.array i with
      | some a => (List.range a.body.members.length).foldl (fun v p => directOne i p 64 v) u
      | none => u) t
    let t := ids.foldl (fun u i => copybackOne i 64 u) t
    let t := ids.foldl (fun u i => migrateOne i u) t
    t.arr.scrubs.foldl (fun u x => scrubOne x u) t

/-! ### Persistence comes into force (R86) -/

/-- Volumes that a change of metadata creates, deletes or resizes. -/
def changedVolumes (old new : MarkBody) : List Nat :=
  let act (b : MarkBody) := b.volumes.filter (fun v => v.state == 1)
  ((act new).filter (fun v => !(act old).any (fun w => w.id == v.id && w.capacity == v.capacity))).map (·.nsid) ++
  (old.volumes.filter (fun v => !new.volumes.any (fun w => w.id == v.id))).map (·.nsid)

/-- An array leaves service: deleted, its members become free; exported, they are no longer adopted (R398, R399). -/
def removeArray (aid : Nat) (free : Bool) (s : State) : State :=
  match s.array aid with
  | none => s
  | some a =>
    let key := arrayKey a.body.uid
    let t := (s.arr.jobs.filter (fun j => j.array == aid)).foldl (fun u j => endJob j.id u) s
    let freed (n : Ns) : Ns :=
      if ¬ free then { n with adopted := false }
      else if n.stale ∨ n.failing.isSome ∨ n.declare.isSome then { n with stale := true, failing := none, declare := none }
      else { n with arrayUid := 0, poolIndex := 0xFFFF }
    let t := t.onArr fun x => { x with
      arrays := x.arrays.filter (fun y => y.id != aid), scrubs := x.scrubs.filter (fun y => y.array != aid),
      mendQueue := x.mendQueue.filter (fun m => m.1 != aid), matrices := x.matrices.filter (fun m => m.2.1 != aid),
      perms := x.perms.filter (fun p => p.1 != aid), ns := mapIf x.ns (fun n => n.adopted && n.arrayUid == a.body.uid) freed }
    let t := t.onSag fun g => { g with lines := g.lines.filter (fun l => l.array != aid || l.st == .mirror),
                                       openStripes := g.openStripes.filter (fun o => o.array != aid) }
    let t := t.onVault fun v => { v with
      own := v.own.filter (fun (r : Rec) => r.key != key), ringPending := v.ringPending.filter (fun (r : Rec) => r.key != key),
      binding := erase key v.binding, ringSeq := v.ringSeq.filter (fun x => x.1 != key) }
    a.body.volumes.foldl (fun u (v : Volume) => namespaceChanged v.nsid u) t

/-- The mark update of one array that has been persisted takes effect. -/
def installMark (aid : Nat) (s : State) : State :=
  match s.array aid with
  | none => s
  | some a => match a.persisted with
    | none => nextMark aid s
    | some b =>
      if b.uid = 0 then a.persistedMbs.foldl (fun u i => mciFinish i u) (removeArray aid true s)
      else
      let t := onArray aid (fun x => { x with body := b, persisted := none, creating := false, service := if x.creating then 2 else x.service, persistedMbs := [], pendingLost := x.pendingLost.drop x.persistedLost, persistedLost := 0 }) s
      let t := t.onArr fun x => { x with ns := x.ns.map (fun n =>
        if n.arrayUid == b.uid && n.failing.isSome && (nth b.members n.poolIndex {}).state == 2 then { n with failing := none, stale := true } else n) }
      let t := migrateInstalled aid t
      let t := (changedVolumes a.body b).foldl (fun u v => namespaceChanged v u) t
      let t := nextMark aid (a.persistedMbs.foldl (fun u i => mciFinish i u) t)
      if a.closeOut = 3 then removeArray aid false t else t

/-- Everything that R86 ties to persistence, and the mark updates that lost extents and GEN_FLOOR need, at a boundary
(R103, R111). -/
def marksBoundary (s : State) : State :=
  let ids := s.arr.arrays.map (·.id)
  let t := ids.foldl (fun u i => installMark i u) s
  ids.foldl (fun u i => match u.array i with
    | some a =>
      if ¬ a.owner then u
      else
        let base := u.markBase a
        let inMark := match u.markJob i with | some j => j.sector | none => a.persistedLost
        let u := if inMark < a.pendingLost.length ∧ a.markWaiting.isNone ∧ (u.markJob i).isNone ∧ a.persisted.isNone then startMark i id [] u else u
        let u := if base.genFloor ≤ a.gen + 2 ^ 19 then startMark i (fun b => { b with genFloor := b.genFloor + 2 ^ 20 }) [] u else u
        fillJournal i (autoReplace i (replaceMarks i u))
    | none => u) t

/-! ### Registers (R225) -/

/-- REBUILD_STATE. -/
def rebuildState (s : State) : Nat :=
  let es := s.arr.arrays.flatMap (fun a => a.body.relocs)
  flag (es.any (fun e => e.state == 1) || s.arr.arrays.any (fun a => a.body.members.any (fun e => e.state == 3))) 0 +
  flag (es.any (fun e => e.state == 3)) 1 + flag (s.arr.arrays.any (fun a => a.body.migrating)) 2 +
  flag (s.arr.arrays.any (fun a => a.migrationPaused)) 3 + flag (s.arr.scrubs != []) 4 + flag s.atRisk 5 + flag s.arr.dataLost 6 +
  min 255 ((s.arr.ns.filter (fun n => n.cond != .healthy && n.arrayUid != 0 && !n.stale && n.declare.isNone && n.failing.isNone &&
    !s.arr.arrays.any (fun a => a.body.uid == n.arrayUid && a.failed n.poolIndex))).length) * 65536

def rebuildReg (off : Nat) (s : State) : Option Nat :=
  let a := s.arr
  match off with
  | 0x000 => some (rebuildState s)
  | 0x004 => some ((a.arrays.flatMap (fun x => x.body.relocs.filter (fun e => e.state == 1))).length)
  | 0x008 => some a.rebuilt
  | 0x00C => some a.mendedCount
  | 0x010 => some a.mendDropped
  | 0x014 => some a.lostSlices
  | 0x018 => some a.scrubSlices
  | 0x01C => some a.parityFixes
  | 0x020 => some a.lateCompletions
  | 0x024 => some a.slowReads
  | _ => none

/-- The RC registers of the rebuild block cleared by a read. -/
def rebuildClear (off : Nat) (s : State) : State :=
  s.onArr fun a => match off with
    | 0x008 => { a with rebuilt := 0 }
    | 0x00C => { a with mendedCount := 0 }
    | 0x010 => { a with mendDropped := 0 }
    | 0x014 => { a with lostSlices := 0 }
    | 0x018 => { a with scrubSlices := 0 }
    | 0x01C => { a with parityFixes := 0 }
    | 0x020 => { a with lateCompletions := 0 }
    | 0x024 => { a with slowReads := 0 }
    | _ => a

/-! ### Commands (R226 to R230) -/

/-- Arrays in service, by ID. -/
def State.inServiceArrays (s : State) : List Arr := (s.arr.arrays.filter (fun a => a.service != 1)).mergeSort (fun x y => x.id ≤ y.id)
/-- The arrays that an ARRAY field selects (R226). -/
def State.selected (s : State) (n : Nat) : List Arr := if n = 0 then s.inServiceArrays else s.inServiceArrays.filter (fun a => a.id + 1 == n)
/-- An ARRAY field that names an array not in service rejects the command. -/
def arrayMissing (s : State) (field n : Nat) : Option Nat := if n ≠ 0 ∧ s.selected n = [] then some field else none
/-- The array objects that a command holds. -/
def arrayObjs (s : State) (n : Nat) : List (Nat × Nat) := (s.selected n).map (fun a => objArray a.id)

/-- MARGIN (R228). -/
def marginByte (s : State) (a : Arr) : Nat := if a.body.desc.m < s.shortIndices a then 0xFF else a.body.desc.m - s.shortIndices a

/-- FLAGS of an array (R228). -/
def arrayFlags (s : State) (a : Arr) : Nat :=
  let es := a.body.relocs
  flag (es.any (fun e => e.state == 1) || a.body.members.any (fun e => e.state == 3)) 0 + flag (es.any (fun e => e.state == 3)) 1 +
  flag a.body.migrating 2 + flag a.migrationPaused 3 + flag (s.arr.scrubs.any (fun x => x.array == a.id)) 4 + flag a.body.readOnly 5 +
  flag a.writesHeld 6 + flag a.body.lostOverflow 7

/-- One section of REBUILD_GET_STATUS (R228). -/
def rebuildSection (s : State) (a : Arr) : Bytes :=
  let failed := (List.range a.body.members.length).filter (fun p => (a.entry p).state == 2)
  let repl := (List.range a.body.members.length).find? (fun p => (a.entry p).state == 3)
  let direct := match repl with | some p => (lookup a.directRound p).getD 0 | none => 0
  let es := a.body.relocs
  let sc := s.arr.scrubs.find? (fun x => x.array == a.id)
  leBytes 2 a.id ++
  leBytes 1 (arrayFlags s a) ++
  leBytes 1 (marginByte s a) ++ leBytes 2 es.length ++ leBytes 2 a.body.lost.length ++ leBytes 8 a.body.migrateLba ++
  leBytes 8 (match sc with | some x => x.next | none => 2 ^ 64 - 1) ++ leBytes 8 direct ++ leBytes 2 failed.length ++ leBytes 14 0 ++
  (a.relocs.map (fun e => (relocBytes e).take 48)).flatten ++
  (failed.map (fun p => leBytes 2 p ++ leBytes 1 ((lookup a.causes p).getD 0) ++ leBytes 5 0 ++ leBytes 4 (a.entry p).failPc ++ leBytes 4 (a.entry p).failMin)).flatten

/-- REBUILD_GET_STATUS (R228). -/
def rebuildStatusAct (mb : Nat) (m : Mailbox) (s : State) : State :=
  mciOk mb (((List.range 10).map (fun i => leBytes 4 ((rebuildReg (4 * i) s).getD 0))).flatten)
    (((s.selected (m.parse.array 1 0).1).map (rebuildSection s)).flatten) s
/-- Fields, objects and refusals of the command (steps 5 to 7 of R366). -/
def rebuildGetStatusPlan (s : State) (m : Mailbox) : Plan :=
  { p := (m.parse.array 1 0).2, noObject := arrayMissing s 1 (m.parse.array 1 0).1 }
def execRebuildGetStatus (mb : Nat) (s : State) : Out :=
  done s (mciRun mb 0x0401 s (rebuildGetStatusPlan s) (rebuildStatusAct mb))

/-- REBUILD_SET_POLICY's fields, in order (R227). -/
def rebuildPolicyFields (s : State) (m : Mailbox) : Policy × Parse :=
  let (f1, p) := m.parse.num 1 0 1 { lo := 1, hi := 90, dflt := 10 }
  let (f2, p) := p.enum 2 1 1 [1, 2] 1
  let (f3, p) := p.enum 3 2 1 [1, 2] 2
  let (f4, p) := p.num 4 3 1 { lo := 1, hi := 255, dflt := 28 }
  let (f5, p) := p.num 5 4 4 { lo := 100, hi := 30000, dflt := 2000 }
  let (f6, p) := p.num 6 8 4 { lo := 500, hi := 60000, dflt := 8000 }
  let (f7, p) := p.num 7 12 2 { lo := 5, hi := f6 / 2, dflt := 50, depHi := true }
  let (f8, p) := p.num 8 14 2 { lo := 16, hi := 65535, dflt := 1024 }
  let (f9, p) := p.num 9 16 4 { lo := 100, hi := 1000000, dflt := 1000000 }
  ({ s.polNext with floor := f1, autoRebuild := f2 == 1, autoReplace := f3 == 1, scrubPeriod := f4, unavailLimit := f5, memberTimeout := f6,
                    slowRead := f7, mendLimit := f8, rateCap := f9 }, p)
/-- REBUILD_SET_POLICY: stored, in force at the next boundary (R227). -/
def rebuildPolicyAct (mb : Nat) (m : Mailbox) (s : State) : State :=
  let q := (rebuildPolicyFields s m).1
  let applied := leBytes 1 q.floor ++ leBytes 1 (if q.autoRebuild then 1 else 2) ++ leBytes 1 (if q.autoReplace then 1 else 2) ++ leBytes 1 q.scrubPeriod ++
    leBytes 4 q.unavailLimit ++ leBytes 4 q.memberTimeout ++ leBytes 2 q.slowRead ++ leBytes 2 q.mendLimit ++ leBytes 4 q.rateCap
  mciOk mb [] [] (recordConfig 0x0402 applied { s with polNext := q })
/-- Fields, objects and refusals of the command (steps 5 to 7 of R366). -/
def rebuildSetPolicyPlan (s : State) (m : Mailbox) : Plan :=
  { p := (rebuildPolicyFields s m).2, objects := [objRebuildPolicy] }
def execRebuildSetPolicy (mb : Nat) (s : State) : Out :=
  done s (mciRun mb 0x0402 s (rebuildSetPolicyPlan s) (rebuildPolicyAct mb))

/-- Entries are planned for every FAILED index that has none; the update's persistence completes the command (R203, R226). -/
def rebuildStartAct (mb : Nat) (m : Mailbox) (s : State) : State :=
  let as_ := (s.selected (m.parse.array 1 0).1).filter (fun a => unplanned (s.markBase a) != [] && a.owner)
  match as_ with
  | [] => mciOk mb [] [] s
  | _ =>
    let t := mciWait mb [] [] s
    let last := (as_.getLast?.map (·.id)).getD 0
    as_.foldl (fun u a =>
      let u := startMark a.id (fun b => (unplanned b).foldl (fun b p => planIndex s a p b) b) (if a.id = last then [mb] else []) u
      if tableFull a.body then raise { source := 0x166 } u else u) t
/-- Fields, objects and refusals of the command (steps 5 to 7 of R366). -/
def rebuildStartPlan (s : State) (m : Mailbox) : Plan :=
  { p := (m.parse.array 1 0).2, noObject := arrayMissing s 1 (m.parse.array 1 0).1,
                                         objects := arrayObjs s (m.parse.array 1 0).1 }
def execRebuildStart (mb : Nat) (s : State) : Out :=
  done s (mciRun mb 0x0403 s (rebuildStartPlan s) (rebuildStartAct mb))

/-- Stripes of an array. -/
def Arr.stripes (a : Arr) : Nat := a.body.desc.rounds * descS a.body.desc

/-- ARRAY, MODE, FIRST_STRIPE and STRIPE_COUNT of SCRUB_START (R229). -/
def scrubFields (s : State) (m : Mailbox) : Nat × Nat × Nat × Nat × Parse :=
  let (n, p) := m.parse.array 1 0
  let (md, p) := p.enum 2 1 1 [1, 2] 2
  match s.selected n with
  | [a] =>
    if n = 0 then (n, md, 0, 0, p)
    else
      let (f, p) := p.num 3 8 8 { hi := a.stripes - 1 }
      let (c, p) := p.num 4 16 8 { lo := 1, hi := a.stripes - f, dflt := a.stripes - f, depHi := true }
      (n, md, f, c, p)
  | _ => (n, md, 0, 0, p)
/-- SCRUB_START: the patrol of the array stops (R215, R229). -/
def scrubStartAct (mb : Nat) (m : Mailbox) (s : State) : State :=
  let (n, md, f, c, _) := scrubFields s m
  mciOk mb [] [] ((s.selected n).foldl (fun t a => startScrub a.id (md == 2) false (if n = 0 then 0 else f) (if n = 0 then a.stripes else f + c) t) s)
/-- Fields, objects and refusals of the command (steps 5 to 7 of R366). -/
def scrubStartPlan (s : State) (m : Mailbox) : Plan :=
  { p := (scrubFields s m).2.2.2.2, noObject := arrayMissing s 1 (m.parse.array 1 0).1,
                                         objects := arrayObjs s (m.parse.array 1 0).1 }
def execScrubStart (mb : Nat) (s : State) : Out :=
  done s (mciRun mb 0x0404 s (scrubStartPlan s) (scrubStartAct mb))

/-- SCRUB_STOP: slices in hand finish, no further one starts (R226). -/
def scrubStopAct (mb : Nat) (m : Mailbox) (s : State) : State :=
  let ids := (s.selected (m.parse.array 1 0).1).map (·.id)
  let js := s.arr.jobs.filter (fun j => ids.contains j.array && (j.kind == .scrub true || j.kind == .scrub false))
  mciOk mb [] [] (js.foldl (fun t j => endJob j.id t) (s.onArr fun a => { a with scrubs := a.scrubs.filter (fun x => !ids.contains x.array) }))
/-- Fields, objects and refusals of the command (steps 5 to 7 of R366). -/
def scrubStopPlan (s : State) (m : Mailbox) : Plan :=
  { p := (m.parse.array 1 0).2, noObject := arrayMissing s 1 (m.parse.array 1 0).1,
                                         objects := arrayObjs s (m.parse.array 1 0).1 }
def execScrubStop (mb : Nat) (s : State) : Out :=
  done s (mciRun mb 0x0405 s (scrubStopPlan s) (scrubStopAct mb))

/-- LOST_EXTENTS_GET: the entries held in MRAM are reported too (R103, R230). -/
def lostGetAct (mb : Nat) (m : Mailbox) (s : State) : State :=
  mciOk mb [] (((s.selected (m.parse.array 1 0).1).map (fun a =>
    let b := addLost (a.pendingLost.filter (fun e => e.cause != 0)) a.body
    leBytes 2 a.id ++ leBytes 2 b.lost.length ++ leBytes 1 (flag b.lostOverflow 0) ++ leBytes 3 0 ++ ((b.lost.map (fun e => padTo 16 (lostBytes e))).flatten))).flatten) s
/-- Fields, objects and refusals of the command (steps 5 to 7 of R366). -/
def lostExtentsGetPlan (s : State) (m : Mailbox) : Plan :=
  { p := (m.parse.array 1 0).2, noObject := arrayMissing s 1 (m.parse.array 1 0).1 }
def execLostExtentsGet (mb : Nat) (s : State) : Out :=
  done s (mciRun mb 0x0406 s (lostExtentsGetPlan s) (lostGetAct mb))

end Sys2Proof.Machine
end

