-- ==== Sys2Proof/Machine/Recovery.lean ====
section
/-! DEFINITION. Recovery at power-on (R180 to R186, R121 step 7). -/
namespace Sys2Proof.Machine

/-! ### The journal source (R181) -/

def recRank : RecState → Nat | .opened => 1 | .closing => 2 | .retired => 3

/-- The current one of two records of one INTENT_GEN (R181). -/
def recBest (a b : Rec) : Rec :=
  if recRank b.st < recRank a.st then a else if recRank a.st < recRank b.st then b
  else if b.dirty < a.dirty then { a with roleMask := a.roleMask ||| b.roleMask } else { b with roleMask := a.roleMask ||| b.roleMask }

/-- Two copies of one record: the same array, side and TWIN_SEQ. -/
def recDup (a b : Rec) : Bool :=
  a.twinSeq != 0 && a.key == b.key && a.twinSeq == b.twinSeq && decide (a.intentGen / 2 ^ 63 = b.intentGen / 2 ^ 63)

/-- The union of what the ring holds (R181). -/
def ringUnion (recs : List Rec) : List Rec :=
  let kept := recs.foldl (fun (l : List Rec) r => if l.any (recDup r) then l else l ++ [r]) []
  kept.foldl (fun (l : List Rec) r =>
    if l.any (fun (x : Rec) => x.intentGen == r.intentGen) then mapIf l (fun (x : Rec) => x.intentGen == r.intentGen) (fun x => recBest x r) else l ++ [r]) []

/-- MRAM binds the array at its MARK_GEN, and its mark was written by this device or its bound partner (R181). -/
def State.ownBound (s : State) (a : Arr) (inp : RecoveryInput) : Bool :=
  inp.markWriterOk && lookup s.vault.binding (arrayKey a.body.uid) == some a.body.gen

/-- Records of the array as its source gives them, and whether one is lost. -/
def sourceRecs (s : State) (a : Arr) (inp : RecoveryInput) : List Rec × Bool :=
  let ring := (ringUnion (inp.ring.filter (fun (r : Rec) => r.key == arrayKey a.body.uid)))
  if s.ownBound a inp then
    let own := s.liveRecs a
    let good := own.filter (fun (r : Rec) => !inp.ownBad.contains r.intentGen)
    let bad := own.filter (fun (r : Rec) => inp.ownBad.contains r.intentGen)
    let found := bad.filterMap (fun (r : Rec) => ring.find? (fun (x : Rec) => x.intentGen == r.intentGen))
    (good ++ found.filter (fun (r : Rec) => r.st != .retired), decide (found.length < bad.length))
  else (ring.filter (fun (r : Rec) => r.st != .retired), false)

/-! ### Vault lines (R182) -/

/-- Usable payload sectors of an array in the recorded dump. -/
def usableSectors (s : State) (a : Arr) (inp : RecoveryInput) : List VaultSector :=
  if s.vault.status = .idle then []
  else inp.vault.filter (fun (x : VaultSector) => x.dumpSeq == s.vault.dumpSeq && x.key == arrayKey a.body.uid)

/-- Of copies of one version the lowest COPY_INDEX; of versions of one LBA the highest INTENT_GEN (R182). -/
def restoredSectors (l : List VaultSector) : List VaultSector :=
  l.foldl (fun (acc : List VaultSector) x =>
    match acc.find? (fun (y : VaultSector) => y.lba == x.lba) with
    | none => acc ++ [x]
    | some y => if y.intentGen < x.intentGen ∨ (y.intentGen = x.intentGen ∧ x.copyIndex < y.copyIndex) then
        mapIf acc (fun (z : VaultSector) => z.lba == x.lba) (fun _ => x) else acc) []

/-- A restored line enters the saggar DIRTY in two copies (R182). -/
def restoreLine (a : Arr) (x : VaultSector) (s : State) : State :=
  let d := a.descAt x.lba
  let dg := ((s.recOf x.intentGen).map (·.descGen)).getD d.gen
  let d := a.descOf dg
  let n := stripeOf d x.lba
  let t := addLine ((roleOf d x.lba + sliceOf d x.lba + n) % max s.chanCount 1)
    { st := .dirty, array := a.id, lba := x.lba, volume := x.volume, pi := x.pi, data := trimZeros x.data, written := true, intentGen := x.intentGen } s
  openGather a.id n dg t

/-! ### Incomplete records (R183) -/

/-- Distinct LBAs that carry a record's INTENT_GEN. -/
def recLbas (us : List VaultSector) (gen : Nat) : List Nat :=
  (us.filter (fun (x : VaultSector) => x.intentGen == gen)).foldl (fun l x => addOnce x.lba l) []

/-- LBAs of a record's roles that are set LOST (R183). -/
def recLost (a : Arr) (us back : List VaultSector) (r : Rec) : List Nat :=
  if (recLbas us r.intentGen).length = r.dirty then []
  else
    let d := a.descOf r.descGen
    let mine := recLbas us r.intentGen
    (((List.range d.k).filter (fun q => r.roleMask.testBit q)).flatMap (fun q => (List.range (descSsec d)).map (fun o => lbaOf d r.stripe q o))).filter
      (fun l => !mine.contains l && !back.any (fun (x : VaultSector) => x.lba == l))

/-! ### Slices as recovery finds them -/

/-- The sectors of a slice, judged (R107); a role that is absent could not be read. -/
def foundSlice (a : Arr) (d : Desc) (inp : RecoveryInput) (n o : Nat) : List RoleSec :=
  match inp.slices.find? (fun x => x.1 == n && x.2.1 == o) with
  | some x => (x.2.2.filter (fun y => decide (y.1 < descW d))).map (fun y => roleSec y.2 y.1 (roleLba d n y.1 o) (arrayKey a.body.uid))
  | none => []

/-- A slice after the writes that recovery has made so far. -/
def sliceNow (a : Arr) (d : Desc) (inp : RecoveryInput) (done_ : List (Nat × Nat × List RoleSec)) (n o : Nat) : List RoleSec :=
  let base := foundSlice a d inp n o
  match done_.find? (fun x => x.1 == n && x.2.1 == o) with
  | some x => base.filter (fun r => !x.2.2.any (fun y => y.role == r.role)) ++ x.2.2
  | none => base

def secOf (l : List RoleSec) (q : Nat) : Option RoleSec := l.find? (fun r => r.role == q && r.ok)

/-- Parity of a slice encoded from all its data. -/
def parityOuts (d : Desc) (gen : Nat) (data : List (Nat × Bytes)) : List RoleSec :=
  (List.range d.m).map (fun j => { role := d.k + j, data := parityOf d.form j data, gen := gen, flags := fPARITY })

/-- A resynchronised slice (R184): what is written, and LBAs lost for want of rows. `vs` gives the vaulted roles: role, data,
volume, protection information, LOST. -/
def resyncSlice (a : Arr) (d : Desc) (n o G gen : Nat) (secs : List RoleSec) (vs : List (Nat × Bytes × Nat × Bytes × Bool)) : List RoleSec × List Nat :=
  let vaulted (q : Nat) := vs.find? (fun v => v.1 == q)
  let newOf (q : Nat) : Option Bytes := match vaulted q with
    | some v => some v.2.1
    | none => (secOf secs q).map (·.data)
  let unknown := (List.range d.k).filter (fun q => (newOf q).isNone)
  let known := (List.range d.k).filter (fun q => (newOf q).isSome)
  let oldOk := vs.all (fun v => match secOf secs v.1 with | some r => decide (r.gen < G) | none => false)
  let oldOf (q : Nat) : Bytes := if (vaulted q).isSome then ((secOf secs q).map (·.data)).getD [] else (newOf q).getD []
  let rowOf (j : Nat) : Option Row := match secOf secs (d.k + j) with
    | none => none
    | some p =>
      let mk (f : Nat → Bytes) : Row := (unknown.map (coef d.form j), known.foldl (fun b q => xorBytes b (scale (coef d.form j q) (f q))) p.data)
      if p.gen = G then some (mk (fun q => (newOf q).getD [])) else if p.gen < G ∧ oldOk then some (mk oldOf) else none
  let rows := ((List.range d.m).filterMap rowOf).take unknown.length
  let short := decide (rows.length < unknown.length)
  let solved := if short then unknown.map (fun q => (q, ([] : Bytes))) else unknown.zip (solve rows)
  let data := known.map (fun q => (q, (newOf q).getD [])) ++ solved
  let vOuts : List RoleSec := vs.map (fun v => if v.2.2.2.2 then lostSec v.2.2.1 v.1 gen 0 else { role := v.1, data := v.2.1, gen := gen, volume := v.2.2.1, pi := v.2.2.2.1 })
  let lOuts := if short then unknown.map (fun q => lostSec (ownerOf a.body.extents (lbaOf d n q o)) q gen 0) else []
  (vOuts ++ lOuts ++ parityOuts d gen data, if short then unknown.map (fun q => lbaOf d n q o) else [])

/-- A mirror's slice: the dumped sector on every copy (R184). -/
def resyncMirror (d : Desc) (gen : Nat) (vs : List (Nat × Bytes × Nat × Bytes × Bool)) : List RoleSec :=
  match vs with
  | [] => []
  | v :: _ => (List.range (descW d)).map (fun q => if v.2.2.2.2 then lostSec v.2.2.1 q gen 0 else { role := q, data := v.2.1, gen := gen, volume := v.2.2.1, pi := v.2.2.2.1 })

/-- A slice that is still lost is repaired again (R184, R209). -/
def repairSlice (a : Arr) (d : Desc) (n o gen : Nat) (secs : List RoleSec) : List RoleSec × List Nat :=
  let er := (List.range (descW d)).filter (fun q => (secOf secs q).isNone)
  if er.length ≤ d.m then ([], [])
  else
    let vol := ownerOf a.body.extents (n * descDsec d)
    if isMirror d then ((List.range (descW d)).map (fun q => lostSec vol q gen 0), [lbaOf d n 0 o])
    else
      let ed := er.filter (isData d)
      let data := (List.range d.k).map (fun q => (q, if ed.contains q then [] else ((secOf secs q).map (·.data)).getD []))
      (ed.map (fun q => lostSec vol q gen 0) ++ parityOuts d gen data, ed.map (fun q => lbaOf d n q o))

/-- A slice of an OPEN record with LOST sectors: they are zero, and parity is encoded anew (R183). -/
def openLostSlice (a : Arr) (d : Desc) (n o gen : Nat) (secs : List RoleSec) (lost : List Nat) : List RoleSec × List Nat :=
  let vol (q : Nat) := ownerOf a.body.extents (lbaOf d n q o)
  if isMirror d then ((List.range (descW d)).map (fun q => lostSec (vol 0) q gen 0), [])
  else
    let bad := (List.range (descW d)).filter (fun q => (secOf secs q).isNone)
    let have_ := (List.range (descW d)).filterMap (fun q => (secOf secs q).map (fun r => (q, r.data)))
    let miss := bad.filter (fun q => isData d q && !lost.contains q)
    let got := if miss = [] then some [] else reconstruct d.form d.k d.m have_ bad
    let more := if got.isNone then miss else []
    let data := (List.range d.k).map (fun q => (q, if lost.contains q ∨ more.contains q then ([] : Bytes)
      else match secOf secs q with | some r => r.data | none => ((got.getD []).find? (fun p => p.1 == q)).map (·.2) |>.getD []))
    ((lost ++ more).map (fun q => lostSec (vol q) q gen 0) ++ parityOuts d gen data, more.map (fun q => lbaOf d n q o))

/-! ### One array -/

/-- What recovery of an array carries along. -/
structure Recover where
  s : State
  done_ : List (Nat × Nat × List RoleSec) := []
  lost2 : List Nat := []

/-- The vaulted roles of a slice for a record; sectors set LOST count as zero (R184). -/
def vaultedRoles (a : Arr) (d : Desc) (us : List VaultSector) (lost : List Nat) (r : Rec) (o : Nat) : List (Nat × Bytes × Nat × Bytes × Bool) :=
  (List.range d.k).filterMap (fun q =>
    let l := lbaOf d r.stripe q o
    match us.find? (fun (x : VaultSector) => x.lba == l && x.intentGen == r.intentGen) with
    | some x => some (q, trimZeros x.data, x.volume, x.pi, false)
    | none => if lost.contains l then some (q, [], ownerOf a.body.extents l, [], true) else none)

/-- A recovery job over slices with their outputs; its Writes wait for the mark update of R121 step 7. -/
def startResync (aid : Nat) (d : Desc) (n gen intentGen : Nat) (slices : List (Nat × List RoleSec)) (s : State) : State :=
  if slices = [] then (if intentGen = 0 then s else retireRec intentGen s)
  else
    let t := onLines (fun l => l.array == aid && l.st == .dirty && l.intentGen == intentGen && intentGen != 0) (fun l => { l with st := .closing }) s
    tookGen aid (addJob { kind := .resync, array := aid, stripe := n, dg := d.gen, gen := gen, intentGen := intentGen, ringed := false,
                          slices := slices.map (fun x => { o := x.1, outs := x.2, phase := .writing }) } t)

/-- In a takeover, a slice with an erased data sector that lacks the line of a role in ROLE_MASK has its erased data sectors set
LOST (R255 step 5). -/
def takeoverLost (a : Arr) (d : Desc) (r : Rec) (o : Nat) (secs : List RoleSec) (vs : List (Nat × Bytes × Nat × Bytes × Bool)) : List (Nat × Bytes × Nat × Bytes × Bool) :=
  let has (q : Nat) : Bool := vs.any (fun v => v.1 == q)
  let er := (List.range d.k).filter (fun q => !has q && (secOf secs q).isNone)
  if er ≠ [] ∧ (List.range d.k).any (fun q => r.roleMask.testBit q && !has q) then
    vs ++ er.map (fun q => (q, [], ownerOf a.body.extents (lbaOf d r.stripe q o), [], true)) else vs

/-- A CLOSING record is resynchronised (R184). -/
def resyncRec (take : Bool) (inp : RecoveryInput) (us : List VaultSector) (a : Arr) (r : Rec) (w : Recover) : Recover :=
  let d := a.descOf r.descGen
  let gen := ((w.s.array a.id).map (·.gen)).getD a.gen
  let lost := w.lost2
  let res (o : Nat) : List RoleSec × List Nat :=
    let secs := sliceNow a d inp w.done_ r.stripe o
    if r.repair then repairSlice a d r.stripe o gen secs
    else
      let vs0 := vaultedRoles a d us lost r o
      let vs := if take then takeoverLost a d r o secs vs0 else vs0
      if vs = [] ∧ ¬ r.full then ([], [])
      else if isMirror d then (resyncMirror d gen vs, []) else resyncSlice a d r.stripe o r.closeGen gen secs vs
  let all := (List.range (descSsec d)).map (fun o => (o, res o))
  let outs := (all.filter (fun x => x.2.1 != [])).map (fun x => (x.1, x.2.1))
  let gone := all.flatMap (fun x => x.2.2)
  let t := startResync a.id d r.stripe gen r.intentGen outs w.s
  { w with s := if gone = [] then t else sliceLost a gone t, done_ := outs.map (fun x => (r.stripe, x.1, x.2)) ++ w.done_ }

/-- The LOST sectors of an OPEN record are written (R183). -/
def openLostRec (inp : RecoveryInput) (us back : List VaultSector) (a : Arr) (r : Rec) (w : Recover) : Recover :=
  let d := a.descOf r.descGen
  let lost := recLost a us back r
  if lost = [] then w
  else
    let gen := ((w.s.array a.id).map (·.gen)).getD a.gen
    let os := (List.range (descSsec d)).filter (fun o => (List.range d.k).any (fun q => lost.contains (lbaOf d r.stripe q o)))
    let all := os.map (fun o => (o, openLostSlice a d r.stripe o gen (sliceNow a d inp w.done_ r.stripe o)
      ((List.range d.k).filter (fun q => lost.contains (lbaOf d r.stripe q o)))))
    let outs := all.map (fun x => (x.1, x.2.1))
    let gone := all.flatMap (fun x => x.2.2)
    let t := startResync a.id d r.stripe gen 0 outs w.s
    { w with s := if gone = [] then t else sliceLost a gone t, done_ := outs.map (fun x => (r.stripe, x.1, x.2)) ++ w.done_ }

/-- An OPEN record covers the restored lines that carry its INTENT_GEN; one that covers none is freed (R185). -/
def openCover (r : Rec) (s : State) : State :=
  let n := (s.sag.lines.filter (fun l => l.st == .dirty && l.intentGen == r.intentGen)).length
  if n = 0 then freeRec r.intentGen s else if n = r.dirty then s else writeRec r.intentGen (fun x => { x with dirty := n }) s

/-- One array is recovered from given records and usable lines, of which `back` are restored (R182 to R185). A takeover sets no
sector of an OPEN record LOST (R255). -/
def recoverWith (take : Bool) (inp : RecoveryInput) (recs : List Rec) (us back : List VaultSector) (a : Arr) (s : State) : State :=
  let key := arrayKey a.body.uid
  let s := s.onVault fun v => { v with own := v.own.filter (fun (r : Rec) => r.key != key) ++ recs }
  let s := back.foldl (fun t x => restoreLine a x t) s
  let lost := if take then [] else recs.foldl (fun l r => l ++ (recLost a us back r).filter (fun x => !l.contains x)) []
  let s := if ¬ take ∧ recs.any (fun (r : Rec) => (recLbas us r.intentGen).length != r.dirty) then raise { source := 0x142 } (noteLost a.id lost 2 s) else s
  let w : Recover := { s := s, lost2 := lost }
  let w := (recs.filter (fun (r : Rec) => r.st == .closing)).foldl (fun w r => resyncRec take inp us a r w) w
  let w := if take then w else (recs.filter (fun (r : Rec) => r.st == .opened)).foldl (fun w r => openLostRec inp us back a r w) w
  let s := (recs.filter (fun (r : Rec) => r.st == .opened)).foldl (fun t r => openCover r t) w.s
  s.onSag fun g => { g with openStripes := mapIf g.openStripes (fun o => o.array == a.id) (fun o => { o with ready := true, order := g.nextOrder }), nextOrder := g.nextOrder + 1 }

/-- Recovery of one array from its journal source (R121 step 7, R181). -/
def recoverArray (inp : RecoveryInput) (s : State) : State :=
  match s.array inp.array with
  | none => s
  | some a =>
    if a.service ≠ 1 ∨ a.creating then s
    else
      let (recs, gone) := sourceRecs s a inp
      let missing := (List.range a.body.members.length).filter (fun p => (a.entry p).state != 2 && (s.memberAt a p).isNone)
      let s := missing.foldl (fun t p => failMissing a.id p 8 [] t) s
      let s := if s.ownBound a inp then s else onArray a.id (fun x => { x with gen := max x.gen x.body.genFloor }) s
      let s := if gone then raise { source := 0x141 } (onArray a.id (fun x => { x with writesHeld := true }) s) else s
      match s.array inp.array with
      | some b => recoverWith false inp recs (usableSectors s b inp) (restoredSectors (usableSectors s b inp)) b s
      | none => s

/-- An imported array enters recovery (R121 step 6, R400). -/
def recoverImported (i : RecoveryInput) (s : State) : State :=
  match s.array i.array with
  | some a => if a.importing = 1 then recoverArray i (onArray a.id (fun x => { x with importing := 2 }) s) else s
  | none => s

/-- ARRAY_RECOVERY_START: after a cold reset and 10 ms of deassertion each array is recovered (R180); an imported array is
recovered in service (R400). -/
def recoveryStart (inputs : List RecoveryInput) (s : State) : State :=
  if s.dev.recovering ∧ s.sec.bootStep = 6 ∧ s.pins.resumeDone ∧ ¬ s.vault.stopped ∧ s.vault.phase = .idle then
    inputs.foldl (fun t i => recoverArray i t) (s.onVault fun v => { v with phase := .restoring, frozen := false })
  else if s.dev.recovering then s
  else inputs.foldl (fun t i => recoverImported i t) s
def execArrayRecoveryStart (inputs : List RecoveryInput) (s : State) : Out := done s (recoveryStart inputs s)

/-- Recovery is over: the vault is IDLE and arrays enter service (R185). -/
def finishRecovery (s : State) : State :=
  let t := s.onVault fun v => { v with status := .idle, phase := .idle }
  let t := t.onArr fun x => { x with arrays := mapIf x.arrays (fun a => a.service == 1 && !a.creating && a.importing == 0) (fun a => { a with service := 2 }) }
  t.onDev fun d => { d with recovering := false }

/-- Resynchronisation may write once the first mark update is in force (R121 steps 6 and 7). -/
def releaseResync (s : State) : State :=
  s.onArr fun x => { x with jobs := mapIf x.jobs (fun j => j.kind == .resync && !j.ringed &&
      !(x.jobs.any (fun m => m.kind == .mark && m.array == j.array)) &&
      !(x.arrays.any (fun a => a.id == j.array && (a.persisted.isSome || a.markWaiting.isSome)))) (fun j => { j with ringed := true }) }

/-- An imported array whose recovery is over enters service (R121 step 6, R400). -/
def importBoundary (s : State) : State :=
  (s.arr.arrays.filter (fun a => a.importing == 2)).foldl (fun t a =>
    if t.arr.jobs.any (fun j => j.array == a.id && (isClose j.kind || j.kind == .mark)) ∨ a.persisted.isSome ∨ a.markWaiting.isSome ∨
        t.sag.lines.any (fun l => l.array == a.id && (l.st == .dirty || l.st == .closing)) then t
    else a.body.volumes.foldl (fun u (v : Volume) => namespaceChanged v.nsid u) (onArray a.id (fun x => { x with importing := 0, service := 2 }) t)) s

/-- At a boundary: when every resynchronisation and close of recovery is acknowledged, the headers are written RESTORED (R185). -/
def recoveryBoundary (s : State) : State :=
  let t := importBoundary (releaseResync s)
  if s.vault.phase ≠ .restoring ∨ t.arr.jobs.any (fun j => isClose j.kind || j.kind == .headers) ∨
      t.sag.lines.any (fun l => l.st == .dirty || l.st == .closing) then t
  else
    let u := restoreHeaders 1 t
    if u.arr.cmds.any (fun c => c.job == t.arr.nextJob) then u else finishRecovery (endJob t.arr.nextJob u)

/-- A header write has ended (R175, R185). -/
def headersCmdDone (j : Job) (c : MCmd) (ok : Bool) (s : State) : State :=
  let t := if ok then s else declareFailed c.ns 5 s
  if (t.jobCmds j.id) ≠ [] then t
  else
    let t := endJob j.id t
    if j.stage = 1 then (if s.vault.phase = .restoring then finishRecovery t else t)
    else if s.vault.phase = .resuming then endResume t else t

end Sys2Proof.Machine
end

