-- ==== Sys2Proof/Machine/Endpoint.lean ====
section
/-! DEFINITION. The host endpoint (chapter 10): configuration space, interrupt tables, resets and power states, address
translation, host completions, the peer window, and the endpoint's registers. Configuration fields that R302 and R303 do not
list stand where the PCI Express base specification puts them (log entry 14). -/
namespace Sys2Proof.Machine

/-! ### Reachability -/

/-- Stage 1 and the option ROM partition have been verified, or the ROM presents configuration space itself (R305, R464, R467). -/
def State.bootReleased (s : State) : Bool := decide (3 ≤ s.sec.bootStep) || s.dev.recoveryBoot
/-- Requests of the host reach the function. -/
def State.reachable (s : State) : Bool := s.pins.main && !s.pins.perst && s.ep.up
/-- Memory requests are accepted (R305, R328). -/
def State.memReachable (s : State) : Bool := s.reachable && s.bootReleased && !s.ep.flrActive

/-! ### Interrupt tables (R311, R312) -/

/-- Entries that are pending and no longer masked are sent. -/
def msixUnmasked (s : State) : State :=
  if s.cfg.irqMode ≠ 3 ∨ s.cfg.msixMaskAll ∨ s.ep.d3hot then s
  else (s.msix.filter (fun e => e.2.pba && !e.2.mask)).foldl (fun t e => sendMsix e.1 t) s

/-- The 16 bytes of a table entry. -/
def MsixEntry.bytes (e : MsixEntry) : Bytes := leBytes 8 e.addr ++ leBytes 4 e.data ++ leBytes 4 (flag e.mask 0)
/-- An entry with bytes written over it. -/
def MsixEntry.write (e : MsixEntry) (off : Nat) (data : Bytes) : MsixEntry :=
  let b := slice (putBytes e.bytes off data) 0 16
  { e with addr := field b 0 8 / 4 * 4, data := field b 8 4, mask := bit (field b 12 4) 0 }

/-- MSIX_TABLE_WRITE: an offset in the table; unmasking sends a pending message (R311). -/
def msixWrite (off : Nat) (data : Bytes) (s : State) : State :=
  let v := off / 16
  msixUnmasked { s with msix := insert v ((s.msixAt v).write (off % 16) data) s.msix }
def execMsixTableWrite (off : Nat) (data : Bytes) (s : State) : Out :=
  done s (if s.memReachable ∧ off < 32768 ∧ off % 16 + data.length ≤ 16 then msixWrite off data s else s)

/-- MSI vectors that are pending and no longer masked are sent (R312). -/
def msiUnmasked (s : State) : State :=
  if s.cfg.irqMode ≠ 2 ∨ s.ep.d3hot then s
  else (List.range 32).foldl (fun t m =>
    if t.cfg.msiPending.getLsbD m ∧ ¬ t.cfg.msiMask.getLsbD m then
      emit (.intr 2 m t.cfg.msiAddr (t.cfg.msiData + m)) (t.onCfg fun c => { c with msiPending := c.msiPending &&& ~~~(BitVec.ofNat 32 (2 ^ m)) })
    else t) s

/-- At a boundary: the mode chosen takes effect, and sources pending are signalled in it (R310). -/
def irqModeBoundary (s : State) : State :=
  let m := s.cfg.chosenMode
  if m = s.cfg.irqMode then s
  else
    let t := s.onCfg fun c => { c with irqMode := m }
    if m = 0 then t
    else t.cfg.pending.foldl (fun u v => signal v u) (t.onCfg fun c => { c with pending := if m = 1 then c.pending else [] })

/-! ### Resets (R327, R329) -/

/-- Configuration fields after a reset: PME context is sticky, and FLR keeps BAR Size (R303, R308, R327). -/
def resetCfg (perst : Bool) (s : State) : Cfg :=
  { pmeEn := s.cfg.pmeEn, pmeStatus := s.cfg.pmeStatus, barSize := if perst then s.pw.bar4Default else s.cfg.barSize }

/-- The queue engine after a reset: registers and queues on both, the feature values on PERST# (R327, R519). CFS stays while
the device is FATAL (R441). -/
def resetNvme (perst : Bool) (s : State) : Nvme :=
  let n : Nvme := { cfs := s.fc.fatal, admitSeq := s.nvme.admitSeq, critical := s.nvme.critical }
  if perst then n else { n with feat := { s.nvme.feat with queuesSet := false }, errorLog := s.nvme.errorLog }

/-- What PERST#, a link down and an FLR share (R327). -/
def resetFunction (perst : Bool) (s : State) : State :=
  let t := resetMailboxes (carHostReset (abandonRequests (discardCommands s)))
  let t := { t with cfg := resetCfg perst t, msix := [], nvme := resetNvme perst t }
  let t := t.onEp fun e => { e with atc := [], atcFlush := false, invalidations := [], d3hot := false, d3Stop := false }
  let t := t.onKc fun k => { k with reissue := [] }
  t.onSched fun c => { c with globalEventEn := 0, globalVector := 0 }

/-- The effects of PERST# (R327). -/
def perstEffects (s : State) : State :=
  (resetFunction true s).onEp fun e => { e with speed := 0, width := 0, flit := false, up := false, degraded := false, flrActive := false, downPending := false }

/-- PERST_ASSERTED. -/
def perstAsserted (s : State) : State :=
  if s.pins.perst then s
  else ((perstEffects s).onEp fun e => { e with perstCount := bump e.perstCount }).onPins fun p => { p with perst := true }
def execPerstAsserted (s : State) : Out := done s (perstAsserted s)

/-- PERST_DEASSERTED: with main power present, WAKE# is released (R326). -/
def execPerstDeasserted (s : State) : Out :=
  done s (s.onPins fun p => { p with perst := false, wake := p.wake && !p.main })

/-- HOST_LINK_TRAINED: speed code 1 to 6 and lanes; below x8 or 8.0 GT/s it is degraded (R300). -/
def linkTrained (speed width : Nat) (flit : Bool) (s : State) : State :=
  let low := decide (width < 8) || decide (speed < 3)
  let t := s.onEp fun e => { e with speed := speed, width := width, flit := flit || speed == 6, up := true, degraded := low }
  if low then raise { source := 0x0E0 } t else t
def execHostLinkTrained (speed width : Nat) (flit : Bool) (s : State) : Out :=
  done s (if s.pins.main ∧ ¬ s.pins.perst then linkTrained speed width flit s else s)

/-- HOST_LINK_DOWN without PERST#: the effects follow at the next boundary (R329). -/
def execHostLinkDown (s : State) : Out :=
  done s (if s.ep.up then s.onEp fun e => { e with up := false, speed := 0, width := 0, flit := false, degraded := false, downPending := true } else s)

/-- At a boundary: the effects of a link down (R329). -/
def surpriseDown (s : State) : State :=
  if ¬ s.ep.downPending then s
  else raise { source := 0x0E7 } ((resetFunction true s).onEp fun e =>
    { e with flrActive := false, downPending := false, surpriseDowns := bump e.surpriseDowns })

/-- FLR: the function resets; until it completes, configuration requests are retried and memory requests discarded (R327, R328). -/
def flrStart (s : State) : State :=
  (resetFunction false s).onEp fun e => { e with flrActive := true, flrCount := bump e.flrCount }
def execFlr (s : State) : Out := done s (if s.memReachable then flrStart s else s)
/-- FLR_COMPLETE. -/
def execFlrComplete (s : State) : Out := done s (s.onEp fun e => { e with flrActive := false })

/-- D3HOT_ENTRY: fetch and admission stop at the next boundary (R324). -/
def d3Entry (s : State) : State := s.onEp fun e => { e with d3hot := true }
def execD3hotEntry (s : State) : Out := done s (if s.memReachable then d3Entry s else s)
/-- D3HOT_TO_D0: the FLR effects, because No_Soft_Reset is 0 (R324). -/
def d3Exit (s : State) : State :=
  if s.ep.d3hot then (resetFunction false s).onEp fun e => { e with flrCount := bump e.flrCount } else s
def execD3hotToD0 (s : State) : Out := done s (if s.reachable then d3Exit s else s)

/-- BAR_SIZE_WRITE: only while Memory Space Enable is clear, and only sizes advertised (R308). -/
def barSizeWrite (n : Nat) (s : State) : State :=
  if s.cfg.mse ∨ n < 30 ∨ 36 < n then s else s.onCfg fun c => { c with barSize := n }
def execBarSizeWrite (log2 : Nat) (s : State) : Out := done s (if s.memReachable then barSizeWrite log2 s else s)

/-! ### Configuration space (R302 to R305) -/

/-- A capability header: ID and next pointer. -/
def capHdr (id next rest : Nat) : Nat := id + next * 256 + rest * 65536
def extHdr (id ver next : Nat) : Nat := id + ver * 65536 + next * 1048576

/-- A BAR of `size` bytes as it reads: base, and type bits. -/
def barLow (base size bits : Nat) : Nat := u32 (base / size * size) + bits

/-- A configuration word at a byte offset. -/
def cfgRead (off : Nat) (s : State) : Nat :=
  let c := s.cfg
  match off / 4 * 4 with
  | 0x00 => 0x1E7B + 0x7480 * 65536
  | 0x04 => flag c.mse 1 + flag c.busMaster 2 + flag c.intDisable 10 + 0x100000 + flag (c.irqMode == 1 && c.pending != []) 19
  | 0x08 => 0xB1 + 0x010802 * 256
  | 0x10 => barLow c.bar0 0x10000 4
  | 0x14 => c.bar0 / 2 ^ 32
  | 0x18 => barLow c.bar2 0x100000 4
  | 0x1C => c.bar2 / 2 ^ 32
  | 0x20 => barLow c.bar4 (2 ^ c.barSize) 12
  | 0x24 => c.bar4 / 2 ^ c.barSize * 2 ^ c.barSize / 2 ^ 32
  | 0x2C => s.subVendorId + s.subsystemId * 65536
  | 0x30 => c.rom / 0x80000 * 0x80000 + c.rom % 2
  | 0x34 => 0x40
  | 0x3C => c.intLine + 0x100
  | 0x40 => capHdr 0x01 0x50 (3 + 7 * 64 + (1 + 8 + 16) * 2048)
  | 0x44 => (if s.ep.d3hot then 3 else 0) + flag c.pmeEn 8 + flag c.pmeStatus 15
  | 0x50 => capHdr 0x05 0x70 (flag c.msiEn 0 + 5 * 2 + c.mme * 16 + 0x80 + 0x100)
  | 0x54 => u32 c.msiAddr
  | 0x58 => c.msiAddr / 2 ^ 32
  | 0x5C => c.msiData
  | 0x60 => c.msiMask.toNat
  | 0x64 => c.msiPending.toNat
  | 0x70 => capHdr 0x10 0xB0 2
  | 0x74 => 0x10008002
  | 0x78 => flag c.relaxed 4 + c.mps * 32 + c.mrrs * 4096
  | 0x7C => 0x00000806 + 16 * 16
  | 0x80 => (s.ep.speed + s.ep.width * 16) * 65536
  | 0x94 => 0x0003000F
  | 0x98 => c.cplField + flag c.tag10 12
  | 0x9C => 0x7E
  | 0xB0 => capHdr 0x11 0 (2047 + flag c.msixMaskAll 14 + flag c.msixEn 15)
  | 0xB4 => 0xF0000 + 2
  | 0xB8 => 0xF8000 + 2
  | 0x100 => extHdr 0x0001 2 0x180
  | 0x104 => s.ep.aer.toNat
  | 0x180 => extHdr 0x0003 1 0x190
  | 0x184 => field deviceIdBytes 0 4
  | 0x188 => field deviceIdBytes 4 4
  | 0x190 => extHdr 0x0019 1 0x1C0
  | 0x1C0 => extHdr 0x0025 1 0x1D0
  | 0x1C4 => 0x80000001
  | 0x1D0 => extHdr 0x0026 1 0x200
  | 0x200 => extHdr 0x002A 1 0x240
  | 0x240 => extHdr 0x0031 1 0x250
  | 0x250 => extHdr 0x0027 1 0x2A0
  | 0x2A0 => extHdr 0x0015 1 0x2B0
  | 0x2A4 => 0x7F * 2 ^ 14
  | 0x2A8 => 4 + 32 + (c.barSize - 20) * 256
  | 0x2B0 => extHdr 0x000F 1 0
  | 0x2B4 => 0x20 + flag c.atsEn 31
  | _ => 0

/-- A write of the power management status word (R324, R326). -/
def pmWrite (v : Nat) (s : State) : State :=
  let t := s.onCfg fun c => { c with pmeEn := bit v 8, pmeStatus := c.pmeStatus && !bit v 15 }
  let t := if bit v 15 then t.onPins fun p => { p with wake := false } else t
  if v % 4 = 3 then d3Entry t else if v % 4 = 0 then d3Exit t else t

/-- A write of a configuration word: a field that starts an FLR, a D-state change or a BAR4 resize does what its own row does. -/
def cfgWrite (off v : Nat) (s : State) : State :=
  match off / 4 * 4 with
  | 0x04 => s.onCfg fun c => { c with mse := bit v 1, busMaster := bit v 2, intDisable := bit v 10 }
  | 0x10 => s.onCfg fun c => { c with bar0 := c.bar0 / 2 ^ 32 * 2 ^ 32 + v / 65536 * 65536 }
  | 0x14 => s.onCfg fun c => { c with bar0 := u32 c.bar0 + v * 2 ^ 32 }
  | 0x18 => s.onCfg fun c => { c with bar2 := c.bar2 / 2 ^ 32 * 2 ^ 32 + v / 1048576 * 1048576 }
  | 0x1C => s.onCfg fun c => { c with bar2 := u32 c.bar2 + v * 2 ^ 32 }
  | 0x20 => s.onCfg fun c => { c with bar4 := c.bar4 / 2 ^ 32 * 2 ^ 32 + v / 16 * 16 }
  | 0x24 => s.onCfg fun c => { c with bar4 := u32 c.bar4 + v * 2 ^ 32 }
  | 0x30 => s.onCfg fun c => { c with rom := v / 0x80000 * 0x80000 + v % 2 }
  | 0x3C => s.onCfg fun c => { c with intLine := v % 256 }
  | 0x44 => pmWrite v s
  | 0x50 => s.onCfg fun c => { c with msiEn := bit v 16, mme := min 5 (v / 2 ^ 20 % 8) }
  | 0x54 => s.onCfg fun c => { c with msiAddr := c.msiAddr / 2 ^ 32 * 2 ^ 32 + v / 4 * 4 }
  | 0x58 => s.onCfg fun c => { c with msiAddr := u32 c.msiAddr + v * 2 ^ 32 }
  | 0x5C => s.onCfg fun c => { c with msiData := v % 65536 }
  | 0x60 => msiUnmasked (s.onCfg fun c => { c with msiMask := BitVec.ofNat 32 v })
  | 0x78 =>
    let t := s.onCfg fun c => { c with relaxed := bit v 4, mps := v / 32 % 8, mrrs := v / 4096 % 8 }
    if bit v 15 then flrStart t else t
  | 0x98 => s.onCfg fun c => { c with cplField := v % 16, tag10 := bit v 12 }
  | 0xB0 => msixUnmasked (s.onCfg fun c => { c with msixEn := bit v 31, msixMaskAll := bit v 30 })
  | 0x104 => s.onEp fun e => { e with aer := e.aer &&& ~~~(BitVec.ofNat 32 v) }
  | 0x2A8 => barSizeWrite (v / 256 % 64 + 20) s
  | 0x2B4 =>
    let t := if s.cfg.atsEn ∧ ¬ bit v 31 then s.onEp fun e => { e with atcFlush := true } else s
    t.onCfg fun c => { c with atsEn := bit v 31 }
  | _ => s

/-- CONFIG_REQUEST (R305, R328). -/
def configRequest (write : Bool) (reg value : Nat) (s : State) : State :=
  if ¬ s.reachable then s
  else if ¬ s.bootReleased ∨ s.ep.flrActive then emit .cfgRetry s
  else if write then emit (.cfgCompletion 0) (cfgWrite reg (u32 value) s)
  else emit (.cfgCompletion (cfgRead reg s)) s
def execConfigRequest (write : Bool) (reg value : Nat) (s : State) : Out := done s (configRequest write reg value s)

/-- EXPANSION_ROM_READ: the option ROM partition (type 5) of the slot from which stage 1 booted (R309). -/
def romRead (off len : Nat) (s : State) : State :=
  emit (.memCompletion ((List.range len).map (fun i => Config.flashByte (flag s.sec.bootedB 0) 5 (off + i)))) s
def execExpansionRomRead (off len : Nat) (s : State) : Out :=
  done s (if s.memReachable ∧ off + len ≤ 0x80000 then romRead off len s else s)

/-! ### Address translation (R314, R315) -/

/-- The completion timeout in force, in microseconds (R316). -/
def cplTimeoutUs (f : Nat) : Nat :=
  match f with
  | 1 => 80 | 2 => 8000 | 5 => 40000 | 6 => 160000 | 9 => 640000 | 10 => 2500000 | 13 => 10000000 | 14 => 40000000 | _ => 40000

/-- A bus error on a host access: the command whose access failed ends, and the kiln car halts (R317, R429). -/
def busError (r : HostReq) (kind addr source : Nat) (s : State) : State :=
  let t := match r with
    | .writeData q cid _ => cmdFail q cid scTransfer s
    | .mciInput mb => mciFail mb stBuffer 0 0 s
    | .channel _ _ => s
  let (own, pre) := match r with | .channel ch p => (some ch, p) | _ => (none, false)
  carHalt kind addr own pre [{ source := source, addr := some addr, space := 0 }] t

/-- HALT_INFO.KIND of an error completion (R433). -/
def cplKind : CplStatus → Nat | .ok => 0 | .unsupported => 1 | .abort => 2 | .poisoned => 3

/-- A translation enters the cache of 4,096 entries; the oldest one makes room. -/
def cacheTranslation (page : Nat) (r w : Bool) (s : State) : State :=
  s.onEp fun e =>
    let others := e.atc.filter (fun x => x.1 != page)
    { e with atc := (if others.length < 4096 then others else others.drop 1) ++ [(page, r, w)] }

/-- TRANSLATION_COMPLETION (R314). -/
def translated (q cid page : Nat) (needWrite : Bool) (res : AtsResult) (s : State) : State :=
  let refuse (t : State) : State := raise { source := 0x0E4, addr := some (page * 4096), space := 0 } (cmdFail q cid scTransfer t)
  match res with
  | .granted p r w =>
    let t := cacheTranslation p r w s
    if (if needWrite then w else r) then t else refuse t
  | .untranslatedOnly => s
  | .denied => refuse s
  | .error st => carHalt (cplKind st) (page * 4096) none false [{ source := 0x0E2, addr := some (page * 4096), space := 0 }] (cmdFail q cid scTransfer s)
def execTranslationCompletion (sqid cid page : Nat) (needWrite : Bool) (res : AtsResult) (s : State) : Out :=
  done s (if s.cfg.atsEn then translated sqid cid page needWrite res s else s)

/-- ATS_INVALIDATE_REQUEST: covered translations are no longer used, and the requests already issued are awaited (R315). -/
def invalidate (itag page pages : Nat) (s : State) : State :=
  s.onEp fun e => { e with
    atc := e.atc.filter (fun x => !(decide (page ≤ x.1) && decide (x.1 < page + pages))),
    invalidations := e.invalidations ++ [(itag, page, pages, e.reqs.map (·.1))] }
def execAtsInvalidateRequest (itag page pages : Nat) (s : State) : Out :=
  done s (if s.reachable then invalidate itag page pages s else s)

/-- INVALIDATION_COMPLETE: once none of those requests is outstanding (R315). -/
def invalidated (itag : Nat) (s : State) : State :=
  match s.ep.invalidations.find? (fun x => x.1 == itag) with
  | some x =>
    if s.ep.reqs.any (fun r => x.2.2.2.contains r.1) then s
    else emit (.invalidationCompletion itag) (s.onEp fun e =>
      { e with invalidations := e.invalidations.filter (fun y => y.1 != itag), atsInvalidations := bump e.atsInvalidations })
  | none => s
def execInvalidationComplete (itag : Nat) (s : State) : Out := done s (invalidated itag s)

/-! ### Completions of host requests (R316 to R318) -/

/-- The outstanding request of a tag. -/
def State.hostReq (s : State) (tag : Nat) : Option HostReq := (s.ep.reqs.find? (fun r => r.1 == tag)).map (·.2)
def dropReq (tag : Nat) (s : State) : State := s.onEp fun e => { e with reqs := e.reqs.filter (fun r => r.1 != tag) }

/-- HOST_COMPLETION_RECEIVED: late, unexpected, an error, or data, which the row of what asked for it takes up. -/
def hostCompletion (tag : Nat) (st : CplStatus) (addr : Nat) (s : State) : State :=
  if s.ep.quarantined.contains tag then
    raise { source := 0x0E3 } (s.onEp fun e => { e with lateCompletions := bump e.lateCompletions })
  else match s.hostReq tag with
    | none => s.onEp fun e => { e with aer := e.aer ||| 0x10000 }
    | some r =>
      if st = .ok then (match r with | .channel _ _ => dropReq tag s | _ => s)
      else
        let t := if st = .poisoned then s.onEp fun e => { e with poisoned := bump e.poisoned } else s
        busError r (cplKind st) addr 0x0E2 (dropReq tag t)
def execHostCompletionReceived (tag : Nat) (st : CplStatus) (addr : Nat) (s : State) : Out := done s (hostCompletion tag st addr s)

/-- COMPLETION_TIMEOUT: counted, the tag quarantined, a bus error (R316 to R318). -/
def cplTimedOut (tag addr : Nat) (s : State) : State :=
  match s.hostReq tag with
  | none => s
  | some r => busError r 0 addr 0x0E1 ((dropReq tag s).onEp fun e =>
      { e with cplTimeouts := bump e.cplTimeouts, quarantined := addOnce tag e.quarantined })
def execCompletionTimeout (tag addr : Nat) (s : State) : Out := done s (cplTimedOut tag addr s)

/-- TAG_QUARANTINE_EXPIRED (R318). -/
def execTagQuarantineExpired (tag : Nat) (s : State) : Out :=
  done s (s.onEp fun e => { e with quarantined := e.quarantined.filter (· != tag) })

/-! ### The peer window (R319 to R323) -/

/-- Segment size in bytes (R308). -/
def State.segSize (s : State) : Nat := 2 ^ s.cfg.barSize / 256
def segAt (l : List (Nat × Seg)) (i : Nat) : Seg := (lookup l i).getD {}

/-- The staging address of a request, none where it is rejected (R320). -/
def pwTranslate (s : State) (write : Bool) (off len : Nat) : Option Nat :=
  let e := segAt s.pw.active (off / s.segSize)
  let w := off % s.segSize
  if ¬ e.valid ∨ e.pages * 4096 < w + len then none
  else if (if write then ¬ e.write else ¬ e.read) then none
  else some (e.off + w)

/-- A rejected request (R320). -/
def pwReject (write : Bool) (off : Nat) (s : State) : State :=
  let t := s.onEp fun e => { e with urReceived := bump e.urReceived, aer := if write then e.aer ||| 0x100000 else e.aer }
  let t := raise { source := 0x0E5, access := if write then 2 else 1, addr := some off } t
  if write then t else emit .unsupportedCompletion t

/-- PEER_WINDOW_REQUEST. For a read, `poisoned` says that the copy of a staging line it touches is uncorrectable (R319). -/
def peerWindow (write : Bool) (off len : Nat) (poisoned : Bool) (data : Bytes) (s : State) : State :=
  if write ∧ poisoned then s.onEp fun e => { e with poisoned := bump e.poisoned }
  else match pwTranslate s write off len with
    | none => pwReject write off s
    | some a =>
      if write then stagingWrite a (data.take len) s
      else if poisoned then
        let ch := s.primChan (a / 4096)
        emit .poisonedCompletion (raise { source := 0x128 + ch, loc := some (locEngine 0 8 ch) }
          (s.onSag fun g => { g with ueSeen := g.ueSeen ||| BitVec.ofNat 8 (2 ^ ch) }))
      else emit (.memCompletion (stagingBytes s a len)) s
def execPeerWindowRequest (write : Bool) (off len : Nat) (poisoned : Bool) (data : Bytes) (s : State) : Out :=
  done s (if s.memReachable then peerWindow write off len poisoned data s else s)

/-- PW_COMMIT: COMMIT sets PENDING (R321). -/
def execPwCommit (value : Nat) (s : State) : Out :=
  done s (if bit value 0 then s.onPw fun w => { w with pending := true } else s)

/-- Two areas of staging overlap. -/
def segOverlap (a b : Seg) : Bool :=
  decide (a.off < b.off + b.pages * 4096) && decide (b.off < a.off + a.pages * 4096)

/-- Whether the copy rejects a VALID staged entry (R322). -/
def segRejected (s : State) (i : Nat) (e : Seg) : Bool :=
  e.pages == 0 || decide (s.segSize < e.pages * 4096) || e.off % 4096 != 0 || decide (s.pw.stagingMib * 1048576 < e.off + e.pages * 4096) ||
  s.pw.staged.any (fun x => decide (x.1 < i) && x.2.valid && segOverlap e x.2)

/-- At a boundary: the staged table is checked and copied (R321, R322). -/
def pwBoundary (s : State) : State :=
  if ¬ s.pw.pending then s
  else
    let bad := (s.pw.staged.filter (fun x => x.2.valid && segRejected s x.1 x.2)).map (·.1)
    let t := s.onPw fun w => { w with
      pending := false, gen := (w.gen + 1) % 65536, error := bad != [], rejected := bad,
      active := w.staged.map (fun x => (x.1, if bad.contains x.1 then { x.2 with valid := false } else x.2)) }
    bad.foldl (fun u i => raise { source := 0x0E6, addr := some i } u) t

/-! ### Registers (R330) -/

/-- A word of a segment entry. -/
def segWord (e : Seg) (k : Nat) : Nat :=
  match k with
  | 0 => flag e.valid 0 + flag e.read 1 + flag e.write 2
  | 1 => e.pages
  | 2 => u32 e.off
  | _ => e.off / 2 ^ 32
/-- An entry with a word written. -/
def segSet (e : Seg) (k v : Nat) : Seg :=
  match k with
  | 0 => { e with valid := bit v 0, read := bit v 1, write := bit v 2 }
  | 1 => { e with pages := v }
  | 2 => { e with off := e.off / 2 ^ 32 * 2 ^ 32 + v }
  | _ => { e with off := u32 e.off + v * 2 ^ 32 }

/-- The value of an endpoint register; none is reserved space. -/
def epReg (off : Nat) (s : State) : Option Nat :=
  let e := s.ep
  match off with
  | 0x000 => some (e.speed + e.width * 8 + flag e.flit 8 + flag e.up 9 + flag e.degraded 10)
  | 0x004 => some ((if e.d3hot then 3 else 0) + flag s.pins.perst 2 + flag e.flrActive 3 + flag s.cfg.atsEn 4 + flag s.cfg.relaxed 5 + s.cfg.irqMode * 64)
  | 0x008 => some (cplTimeoutUs s.cfg.cplField)
  | 0x00C => some e.cplTimeouts
  | 0x010 => some e.lateCompletions
  | 0x014 => some (e.quarantined.length % 1024)
  | 0x018 => some e.urReceived
  | 0x01C => some e.poisoned
  | 0x020 => some e.atsInvalidations
  | 0x024 => some e.perstCount
  | 0x028 => some e.flrCount
  | 0x02C => some e.surpriseDowns
  | 0x030 => some s.cfg.barSize
  | 0x034 => some s.pw.stagingMib
  | 0x038 => some 0
  | 0x03C => some (flag s.pw.pending 0 + flag s.pw.error 1 + s.pw.gen * 65536)
  | _ =>
    if off % 4 ≠ 0 then none
    else if 0x040 ≤ off ∧ off < 0x060 then
      some (bitmap ((List.range 32).map (fun b => s.pw.rejected.contains ((off - 0x040) / 4 * 32 + b))))
    else if 0x1000 ≤ off ∧ off < 0x2000 then some (segWord (segAt s.pw.active ((off - 0x1000) / 16)) (off / 4 % 4))
    else if 0x2000 ≤ off ∧ off < 0x3000 then some (segWord (segAt s.pw.staged ((off - 0x2000) / 16)) (off / 4 % 4))
    else none

/-- The RC registers of the endpoint cleared by a read. -/
def epClear (off : Nat) (s : State) : State :=
  s.onEp fun e => match off with
    | 0x00C => { e with cplTimeouts := 0 }
    | 0x010 => { e with lateCompletions := 0 }
    | 0x018 => { e with urReceived := 0 }
    | 0x01C => { e with poisoned := 0 }
    | 0x020 => { e with atsInvalidations := 0 }
    | 0x024 => { e with perstCount := 0 }
    | 0x028 => { e with flrCount := 0 }
    | 0x02C => { e with surpriseDowns := 0 }
    | _ => e

/-- A write to the endpoint block: the staged segment table; PW_COMMIT has a row of its own. -/
def epWrite (off v : Nat) (s : State) : State :=
  if 0x2000 ≤ off ∧ off < 0x3000 then
    let i := (off - 0x2000) / 16
    s.onPw fun w => { w with staged := insert i (segSet (segAt w.staged i) (off / 4 % 4) v) w.staged }
  else s

/-! ### PEER_WINDOW_CONFIG (R331) -/

/-- PW_STAGING_MIB and BAR4_DEFAULT. -/
def pwFields (s : State) (m : Mailbox) : Nat × Nat × Parse :=
  let lim := s.sag.capacityLines / 2048
  let (a, p) := m.parse.num 1 0 4 { lo := 4, hi := max 4 (min 65536 lim), dflt := 1024, round := 1, gran := 4, depHi := decide (lim < 65536) }
  let (b, p) := p.num 2 4 1 { lo := 30, hi := 36, dflt := 30 }
  (a, b, p)
/-- Stored; in force at the next cold reset. -/
def pwConfigAct (mb : Nat) (m : Mailbox) (s : State) : State :=
  let (a, b, _) := pwFields s m
  mciOk mb [] [] (recordConfig 0x0C06 (leBytes 4 a ++ leBytes 1 b) { s with polNext := { s.polNext with pwStagingMib := a, bar4Default := b } })
/-- Fields, objects and refusals of the command (steps 5 to 7 of R366). -/
def peerWindowConfigPlan (s : State) (m : Mailbox) : Plan :=
  { p := (pwFields s m).2.2, objects := [objPeerWindow] }
def execPeerWindowConfig (mb : Nat) (s : State) : Out :=
  done s (mciRun mb 0x0C06 s (peerWindowConfigPlan s) (pwConfigAct mb))

end Sys2Proof.Machine
end

