-- ==== Sys2Proof/Machine/MciDevice.lean ====
section
/-! DEFINITION. Device commands (R383 to R387), the identifier ranges of R404 and what counts as in service (R382, R576). -/
namespace Sys2Proof.Machine

/-! ### What the device serves (R404, R576) -/

/-- The side that a bind to a partner gives this device (R232). -/
def sideWith (p : BitVec 128) : Nat := if p.toNat < Config.deviceId.toNat then 1 else 0
/-- First and last array ID that this side assigns (R404). -/
def State.arrayIds (s : State) : Nat × Nat := match s.twin.bound with | none => (0, 63) | some p => if sideWith p = 0 then (0, 31) else (32, 63)
/-- First and last namespace identifier that this side assigns (R404). -/
def State.nsids (s : State) : Nat × Nat := match s.twin.bound with | none => (1, 1024) | some p => if sideWith p = 0 then (1, 512) else (513, 1024)

/-- Arrays in service, by ID: recovering ones too, but none whose first mark is not persisted (R396, R397). -/
def State.liveArrays (s : State) : List Arr := (s.arr.arrays.filter (fun a => !a.creating)).mergeSort (fun x y => x.id ≤ y.id)
/-- The array that an ARRAY field names (R382). -/
def State.namedArray (s : State) (n : Nat) : Option Arr := if n = 0 then none else s.liveArrays.find? (fun a => a.id + 1 == n)
/-- Volumes in service, with their arrays. -/
def State.liveVolumes (s : State) : List (Arr × Volume) := s.liveArrays.flatMap (fun a => a.body.volumes.map (fun v => (a, v)))
/-- Namespaces adopted by this device. -/
def State.adoptedNs (s : State) : List Ns := s.arr.ns.filter (·.adopted)

/-! ### IDENTIFY_DEVICE and GET_LIMITS (R383, R384) -/

/-- Control firmware and microcode revisions are kept as R383 encodes them. -/
def identifyBytes (s : State) : Bytes :=
  let v (f : State → Nat) (n : Nat) : Bytes := leBytes n (f s)
  padTo 256 (deviceIdBytes ++ v (·.hw.present.toNat) 4 ++ v (·.unitService.toNat) 4 ++ leBytes 2 0x7480 ++ leBytes 1 0xB1 ++
    v (·.hw.lifecycle.code) 1 ++ v (·.sec.fwVersion) 4 ++ v (·.sec.microcode) 4 ++ leBytes 2 1 ++ v (·.sched.lenSel) 1 ++
    leBytes 1 (flag s.twin.bound.isSome 0 + ((s.twin.bound.map sideWith).getD 0) * 2 + s.twin.mode % 4 * 4) ++ leBytes 8 (s.sag.capacityLines * 4096) ++
    leBytes 4 64 ++ v (·.hw.epoch) 4 ++ ftBytes s.now ++ leBytes 2 s.liveArrays.length ++ leBytes 2 s.liveVolumes.length ++
    leBytes 2 s.adoptedNs.length ++ leBytes 2 0 ++ leBytes 16 ((s.twin.bound.map (·.toNat)).getD 0) ++ padTo 32 s.pol.name)
/-- Fields, objects and refusals of the command (steps 5 to 7 of R366). -/
def identifyDevicePlan (_s : State) (m : Mailbox) : Plan :=
  { p := m.parse }
def execIdentifyDevice (mb : Nat) (s : State) : Out :=
  done s (mciRun mb 0x0101 s (identifyDevicePlan s) (fun _ t => mciOk mb (identifyBytes t) [] t))

/-- The dirty budget cap in force, in bytes (R149, R384). -/
def dirtyCapBytes (s : State) : Nat :=
  let b := s.sag.poolLines * 40 / 100
  (match s.capLines with | some c => min b c | none => b) * 4096
def limitsBytes (s : State) : Bytes :=
  (([256, 232, 64, 1024, 4096, 256, 16384, 60, 64, 3 + 2 * 256 + 4 * 65536, 14 + 20 * 256, 1048576, 34359738368,
     s.nsids.1 + s.nsids.2 * 65536, s.arrayIds.1 + s.arrayIds.2 * 256, dirtyCapBytes s, s.sag.poolLines, 1048576] : List Nat).map (leBytes 8)).flatten
/-- Fields, objects and refusals of the command (steps 5 to 7 of R366). -/
def getLimitsPlan (_s : State) (m : Mailbox) : Plan :=
  { p := m.parse }
def execGetLimits (mb : Nat) (s : State) : Out :=
  done s (mciRun mb 0x0102 s (getLimitsPlan s) (fun _ t => mciOk mb (limitsBytes t) [] t))

/-! ### DEVICE_SET_CONFIG (R385) -/

/-- LEN_SEL, the subsystem IDs and DEVICE_NAME, with the fields handled. -/
def setConfigFields (s : State) (m : Mailbox) : Nat × Nat × Nat × Bytes × Parse :=
  let (l, p) := m.parse.enum 1 0 1 [0, 1, 2] 0
  let (v, p) := p.num 2 2 2 { lo := 1, hi := 0xFFFF, dflt := s.subVendorId }
  let (i, p) := p.num 3 4 2 { lo := 1, hi := 0xFFFF, dflt := s.subsystemId }
  (l, v, i, p.raws 8 32 (leBytes 32 0), p)
/-- A stored subsystem value; 0xFFFF clears it. -/
def storedId (v : Nat) : Option Nat := if v = 0xFFFF then none else some v
def setConfigAct (mb : Nat) (m : Mailbox) (s : State) : State :=
  let (l, v, i, name, _) := setConfigFields s m
  mciOk mb (leBytes 1 l ++ leBytes 1 0 ++ leBytes 2 v ++ leBytes 2 i ++ leBytes 2 0 ++ padTo 32 name) []
    (recordConfig 0x0103 (leBytes 1 l ++ leBytes 1 0 ++ leBytes 2 v ++ leBytes 2 i ++ leBytes 2 0 ++ padTo 32 name)
      { s with pol := { s.pol with name := trimZeros name },
               polNext := { s.polNext with lenSel := l, subVendor := storedId v, subId := storedId i, name := trimZeros name } })
/-- Fields, objects and refusals of the command (steps 5 to 7 of R366). -/
def deviceSetConfigPlan (s : State) (m : Mailbox) : Plan :=
  { p := (setConfigFields s m).2.2.2.2, objects := [objDeviceConfig] }
def execDeviceSetConfig (mb : Nat) (s : State) : Out :=
  done s (mciRun mb 0x0103 s (deviceSetConfigPlan s) (setConfigAct mb))

/-! ### UNIT_CONTROL (R22 to R25, R387) -/

/-- KIND, INDEX and ACTION. -/
def unitFields (m : Mailbox) : Nat × Nat × Nat × Parse :=
  let (k, p) := m.parse.enum 1 0 1 [1, 2, 3, 4] 1
  let i := p.raw 2 2
  let (a, p) := p.enum 3 4 1 [1, 2, 3, 4] 4
  (k, i, a, p)

/-- The unit exists. -/
def State.unitExists (s : State) (kind i : Nat) : Bool :=
  match kind with
  | 1 => s.kilnPresent i
  | 2 => s.portExists i
  | 3 => i == 0 && s.slipPresent
  | _ => s.coilPresent i

/-- The bit of UNIT_SERVICE that is the unit's own; member ports have none (R21). -/
def serviceBit (kind i : Nat) : Option Nat := match kind with | 1 => some i | 3 => some 20 | 4 => some (18 + i) | _ => none

/-- A change of kiln `n`'s service is still to take effect. -/
def State.kilnChanging (s : State) (n : Nat) : Bool := s.sched.servicePending.getLsbD n != s.sched.service.getLsbD n

/-- A live operation runs on the unit (R22, R25). -/
def State.unitBusy (s : State) (kind i : Nat) : Bool :=
  match kind with
  | 1 => s.kilnChanging i
  | 2 => (s.port i).training
  | 3 => s.twin.training
  | _ => s.coil.training.getLsbD i

/-- A test holds the unit (R530). -/
def State.inTest (s : State) (kind i : Nat) : Bool := s.tst.tests.any (fun t => t.unit == kind && t.index == i)

/-- Some live operation of R22 runs: an activation waits for it (R25). -/
def State.liveOp (s : State) : Bool :=
  (List.range 4).any s.kilnChanging || s.arr.ports.any (fun q => q.training || q.debounce.isSome) || s.twin.training || s.coil.training != 0 ||
  s.arr.arrays.any (fun a => a.body.migrating) || s.tst.bundles.any (fun b => b.repair.isSome) || s.ep.flrActive

/-- The response of UNIT_CONTROL. -/
def unitBytes (result : Nat) (s : State) : Bytes := leBytes 4 s.unitService.toNat ++ leBytes 1 result
/-- RESULT of a unit as it is. -/
def State.unitResult (s : State) (kind i : Nat) : Nat :=
  match kind with
  | 2 => if (s.port i).training then 1 else 0
  | 1 => if s.inService i then 0 else 1
  | 3 => if s.inService 20 then 0 else 1
  | _ => if s.inService (18 + i) then 0 else 1

/-- A waiting UNIT_CONTROL of the unit completes. -/
def finishUnit (kind i result : Nat) (s : State) : State :=
  (List.range 16).foldl (fun t j =>
    let m := t.mb j
    if m.st = .executing ∧ m.opcode = 0x0105 ∧ m.started ∧ m.staged.isNone ∧ m.objects = [objUnit kind i] then mciOk j (unitBytes result t) [] t else t) s

/-- Refusals of R387 and R24. -/
def unitPlan (selfTestPasses : Bool) (s : State) (m : Mailbox) : Plan :=
  let (k, i, a, p) := unitFields m
  { p := p, objects := [objUnit k i], noObject := if s.unitExists k i then none else some 2,
    busy := a != 4 && (s.dev.activating || s.unitBusy k i || (a == 1 && k == 1 && s.kilns == [i])),
    refuse :=
      if a = 4 then none
      else if (k = 1) = (a = 3) then some (stConflict, 0, 1)
      else if s.inTest k i then some (stConflict, 0, 3)
      else if a = 2 ∧ ¬ selfTestPasses then some (stConflict, 0, 2) else none }

/-- FENCE and RETURN complete at the boundary at which UNIT_SERVICE changes, RETRAIN when training ends. A port with no power
has nothing to train. -/
def unitAct (mb : Nat) (m : Mailbox) (s : State) : State :=
  let (k, i, a, _) := unitFields m
  let now (t : State) : State := mciOk mb (unitBytes (t.unitResult k i) t) [] t
  match a with
  | 1 => let t := setKiln i false s; if t.kilnChanging i then t else now t
  | 2 => let t := setKiln i true s; if t.kilnChanging i then t else now t
  | 3 => match k with
    | 2 => if (s.port i).power then retrainPort i s else mciOk mb (unitBytes 2 s) [] s
    | 3 => retrainSlip s
    | _ => retrainCoil i s
  | _ => now s
/-- A self-test that fails is counted (R538, R541). -/
def unitControl (mb : Nat) (selfTestPasses : Bool) (s : State) : State :=
  let t := mciRun mb 0x0105 s (unitPlan selfTestPasses s) (unitAct mb)
  let failed : Bool := match (t.mb mb).staged with | some r => r.status == stConflict && r.errDetail == 2 | none => false
  if s.mbReady mb 0x0105 ∧ failed then t.onTst fun x => { x with mbistFails := bump x.mbistFails } else t
def execUnitControl (mb : Nat) (selfTestPasses : Bool) (s : State) : Out := done s (unitControl mb selfTestPasses s)

end Sys2Proof.Machine
end

