-- ==== Sys2Proof/Machine/MciMember.lean ====
section
/-! DEFINITION. Member commands (R388 to R394): location fields, listing, adoption, release, failure and replacement. -/
namespace Sys2Proof.Machine

/-! ### Naming a namespace (R388) -/

/-- A namespace that the device reaches now. -/
def State.reached (s : State) : List Ns := s.arr.ns.filter (fun n => n.loc.remote || (s.port n.loc.port).present)

/-- The location fields, whose IDs start at `id` and offsets at `off`: the place, and the field that names no object. -/
def locFields (s : State) (p : Parse) (id off : Nat) : Option Ns × Option Nat × Parse :=
  let (att, p) := p.enum id off 1 [1, 2] 1
  if att = 1 then
    let port := p.raw (off + 2) 2
    let nsid := p.raw (off + 4) 4
    match s.reached.find? (fun n => !n.loc.remote && n.loc.port == port && n.loc.nsid == nsid && nsid != 0) with
    | some n => (some n, none, p)
    | none => (none, some (if s.portExists port then id + 2 else id + 1), p)
  else
    let node := p.raw (off + 8) 4
    let ex := p.raw (off + 12) 2
    match s.reached.find? (fun n => n.loc.remote && n.loc.node == node && n.loc.exp == ex && node != 0 && ex != 0) with
    | some n => (some n, none, p)
    | none => (none, some (if s.reached.any (fun n => n.loc.remote && n.loc.node == node && node != 0) then id + 4 else id + 3), p)

/-! ### MEMBER_LIST (R389) -/

/-- The format that adoption takes: SECTOR_FORMAT, and whether Format NVM is needed (R73). -/
def chosenFormat (i : NsIdent) (allow : Bool) : Option (Nat × Bool) :=
  if i.fmt = 0 ∧ ¬ i.pi then some (0, false)
  else if allow ∧ i.offers64 then some (0, true)
  else if i.fmt = 1 ∧ ¬ i.pi then some (1, false)
  else if allow ∧ i.offers0 then some (1, true)
  else none

/-- R73 or R74 bars the namespace, with formatting permitted (R389; R76 is no ground of UNUSABLE). -/
def unusable (i : NsIdent) : Bool := i.capacity < 1048576 || 34359738368 < i.capacity || (chosenFormat i true).isNone

/-- STATUS of a namespace. A free mark of a third device counts as UNADOPTED. -/
def memberStatus (n : Ns) : Nat :=
  if n.stale then 4 else if n.adopted then (if n.arrayUid = 0 then 1 else 2) else if n.byPartner then 6
  else if n.markValid ∧ n.arrayUid ≠ 0 then 3 else if unusable n.ident then 5 else 0

/-- The array in service that holds the namespace. -/
def State.arrayOfNs (s : State) (n : Ns) : Option Arr :=
  if n.adopted ∧ ¬ n.stale ∧ n.arrayUid ≠ 0 then s.liveArrays.find? (fun a => a.body.uid == n.arrayUid) else none

/-- CONDITION of a member (R192, R389). -/
def conditionCode (n : Ns) (e : MemEntry) : Nat :=
  if e.state = 2 ∨ n.failing.isSome then 3 else if n.cond ≠ .healthy ∨ n.declare.isSome then 2 else if e.state = 3 then 4 else if e.state = 4 then 5 else 1

/-- One entry of MEMBER_LIST. -/
def memberListEntry (s : State) (n : Ns) : Bytes :=
  let a := s.arrayOfNs n
  leBytes 16 n.ident.uid ++ leBytes 1 (memberStatus n) ++ leBytes 1 (flag n.loc.remote 0) ++ leBytes 2 (if n.loc.remote then 0xFFFF else n.loc.port) ++
  leBytes 4 (if n.loc.remote then n.loc.exp else n.loc.nsid) ++ leBytes 4 (if n.loc.remote then n.loc.node else 0) ++
  leBytes 1 ((a.map (fun a => a.id + 1)).getD 0) ++ leBytes 1 (if n.markValid then n.ident.fmt else 0xFF) ++
  leBytes 2 (if a.isSome then n.poolIndex else 0xFFFF) ++ leBytes 8 n.ident.capacity ++
  (if n.markValid then leBytes 8 n.dataSectors ++ leBytes 4 n.journal ++ leBytes 4 n.vault else leBytes 16 0) ++
  leBytes 1 ((a.map (fun a => conditionCode n (a.entry n.poolIndex))).getD 0) ++
  leBytes 1 (flag (s.vault.members.any (fun v => v.uid == n.ident.uid && v.uid != 0)) 0 +
    flag ((a.map (fun a => a.body.journalMembers.contains n.poolIndex)).getD false) 1 + flag n.wearRaised 2 + flag n.ident.twin 3) ++ leBytes 6 0

/-- MEMBER_LIST: local namespaces by port and NSID, then remote ones by node and export. -/
def memberListAct (mb : Nat) (s : State) : State :=
  let l := (s.reached.mergeSort (fun x y => x.id ≤ y.id)).take 1024
  mciOk mb (leBytes 4 l.length) ((l.map (memberListEntry s)).flatten) s
/-- Fields, objects and refusals of the command (steps 5 to 7 of R366). -/
def memberListPlan (_s : State) (m : Mailbox) : Plan :=
  { p := m.parse }
def execMemberList (mb : Nat) (s : State) : Out := done s (mciRun mb 0x0201 s (memberListPlan s) (fun _ t => memberListAct mb t))

/-! ### MEMBER_ADOPT (R390, R391) -/

/-- The vault limit of R390 for a capacity, J and sector format. -/
def vaultLimit (cap j fmt : Nat) : Nat := (cap - 512 - j - (if fmt = 0 then 65536 else 66560)) / 256 * 256

/-- Namespace, missing field, J, V, whether FORMAT permits Format NVM, and the parse. -/
def adoptFields (s : State) (m : Mailbox) : Option Ns × Option Nat × Nat × Nat × Bool × Parse :=
  let (n, miss, p) := locFields s m.parse 1 0
  let (j, p) := p.num 6 16 4 { lo := 16384, hi := 262144, dflt := 65536, round := 3 }
  let allow := (p.enum 8 24 1 [1, 2] 1).1 == 2
  let fmt := ((n.bind (fun n => chosenFormat n.ident allow)).map (·.1)).getD 1
  let (v, p) := p.num 7 20 4 { hi := vaultLimit ((n.map (·.ident.capacity)).getD 0) j fmt, depHi := true, round := 2, gran := 256 }
  let p := (p.enum 8 24 1 [1, 2] 1).2
  (n, miss, j, v, allow, p)

/-- The refusals of R391, in order. -/
def adoptRefuse (s : State) (n : Ns) (allow : Bool) : Option (Nat × Nat × Nat) :=
  if n.adopted ∨ n.byPartner then some (stConflict, 0, 1)
  else if n.markValid ∧ n.arrayUid ≠ 0 then some (stConflict, 0, 2)
  else if n.ident.capacity < 1048576 ∨ 34359738368 < n.ident.capacity then some (stConflict, 0, 3)
  else if (chosenFormat n.ident allow).isNone ∨ n.ident.mdtsTiny then some (stConflict, 0, 4)
  else if 256 ≤ s.adoptedNs.length ∨ (n.loc.remote ∧ 232 ≤ (s.adoptedNs.filter (·.loc.remote)).length) then some (stConflict, 0, 5)
  else none

/-- The namespace as an adoption job makes it: MEMBER_UID, J, V and SECTOR_FORMAT are kept in the job (R80, R87). -/
def adoptedAs (j : Job) (n : Ns) : Ns :=
  let (jn, v) := j.fixed.headD (65536, 0)
  { n with ident := { n.ident with uid := j.intentGen, fmt := j.sector, pi := false }, journal := jn, vault := v, dataStart := dataStart jn v,
           dataSectors := dataSize n.ident.capacity jn v j.sector, markValid := true, arrayUid := 0, markGen := 0, markB := false,
           poolIndex := 0xFFFF, adopted := true, byPartner := false, stale := false }

/-- The bodies of both copies are written, then the headers (R391). -/
def adoptBodies (j : Job) (n : Ns) (s : State) : State :=
  let b := plainSectors 127 (markBodyBytes (adoptedAs j n) none)
  let w (lba : Nat) : MCmd := { writeCmd j.id n.id lba b with fua := true }
  issue (w (n.ident.capacity - 255)) (issue (w 1) (onJob j.id (fun x => { x with stage := 1 }) s))
def adoptHeaders (j : Job) (n : Ns) (s : State) : State :=
  let h (b : Bool) := plainSectors 1 (markHeader s.now (adoptedAs j n) b none)
  let w (lba : Nat) (b : Bool) : MCmd := { writeCmd j.id n.id lba (h b) with fua := true }
  issue (w (n.ident.capacity - 256) true) (issue (w 0 false) (onJob j.id (fun x => { x with stage := 2 }) s))

/-- MEMBER_ADOPT starts: Format NVM where it is needed, then the mark. -/
def adoptAct (mb : Nat) (m : Mailbox) (s : State) : State :=
  match adoptFields s m with
  | (some n, _, jn, v, allow, _) =>
    let (fmt, needs) := (chosenFormat n.ident allow).getD (1, false)
    let job : Job := { kind := .adopt, ns := [n.id], mb := some mb, intentGen := drawnUid s, fixed := [(jn, v)], sector := fmt }
    let j := { job with id := s.arr.nextJob }
    let x := adoptedAs j n
    let t := addJob job (tookFree (tookFree s))
    let t := mciWait mb (leBytes 16 x.ident.uid ++ leBytes 1 fmt ++ leBytes 7 0 ++ leBytes 8 x.dataStart ++ leBytes 8 x.dataSectors)
      (padTo 4096 (regionTableBytes x)) t
    if needs then issue { ns := n.id, op := .format, job := j.id } t else adoptBodies j n t
  | _ => s
/-- Fields, objects and refusals of the command (steps 5 to 7 of R366). -/
def memberAdoptPlan (s : State) (m : Mailbox) : Plan :=
  let (n, miss, _, _, allow, p) := adoptFields s m
  { p := p, noObject := miss, objects := (n.map (fun n => objNs n.id)).toList, refuse := s.unlessDecommissioned (n.bind (fun n => adoptRefuse s n allow)) }
def execMemberAdopt (mb : Nat) (s : State) : Out :=
  done s (mciRun mb 0x0202 s (memberAdoptPlan s) (adoptAct mb))

/-- The mailbox of a job ends with a status. -/
def failJobMb (j : Job) (st detail : Nat) (s : State) : State := match j.mb with | some i => mciFail i st 0 detail s | none => s
/-- The mailbox of a job completes. -/
def finishJobMb (j : Job) (s : State) : State := match j.mb with | some i => mciFinish i s | none => s

/-- A release is recorded in MRAM and started (R392). -/
def recordRelease (n : Ns) (uid : Nat) (mb : Option Nat) (s : State) : State :=
  startRelease n mb (s.onArr fun a => { a with releases := a.releases.filter (fun r => r.2 != n.loc) ++ [(uid, n.loc)] })

/-- A command of an adoption has ended. A failed Format NVM leaves no usable format, code 4; a failed write of a copy records a
release, code 6. -/
def adoptCmdDone (j : Job) (c : MCmd) (ok : Bool) (s : State) : State :=
  match s.ns c.ns with
  | none => failJobMb j stInternal 0 (endJob j.id s)
  | some n =>
    if ¬ ok then
      (if c.op = .format then failJobMb j stConflict 4 (endJob j.id s)
       else recordRelease n j.intentGen none (failJobMb j stConflict 6 (endJob j.id s)))
    else if (s.jobCmds j.id) ≠ [] then s
    else match j.stage with
      | 0 => adoptBodies j n (onNs n.id (fun x => { x with ident := { x.ident with fmt := j.sector, pi := false } }) s)
      | 1 => adoptHeaders j n s
      | _ => finishJobMb j (endJob j.id (onNs n.id (adoptedAs j) s))

/-! ### MEMBER_RELEASE (R392) -/

/-- Namespace, missing field, CONFIRM_UID and the parse. -/
def releaseFields (s : State) (m : Mailbox) : Option Ns × Option Nat × Nat × Parse :=
  let (n, miss, p) := locFields s m.parse 1 0
  (n, miss, p.raw 16 16, p)
def releaseRefuse (s : State) (n : Ns) (confirm : Nat) : Option (Nat × Nat × Nat) :=
  let st := memberStatus n
  if st = 2 ∧ ((s.arrayOfNs n).map (fun a => (a.entry n.poolIndex).state != 2)).getD false then some (stConflict, 0, 1)
  else if s.vault.members.any (fun v => v.uid == n.ident.uid && v.uid != 0) then some (stConflict, 0, 2)
  else if (st = 3 ∨ st = 4) ∧ confirm ≠ n.arrayUid then some (stConflict, 0, 3)
  else if st = 6 then some (stConflict, 0, 4)
  else none
def releaseAct (mb : Nat) (m : Mailbox) (s : State) : State :=
  match releaseFields s m with
  | (some n, _, _, _) =>
    if memberStatus n = 0 ∨ memberStatus n = 5 then mciOk mb [] [] s
    else recordRelease n n.ident.uid (some mb) (mciWait mb [] [] s)
  | _ => s
/-- Fields, objects and refusals of the command (steps 5 to 7 of R366). -/
def memberReleasePlan (s : State) (m : Mailbox) : Plan :=
  let (n, miss, confirm, p) := releaseFields s m
  { p := p, noObject := miss, objects := (n.map (fun n => objNs n.id)).toList, refuse := n.bind (fun n => releaseRefuse s n confirm) }
def execMemberRelease (mb : Nat) (s : State) : Out :=
  done s (mciRun mb 0x0203 s (memberReleasePlan s) (releaseAct mb))

/-- A write of a release has ended: header A, header B, then the rest of both copies; then the MRAM record is cleared. A failed
write leaves the record for a later completion. -/
def releaseCmdDone (j : Job) (c : MCmd) (ok : Bool) (s : State) : State :=
  match s.ns c.ns with
  | none => failJobMb j stInternal 0 (endJob j.id s)
  | some n =>
    let b := n.ident.capacity - 256
    let zero (lba k : Nat) (t : State) : State := issue { writeCmd j.id n.id lba (List.replicate k {}) with fua := true } t
    if ¬ ok then failJobMb j stInternal 0 (endJob j.id s)
    else if (s.jobCmds j.id) ≠ [] then s
    else match j.stage with
      | 0 => zero b 1 (onJob j.id (fun x => { x with stage := 1 }) s)
      | 1 => zero (b + 1) 127 (zero 1 127 (onJob j.id (fun x => { x with stage := 2 }) s))
      | _ =>
        let t := onNs n.id (fun x => { id := x.id, loc := x.loc, ident := { x.ident with uid := 0, mark := none }, cond := x.cond, exported := x.exported }) s
        finishJobMb j (endJob j.id (t.onArr fun a => { a with releases := a.releases.filter (fun r => r.2 != n.loc) }))

/-! ### MEMBER_FAIL (R393) -/

/-- A command that changes a shared array is for its owner alone (R382). -/
def notOwner (a : Arr) : Option (Nat × Nat × Nat) := if a.shared ∧ ¬ a.owner then some (stConflict, 0, 255) else none

/-- ARRAY and POOL_INDEX: the array, the pool index, the field that names nothing and the parse. -/
def poolFields (s : State) (m : Mailbox) : Option Arr × Nat × Option Nat × Parse :=
  let (n, p) := m.parse.array 1 0
  let i := p.raw 2 2
  match s.namedArray n with
  | none => (none, i, some 1, p)
  | some a => (some a, i, if i < a.body.members.length then none else some 2, p)

/-- A pool index is FAILED, or declared so. -/
def State.indexFailed (s : State) (a : Arr) (p : Nat) : Bool :=
  a.failed p || ((s.memberAt a p).map (fun n => n.declare.isSome || n.failing.isSome)).getD false

/-- MARGIN would be negative with the index failed (R228, R393). -/
def marginFails (s : State) (a : Arr) (p : Nat) : Bool :=
  let more := (a.entry p).state != 2 && (a.entry p).state != 3 && s.healthyAt a p && !a.relocated p
  decide (a.body.desc.m < s.shortIndices a + (if more then 1 else 0))

def memberFailAct (mb : Nat) (m : Mailbox) (s : State) : State :=
  match poolFields s m with
  | (some a, p, _, _) =>
    if s.indexFailed a p then mciOk mb [] [] s
    else
      let t := mciWait mb [] [] s
      match s.memberAt a p with
      | some n => declareFailed n.id 7 t
      | none => failMissing a.id p 7 [mb] t
  | _ => s
/-- Fields, objects and refusals of the command (steps 5 to 7 of R366). -/
def memberFailPlan (s : State) (m : Mailbox) : Plan :=
  let (a, i, miss, p) := poolFields s m
  { p := p, noObject := miss, objects := (a.map (fun a => objArray a.id)).toList,
    refuse := a.bind (fun a => match notOwner a with
      | some r => some r
      | none => if ¬ s.indexFailed a i ∧ marginFails s a i then some (stConflict, 0, 1) else none) }
def execMemberFail (mb : Nat) (s : State) : Out :=
  done s (mciRun mb 0x0204 s (memberFailPlan s) (memberFailAct mb))

/-! ### MEMBER_REPLACE (R394) -/

def replaceRefuse (s : State) (a : Arr) (p : Nat) (n : Ns) : Option (Nat × Nat × Nat) :=
  let running := (a.entry p).state == 3 || s.arr.jobs.any (fun j => j.kind == .zero && j.stage == 1 && j.array == a.id && j.sector == p)
  if ¬ a.failed p ∧ ¬ running then some (stConflict, 0, 1)
  else if memberStatus n ≠ 1 then some (stConflict, 0, 2)
  else if n.dataSectors < (a.entry p).dataSectors then some (stConflict, 0, 3)
  else if running then some (stConflict, 0, 4)
  else if n.loc.remote ∧ 232 ≤ (a.body.members.filter (fun e => e.remote && e.state != 2)).length then some (stConflict, 0, 5)
  else none
def replaceAct (mb : Nat) (m : Mailbox) (s : State) : State :=
  match poolFields s m with
  | (some a, p, _, q) => match (locFields s q 3 16).1 with
    | some n => startReplace a.id p n (some mb) (mciWait mb [] [] s)
    | none => s
  | _ => s
/-- Fields, objects and refusals of the command (steps 5 to 7 of R366). -/
def memberReplacePlan (s : State) (m : Mailbox) : Plan :=
  let (a, i, miss, q) := poolFields s m
  let (n, miss2, p) := locFields s q 3 16
  { p := p, noObject := match miss with | some f => some f | none => miss2,
    objects := (a.map (fun a => objArray a.id)).toList ++ (n.map (fun n => objNs n.id)).toList,
    refuse := a.bind (fun a => match notOwner a with
      | some r => some r
      | none => n.bind (fun n => replaceRefuse s a i n)) }
def execMemberReplace (mb : Nat) (s : State) : Out :=
  done s (mciRun mb 0x0205 s (memberReplacePlan s) (replaceAct mb))

end Sys2Proof.Machine
end

