-- ==== Sys2Proof/Machine/MciArray.lean ====
section
/-! DEFINITION. Array commands (R395 to R403): creation, deletion, export, import, expansion, migration, and what an array
reports. -/
namespace Sys2Proof.Machine

/-! ### Stripe form fields (R395, R402) -/

/-- MEMBER_UIDs of an input buffer. -/
def payloadUids (m : Mailbox) (n : Nat) : List Nat := (List.range n).map (fun i => leNat (slice m.payload (16 * i) 16))
/-- Whole entries in the input buffer. -/
def wholeEntries (m : Mailbox) : Nat := m.payload.length / 16
/-- The adopted free member of a UID. -/
def State.freeUid (s : State) (uid : Nat) : Option Ns := s.arr.ns.find? (fun n => n.ident.uid == uid && uid != 0 && memberStatus n == 1)
/-- A list names some element twice. -/
def listedTwice : List Nat → Bool
  | [] => false
  | x :: l => l.contains x || listedTwice l

/-- M of a form for a pool of `n`: its greatest value. -/
def maxM (form n : Nat) : Nat := match form with | 1 => min 3 (n - 1) | 2 => min 2 (n - 2) | _ => min 4 (n - 2)
/-- M and K of a form for a pool of `n`, with the defaults given. -/
def formFields (p : Parse) (form n idM offM : Nat) (dm : Nat) (dk : Option Nat) : Nat × Nat × Parse :=
  let (m, p) := p.num idM offM 1 { lo := 1, hi := maxM form n, dflt := clampTo 1 (maxM form n) dm, depHi := true }
  if form = 1 then
    let v := p.raw (offM + 1) 1
    (m, 1, if v = 0 ∨ v = 1 then p else p.note (idM + 1) 64 v 1)
  else
    let hi := min 60 (n - m)
    let (k, p) := p.num (idM + 1) (offM + 1) 1 { lo := 2, hi := hi, dflt := match dk with | some k => clampTo 2 hi k | none => hi, depHi := true }
    (m, k, p)

/-- Rounds of a pool: whole slots in its smallest data area (R63). -/
def poolRounds (shift : Nat) (areas : List Nat) : Nat := (leastOf areas).getD 0 / 2 ^ (shift - 12)

/-! ### ARRAY_CREATE (R395, R396) -/

/-- What ARRAY_CREATE asks for. -/
structure CreateReq where
  form : Nat := 3
  count : Nat := 0
  m : Nat := 2
  k : Nat := 2
  shift : Nat := 16
  name : Bytes := []
  uids : List Nat := []
  p : Parse := {}

def createFields (m : Mailbox) : CreateReq :=
  let (form, p) := m.parse.enum 1 0 1 [1, 2, 3] 3
  let lo := if form = 1 then 2 else 3
  let e := min 256 (wholeEntries m)
  let (n, p) := p.num 2 2 2 { lo := lo, hi := max lo e, dflt := max lo e, depLo := true }
  let (mm, k, p) := formFields p form n 3 4 2 none
  let (sh, p) := p.num 5 6 1 { lo := 14, hi := 20, dflt := 16 }
  { form := form, count := n, m := mm, k := k, shift := sh, name := p.raws 8 32 (leBytes 32 0), uids := payloadUids m n, p := p }

/-- The lowest free array ID of this side's range (R396, R404). -/
def State.freeArrayId (s : State) : Option Nat :=
  let (lo, hi) := s.arrayIds
  ((List.range 64).filter (fun i => lo ≤ i && i ≤ hi)).find? (fun i => !s.arr.arrays.any (fun a => a.id == i))

/-- Refusals 1 to 3 of R396. -/
def createRefuse (s : State) (r : CreateReq) : Option (Nat × Nat × Nat) :=
  if 64 ≤ s.arr.arrays.length ∨ s.freeArrayId.isNone then some (stConflict, 0, 1)
  else if r.uids.any (fun u => (s.freeUid u).isNone) ∨ listedTwice r.uids then some (stConflict, 0, 2)
  else if 232 < (r.uids.filter (fun u => ((s.freeUid u).map (·.loc.remote)).getD false)).length then some (stConflict, 0, 3)
  else none

/-- A member list entry for a namespace (R92). -/
def entryOf (n : Ns) (state : Nat) : MemEntry :=
  { uid := n.ident.uid, state := state, fmt := n.ident.fmt, remote := n.loc.remote, node := if n.loc.remote then n.loc.node else 0,
    port := if n.loc.remote then 0xFFFF else n.loc.port, dataStart := n.dataStart, dataSectors := n.dataSectors }

/-- JOURNAL_MEMBERS at creation: the lowest pool indices of local members, then of remote ones (R165). -/
def firstJournal (es : List MemEntry) (m : Nat) : List Nat :=
  let ids := List.range es.length
  let order := ids.filter (fun p => !(nth es p {}).remote) ++ ids.filter (fun p => (nth es p {}).remote)
  let named := order.take (min 4 (m + 1))
  named ++ List.replicate (4 - named.length) 0xFFFF

/-- The metadata of a new array (R396 steps 2 and 3). ARRAY_UID and SEED come from the random number generator. -/
def newBody (s : State) (r : CreateReq) (ns : List Ns) : MarkBody :=
  let es := ns.map (fun n => entryOf n 1)
  { uid := drawnUid s, members := es, genFloor := 2 ^ 20, journalMembers := firstJournal es r.m, name := padTo 32 r.name,
    desc := { form := r.form, k := r.k, m := r.m, shift := r.shift, n := r.count, seed := BitVec.ofNat 64 (drawn 1 (tookFree (tookFree s))),
              rounds := poolRounds r.shift (es.map (·.dataSectors)), gen := 1 } }

/-- The response of ARRAY_CREATE. -/
def createBytes (id : Nat) (b : MarkBody) : Bytes :=
  let d := b.desc
  leBytes 2 id ++ leBytes 2 (descS d) ++ leBytes 2 (d.n - descS d * descW d) ++ leBytes 2 0 ++ leBytes 16 b.uid ++ leBytes 8 d.rounds ++
  leBytes 8 (descCapacity d)

/-- Every member is made to read as unwritten before the first mark (R396 step 4). -/
def createAct (mb : Nat) (m : Mailbox) (s : State) : State :=
  let r := createFields m
  let ns := r.uids.filterMap s.freeUid
  match s.freeArrayId with
  | none => s
  | some id =>
    let b := newBody s r ns
    let t := mciWait mb (createBytes id b) [] (tookFree (tookFree (tookFree s)))
    startZero 2 id 0 (some mb) (some b) (ns.map (fun n => (n.id, (unwrittenRange n).1, (unwrittenRange n).2))) t
/-- Fields, objects and refusals of the command (steps 5 to 7 of R366). -/
def arrayCreatePlan (s : State) (m : Mailbox) : Plan :=
  let r := createFields m
  { p := r.p, noObject := if wholeEntries m < r.count then some 2 else none,
    objects := objArrayTable :: (r.uids.filterMap s.freeUid).map (fun n => objNs n.id), refuse := s.unlessDecommissioned (createRefuse s r) }
def execArrayCreate (mb : Nat) (s : State) : Out :=
  done s (mciRun mb 0x0210 s (arrayCreatePlan s) (createAct mb))

/-- The members are zeroed: the first mark, MARK_GEN 1, is written with every member ACTIVE (R396 step 5). -/
def createZeroed (j : Job) (s : State) : State :=
  match j.body with
  | none => endJob j.id s
  | some b =>
    let t := endJob j.id s
    let t := t.onArr fun x => { x with arrays := x.arrays ++ [{ id := j.array, body := b, gen := 1, creating := true }] }
    let t := (List.range j.ns.length).foldl (fun u i => joinArray (nth j.ns i 0) b.uid i u) t
    startMark j.array (fun x => x) j.mb.toList t

/-! ### ARRAY_GET (R397) -/

/-- OWNER_SIDE: 0xFF when unpaired. -/
def ownerSide (s : State) (a : Arr) : Nat :=
  if s.twin.partner = none then 0xFF else if a.owner then s.twinSide else 1 - s.twinSide
/-- Array sectors that no extent covers. -/
def freeSectors (b : MarkBody) : Nat := descCapacity b.desc - total (b.extents.map (fun (e : Extent) => e.len))
def arrayGetBytes (s : State) (a : Arr) : Bytes :=
  leBytes 2 a.id ++ leBytes 1 (arrayFlags s a) ++ leBytes 1 (marginByte s a) ++ leBytes 1 a.service ++ leBytes 1 (ownerSide s a) ++
  leBytes 1 (flag a.shared 0) ++ leBytes 1 0 ++ leBytes 8 (descCapacity a.body.desc) ++ leBytes 8 (freeSectors a.body) ++ leBytes 8 a.body.gen ++
  leBytes 8 a.gen ++ leBytes 16 a.body.uid
/-- The mark is that of the lowest pool index with a member. -/
def arrayGetOut (s : State) (a : Arr) : Bytes :=
  match (List.range a.body.members.length).findSome? (s.memberAt a) with
  | some n => markBodyBytes n (some a.body)
  | none => leBytes 4096 0 ++ bodyBytes a.body
def arrayGetAct (mb : Nat) (m : Mailbox) (s : State) : State :=
  match s.namedArray (m.parse.array 1 0).1 with
  | some a => mciOk mb (arrayGetBytes s a) (arrayGetOut s a) s
  | none => s
/-- The field that names no array. -/
def noArray (s : State) (m : Mailbox) : Option Nat := if (s.namedArray (m.parse.array 1 0).1).isSome then none else some 1
/-- Fields, objects and refusals of the command (steps 5 to 7 of R366). -/
def arrayGetPlan (s : State) (m : Mailbox) : Plan :=
  { p := (m.parse.array 1 0).2, noObject := noArray s m }
def execArrayGet (mb : Nat) (s : State) : Out :=
  done s (mciRun mb 0x0215 s (arrayGetPlan s) (arrayGetAct mb))

/-! ### ARRAY_DELETE and ARRAY_EXPORT (R398, R399) -/

/-- The array table and the named array. -/
def tableObjs (s : State) (m : Mailbox) : List (Nat × Nat) :=
  objArrayTable :: (s.namedArray (m.parse.array 1 0).1).toList.map (fun a => objArray a.id)

/-- One mark update gives the members the state of R87; its persistence frees the array ID. -/
def deleteAct (mb : Nat) (m : Mailbox) (s : State) : State :=
  match s.namedArray (m.parse.array 1 0).1 with
  | none => s
  | some a =>
    let t := onArray a.id (fun x => { x with service := 3, closeOut := 4, closeMb := mb }) (mciWait mb [] [] s)
    let t := t.onArr fun x => { x with ns := mapIf x.ns (fun n => n.adopted && n.arrayUid == a.body.uid && !n.stale) (fun n => { n with poolIndex := 0xFFFF }) }
    startMark a.id (fun b => { b with uid := 0 }) [mb] t
/-- Fields, objects and refusals of the command (steps 5 to 7 of R366). -/
def arrayDeletePlan (s : State) (m : Mailbox) : Plan :=
  { p := (m.parse.array 1 0).2, noObject := noArray s m, objects := tableObjs s m,
    refuse := (s.namedArray (m.parse.array 1 0).1).bind (fun a => match notOwner a with
      | some r => some r
      | none => if a.body.volumes ≠ [] then some (stConflict, 0, 1) else none) }
def execArrayDelete (mb : Nat) (s : State) : Out :=
  done s (mciRun mb 0x0211 s (arrayDeletePlan s) (deleteAct mb))

/-- A configured vault member is a member of the array. -/
def vaultInArray (s : State) (a : Arr) : Bool := s.vault.members.any (fun v => v.uid != 0 && a.body.members.any (fun (e : MemEntry) => e.uid == v.uid))
def exportAct (mb : Nat) (m : Mailbox) (s : State) : State :=
  match s.namedArray (m.parse.array 1 0).1 with
  | none => s
  | some a =>
    (onArray a.id (fun x => { x with service := 3, closeOut := 1, closeMb := mb }) (mciWait mb [] [] s)).onArr fun x =>
      { x with scrubs := x.scrubs.filter (fun y => y.array != a.id), mendQueue := x.mendQueue.filter (fun y => y.1 != a.id) }
/-- Fields, objects and refusals of the command (steps 5 to 7 of R366). -/
def arrayExportPlan (s : State) (m : Mailbox) : Plan :=
  { p := (m.parse.array 1 0).2, noObject := noArray s m, objects := tableObjs s m,
    refuse := (s.namedArray (m.parse.array 1 0).1).bind (fun a => match notOwner a with
      | some r => some r
      | none => if vaultInArray s a then some (stConflict, 0, 1) else none) }
def execArrayExport (mb : Nat) (s : State) : Out :=
  done s (mciRun mb 0x0216 s (arrayExportPlan s) (exportAct mb))

/-- Every open stripe of an array where `p` holds closes as though its gather age had expired. -/
def readyStripes (aid : Nat) (p : OpenStripe → Bool) (s : State) : State :=
  (s.sag.openStripes.filter (fun o => o.array == aid && p o)).foldl (fun t o => readyClose aid o.stripe o.dg t) s

/-- Nothing of the array is left to close or to finish (R399 step 3). -/
def State.quiet (s : State) (a : Arr) : Bool :=
  !s.sag.lines.any (fun l => l.array == a.id && (l.st == .pending || l.st == .dirty || l.st == .closing)) && (s.liveRecs a) == [] &&
  !s.arr.jobs.any (fun j => j.array == a.id && j.kind != .ring) && !s.nvme.admitted.any (fun c => c.array == a.id && c.sqid != 0 && c.uncommitted) &&
  a.persisted.isNone && a.markWaiting.isNone

/-- The steps of an export at a boundary (R399). -/
def exportBoundary (s : State) : State :=
  (s.arr.arrays.filter (fun a => a.closeOut == 1 || a.closeOut == 2)).foldl (fun t a =>
    let t := readyStripes a.id (fun _ => true) (onArray a.id (fun x => { x with gone := true, closeOut := 2 }) t)
    if t.quiet a then
      let t := onArray a.id (fun x => { x with closeOut := 3 }) t
      startMark a.id (fun b => { b with relocs := a.relocs }) [a.closeMb] t
    else t) s

/-! ### ARRAY_EXPAND and ARRAY_MIGRATE (R402, R403) -/

/-- What a migration asks for. -/
structure MigrateReq where
  arr : Option Arr := none
  add : Nat := 0
  uids : List Nat := []
  desc : Desc := {}
  p : Parse := {}

/-- The fields of R402; ARRAY_EXPAND (`form` false) keeps FORM, K and M. -/
def migrateFields (s : State) (m : Mailbox) (form : Bool) : MigrateReq :=
  let (i, p) := m.parse.array 1 0
  match s.namedArray i with
  | none => { p := p }
  | some a =>
    let d := a.body.desc
    let e := min (256 - d.n) (wholeEntries m)
    let (add, p) := p.num 2 2 2 { hi := e, dflt := if form then 0 else e }
    let n := d.n + add
    let uids := payloadUids m add
    let areas := a.body.members.map (·.dataSectors) ++ uids.filterMap (fun u => (s.freeUid u).map (·.dataSectors))
    let (f, mm, k, p) :=
      if form then
        let (f, p) := p.enum 3 4 1 [1, 2, 3] d.form
        let (mm, k, p) := formFields p f n 4 5 d.m (some d.k)
        (f, mm, k, p)
      else (d.form, d.m, d.k, p)
    { arr := some a, add := add, uids := uids, p := p,
      desc := { d with form := f, m := mm, k := k, n := n, rounds := poolRounds d.shift areas, gen := d.gen + 1 } }

/-- The refusals of R403. -/
def migrateRefuse (s : State) (r : MigrateReq) (a : Arr) : Option (Nat × Nat × Nat) :=
  let d := a.body.desc
  let d2 := r.desc
  let w2 := max (descDsec d2) 1
  let top := (a.body.extents.map (fun (e : Extent) => e.base + e.len)).foldl max 0
  let code (n : Nat) : Option (Nat × Nat × Nat) := some (stConflict, 0, n)
  match notOwner a with
  | some x => some x
  | none =>
    if a.body.members.any (fun (e : MemEntry) => e.state != 1) then code 1
    else if a.body.relocs ≠ [] then code 2
    else if a.body.readOnly ∨ a.writesHeld then code 3
    else if a.body.migrating then code 4
    else if descS d2 * descDsec d2 < descS d * descDsec d then code 5
    else if a.body.extents.any (fun (e : Extent) => e.base % w2 != 0 || e.len % w2 != 0) then code 6
    else if descCapacity d2 < top then code 7
    else if r.uids.any (fun u => (s.freeUid u).isNone) ∨ listedTwice r.uids then code 8
    else if 232 < (a.body.members.filter (fun (e : MemEntry) => e.remote)).length + (r.uids.filter (fun u => ((s.freeUid u).map (·.loc.remote)).getD false)).length then code 9
    else if { d2 with seed := d.seed, gen := d.gen } = d then code 10
    else none

/-- The mark update that starts a migration: the members in state ADDING, DESC_NEXT and MIGRATE_LBA 0 (R403). -/
def migrateBody (delta : MarkBody) (b : MarkBody) : MarkBody :=
  { b with members := b.members ++ delta.members, descNext := delta.descNext, migrating := true, migrateLba := 0 }

/-- The added members are made to read as unwritten, then the mark update starts the migration. -/
def migrateAct (mb : Nat) (m : Mailbox) (form : Bool) (s : State) : State :=
  let r := migrateFields s m form
  match r.arr with
  | none => s
  | some a =>
    let ns := r.uids.filterMap s.freeUid
    let d := { r.desc with seed := BitVec.ofNat 64 (drawn 1 s) }
    let delta : MarkBody := { members := ns.map (fun n => entryOf n 4), descNext := some d }
    let t := mciWait mb [] [] (tookFree s)
    if ns = [] then startMark a.id (migrateBody delta) [mb] t
    else startZero 3 a.id a.body.members.length (some mb) (some delta) (ns.map (fun n => (n.id, (unwrittenRange n).1, (unwrittenRange n).2))) t

/-- The plan of both commands. -/
def migratePlan (s : State) (m : Mailbox) (form : Bool) : Plan :=
  let r := migrateFields s m form
  { p := r.p, noObject := if r.arr.isSome then none else some 1,
    objects := r.arr.toList.map (fun a => objArray a.id) ++ (r.uids.filterMap s.freeUid).map (fun n => objNs n.id),
    busy := s.dev.activating, refuse := r.arr.bind (migrateRefuse s r) }
/-- Fields, objects and refusals of the command (steps 5 to 7 of R366). -/
def arrayExpandPlan (s : State) (m : Mailbox) : Plan :=
  migratePlan s m false
def execArrayExpand (mb : Nat) (s : State) : Out := done s (mciRun mb 0x0213 s (arrayExpandPlan s) (fun m t => migrateAct mb m false t))
/-- Fields, objects and refusals of the command (steps 5 to 7 of R366). -/
def arrayMigratePlan (s : State) (m : Mailbox) : Plan :=
  migratePlan s m true
def execArrayMigrate (mb : Nat) (s : State) : Out := done s (mciRun mb 0x0214 s (arrayMigratePlan s) (fun m t => migrateAct mb m true t))

/-- The added members are zeroed and take their pool indices. -/
def migrateZeroed (j : Job) (s : State) : State :=
  match s.array j.array, j.body with
  | some a, some delta =>
    let t := (List.range j.ns.length).foldl (fun u i => joinArray (nth j.ns i 0) a.body.uid (j.sector + i) u) (endJob j.id s)
    startMark a.id (migrateBody delta) j.mb.toList t
  | _, _ => endJob j.id s

/-! ### A zeroing write has ended (R106, R216, R223, R396) -/

/-- The zeroing of a job is complete: what its stage says follows. -/
def zeroFinished (j : Job) (s : State) : State :=
  match j.stage with
  | 1 => replaceZeroed j s
  | 2 => createZeroed j s
  | 3 => migrateZeroed j s
  | _ => startMark j.array migrationEndBody [] (onArray j.array (fun x => { x with stageStep := 5 }) (endJob j.id s))

/-- A Write Zeroes has ended. A failure ends an ARRAY_CREATE with code 4 and the others with INTERNAL_ERROR; at a migration's end
it declares the member FAILED. -/
def zeroCmdDone (j : Job) (c : MCmd) (ok : Bool) (s : State) : State :=
  if ok then
    let t := zeroNext j.id c.ns (c.lba + c.count) ((lookup j.fixed c.ns).getD 0) s
    if (t.jobCmds j.id) ≠ [] then t else zeroFinished j t
  else match j.stage with
    | 2 => failJobMb j stConflict 4 (endJob j.id s)
    | 4 => let t := declareFailed c.ns 5 s
           if (t.jobCmds j.id) ≠ [] then t else zeroFinished j t
    | _ => failJobMb j stInternal 0 (endJob j.id s)

/-! ### ARRAY_IMPORT (R121 to R123, R186, R400, R401) -/

/-- Extents are sorted, do not overlap and cover each volume exactly (R95). -/
def extentsOk (b : MarkBody) : Bool :=
  let es := b.extents
  let pairs := es.zip (es.drop 1)
  pairs.all (fun (p : Extent × Extent) => p.1.vol < p.2.vol || (p.1.vol == p.2.vol && p.1.start + p.1.len == p.2.start)) &&
  b.volumes.all (fun (v : Volume) =>
    let mine := es.filter (fun (e : Extent) => e.vol == v.id)
    ((mine.head?.map (fun (e : Extent) => e.start)).getD 0) == 0 && total (mine.map (fun (e : Extent) => e.len)) == v.capacity) &&
  es.all (fun (e : Extent) => decide (e.base + e.len ≤ descCapacity b.desc) && b.volumes.any (fun (v : Volume) => v.id == e.vol)) &&
  es.all (fun (e : Extent) => (es.filter (fun (x : Extent) => decide (x.base < e.base + e.len) && decide (e.base < x.base + x.len))).length == 1)

/-- SEQs ascend and every entry is in its bounds (R121 step 3). -/
def relocsOk (b : MarkBody) : Bool :=
  let rs := b.relocs
  (rs.zip (rs.drop 1)).all (fun (p : Reloc × Reloc) => p.1.seq < p.2.seq) &&
  rs.all (fun (e : Reloc) => decide (e.lost < b.members.length) && decide (e.first ≤ e.doneRound) && decide (e.doneRound ≤ e.stop))

/-- The metadata checks of R121 step 3. -/
def metadataOk (b : MarkBody) : Bool :=
  let d := b.desc
  let areas := (b.members.take d.n).map (fun (e : MemEntry) => e.dataSectors)
  descLegal d && (match b.descNext with | some x => descLegal x && x.shift == d.shift | none => !b.migrating) &&
  d.rounds == poolRounds d.shift areas && decide (b.members.length ≤ 256) && decide (d.n ≤ b.members.length) && decide (b.relocs.length ≤ 256) &&
  decide (b.volumes.length ≤ 1024) && decide (b.extents.length ≤ 4096) && decide (b.lost.length ≤ 16384) && extentsOk b && relocsOk b &&
  b.members.all (fun (e : MemEntry) => e.state != 0)

/-- A member is usable in its array (R121 step 4). -/
def scanUsable (b : MarkBody) (x : MarkScan) : Bool :=
  let e : MemEntry := nth b.members x.poolIndex { state := 0 }
  x.valid && decide (x.poolIndex < b.members.length) && e.uid == x.uid && (e.state == 1 || e.state == 3 || e.state == 4) &&
  x.body.gen == b.gen && e.dataStart == x.dataStart && e.dataSectors == x.dataSectors

/-- A pool index is fully relocated (R121 step 5). -/
def bodyRelocated (b : MarkBody) (p : Nat) : Bool :=
  let es := b.relocs.filter (fun (e : Reloc) => e.lost == p)
  es != [] && es.all (fun (e : Reloc) => e.state != 1)

/-- What an import finds of one array. -/
structure ImportFind where
  uid : Nat := 0
  reason : Nat := 0
  body : MarkBody := {}
  usable : List MarkScan := []
  missing : Nat := 0
  readOnly : Bool := false
  forced : Bool := false
  noJournal : Bool := false
  id : Nat := 0xFFFF

/-- Steps 2 to 5 of R121 for the scans of one array. -/
def judgeImport (force : Bool) (uid : Nat) (group : List MarkScan) : ImportFind :=
  let gen := (group.map (fun (x : MarkScan) => x.body.gen)).foldl max 0
  let top := group.filter (fun (x : MarkScan) => x.body.gen == gen)
  match top with
  | [] => { uid := uid, reason := 1 }
  | h :: _ =>
    let b := h.body
    if top.any (fun (x : MarkScan) => x.bodyCrc != h.bodyCrc) then { uid := uid, reason := 3, body := b }
    else if ¬ metadataOk b then { uid := uid, reason := 4, body := b }
    else
      let use := group.filter (scanUsable b)
      let has (p : Nat) : Bool := use.any (fun (x : MarkScan) => x.poolIndex == p)
      let ids := List.range b.members.length
      let st (p : Nat) : Nat := (nth b.members p ({} : MemEntry)).state
      let missing := (ids.filter (fun p => !has p && st p != 2)).length
      let short := (ids.filter (fun p => (!has p || st p == 2 || st p == 3) && !bodyRelocated b p)).length
      let nj := !(b.journalMembers.filter (· != 0xFFFF)).any has
      let bad := decide (b.desc.m < short)
      if (bad || nj) && !force then { uid := uid, reason := 6, body := b, usable := use, missing := missing }
      else { uid := uid, body := { b with readOnly := bad }, usable := use, missing := missing, readOnly := bad, forced := force && (bad || nj), noJournal := nj }

/-- The namespace identifier an imported volume gets: its hint when free and in range, else the lowest free one (R404). -/
def importNsid (s : State) (taken : List Nat) (hint : Nat) : Option Nat :=
  let (lo, hi) := s.nsids
  let used := taken ++ s.arr.arrays.flatMap (fun a => a.body.volumes.map (fun (v : Volume) => v.nsid))
  if lo ≤ hint ∧ hint ≤ hi ∧ ¬ used.contains hint then some hint
  else ((List.range 1025).filter (fun i => lo ≤ i && i ≤ hi)).find? (fun i => !used.contains i)

/-- The volumes of an imported array with their identifiers. -/
def importVolumes (s : State) (vs : List Volume) : List Volume :=
  vs.foldl (fun (l : List Volume) v => l ++ [{ v with nsid := (importNsid s (l.map (fun (x : Volume) => x.nsid)) v.nsid).getD 0 }]) []

/-- The device has no slot for the array (R401). -/
def noSlot (s : State) (f : ImportFind) : Bool :=
  s.freeArrayId.isNone || decide (1024 < s.liveVolumes.length + f.body.volumes.length) ||
  decide (s.nsids.2 - s.nsids.1 + 1 < s.liveVolumes.length + f.body.volumes.length) ||
  decide (256 < s.adoptedNs.length + f.usable.length) ||
  decide (232 < (s.adoptedNs.filter (·.loc.remote)).length + (f.usable.filter (fun (x : MarkScan) => x.loc.remote)).length)

/-- A usable member joins; a stale one is left alone (R121 step 4, R124). -/
def takeScan (f : ImportFind) (x : MarkScan) (s : State) : State :=
  let use := f.usable.any (fun (y : MarkScan) => y.loc == x.loc)
  s.onArr fun a => { a with ns := mapIf a.ns (fun n => n.loc == x.loc) (fun n =>
    { n with ident := { n.ident with uid := x.uid }, journal := x.journal, vault := x.vault, dataStart := x.dataStart, dataSectors := x.dataSectors,
             markValid := true, arrayUid := f.uid, markGen := x.body.gen, poolIndex := x.poolIndex, adopted := use, byPartner := false,
             stale := !use }) }

/-- One array is judged and, when it is accepted, enters recovery (R121 step 6, R236). -/
def importOne (force : Bool) (scans : List MarkScan) (acc : List ImportFind × State) (uid : Nat) : List ImportFind × State :=
  let (l, s) := acc
  if s.arr.arrays.any (fun a => a.body.uid == uid) then (l ++ [{ uid := uid, reason := 7 }], s)
  else
    let group := scans.filter (fun (x : MarkScan) => x.valid && x.body.uid == uid)
    let f := judgeImport force uid group
    if f.reason ≠ 0 then (l ++ [f], s)
    else if noSlot s f then (l ++ [{ f with reason := 8 }], s)
    else match s.freeArrayId with
      | none => (l ++ [{ f with reason := 8 }], s)
      | some id =>
        let b := { f.body with volumes := importVolumes s f.body.volumes }
        let t := s.onArr fun x => { x with arrays := x.arrays ++ [{ id := id, body := b, gen := b.genFloor, markGen := b.gen, importing := 1, forcedNoJournal := f.noJournal }] }
        (l ++ [{ f with id := id, body := b }], recordArray id 5 [uid] (group.foldl (fun u x => takeScan f x u) t))

/-- Array UIDs of scans in ascending order, those in service left out unless named. -/
def importUids (s : State) (want : Nat) (scans : List MarkScan) : List Nat :=
  let all := (scans.filter (fun (x : MarkScan) => x.valid && x.body.uid != 0)).foldl (fun l x => addOnce x.body.uid l) []
  (if want ≠ 0 then all.filter (· == want) else all.filter (fun u => !s.arr.arrays.any (fun a => a.body.uid == u))).mergeSort (· ≤ ·)

/-- One array entry of the output. -/
def importArrayEntry (f : ImportFind) : Bytes :=
  leBytes 16 f.uid ++ leBytes 2 (if f.reason = 0 then f.id else 0xFFFF) ++ leBytes 1 f.reason ++
  leBytes 1 (flag f.readOnly 0 + flag f.forced 1 + flag f.noJournal 2) ++ leBytes 2 f.missing ++ leBytes 2 f.usable.length ++ leBytes 8 0

/-- One member entry of the output (R122). -/
def importMemberEntry (fs : List ImportFind) (x : MarkScan) : Bytes :=
  let use := fs.any (fun f => f.uid == x.body.uid && f.usable.any (fun (y : MarkScan) => y.loc == x.loc))
  let judged := fs.any (fun f => f.uid == x.body.uid && (f.reason == 0 || f.reason == 6 || f.reason == 8))
  let reason := if x.versionAbove1 then 2 else if ¬ x.valid then 1 else if judged ∧ ¬ use then 5 else 0
  leBytes 16 x.uid ++ leBytes 1 (flag x.loc.remote 0) ++ leBytes 1 reason ++ leBytes 2 (if x.loc.remote then 0xFFFF else x.loc.port) ++
  leBytes 4 (if x.loc.remote then x.loc.exp else x.loc.nsid) ++ leBytes 4 (if x.loc.remote then x.loc.node else 0) ++
  leBytes 2 (if x.valid then x.poolIndex else 0xFFFF) ++ leBytes 2 0

/-- ARRAY_UID, FORCE and the parse. -/
def importFields (m : Mailbox) : Nat × Bool × Parse :=
  let (f, p) := m.parse.enum 2 16 1 [1, 2] 1
  (p.raw 0 16, f == 2, p)
/-- The scans of namespaces that the device reaches; those listed remotely were scanned for the input buffer. -/
def State.importScans (s : State) (scans : List MarkScan) : List MarkScan :=
  scans.filter (fun (x : MarkScan) => s.reached.any (fun n => n.loc == x.loc))
def importAct (mb : Nat) (scans : List MarkScan) (m : Mailbox) (s : State) : State :=
  let (want, force, _) := importFields m
  let xs := s.importScans scans
  let uids := importUids s want xs
  let (fs, t) := uids.foldl (importOne force xs) ([], s)
  let ms := xs.filter (fun (x : MarkScan) => !x.valid || x.versionAbove1 || uids.contains x.body.uid)
  mciOk mb [] (leBytes 2 fs.length ++ leBytes 2 ms.length ++ leBytes 4 0 ++ (fs.map importArrayEntry).flatten ++ (ms.map (importMemberEntry fs)).flatten) t
/-- Fields, objects and refusals of the command (steps 5 to 7 of R366). -/
def arrayImportPlan (scans : List MarkScan) (s : State) (m : Mailbox) : Plan :=
  let (want, _, p) := importFields m
  { p := p, objects := [objArrayTable], refuse := s.unlessDecommissioned none,
    noObject := if want ≠ 0 ∧ ¬ (s.importScans scans).any (fun (x : MarkScan) => x.valid && x.body.uid == want) then some 1 else none }
def execArrayImport (mb : Nat) (scans : List MarkScan) (s : State) : Out :=
  done s (mciRun mb 0x0212 s (arrayImportPlan scans s)
    (importAct mb scans))

end Sys2Proof.Machine
end

