-- ==== Sys2Proof/Machine/MciVolume.lean ====
section
/-! DEFINITION. Volume commands (R404 to R411) and the steps of a deletion or a shrink at turn boundaries. -/
namespace Sys2Proof.Machine

/-! ### Allocation (R406, R407) -/

/-- The unit of extents: Dsec, or while the array migrates the least common multiple of both (R407). -/
def allocUnit (b : MarkBody) : Nat :=
  match b.descNext with
  | some d => if b.migrating then Nat.lcm (descDsec b.desc) (descDsec d) else descDsec b.desc
  | none => descDsec b.desc
/-- Array LBAs that extents may use. -/
def allocLimit (b : MarkBody) : Nat :=
  match b.descNext with
  | some d => if b.migrating then min (descCapacity b.desc) (descCapacity d) else descCapacity b.desc
  | none => descCapacity b.desc

/-- Free ranges (base, length) above `lo`, given extents in rising base. -/
def freeRanges (hi : Nat) : Nat → List Extent → List (Nat × Nat)
  | lo, [] => if lo < hi then [(lo, hi - lo)] else []
  | lo, e :: l => (if lo < e.base then [(lo, e.base - lo)] else []) ++ freeRanges hi (max lo (e.base + e.len)) l

/-- A free range cut to whole units. -/
def alignRange (u : Nat) (r : Nat × Nat) : Nat × Nat := (cdiv r.1 u * u, (r.1 + r.2) / u * u - cdiv r.1 u * u)

/-- The free ranges in the order they are taken: those that hold lost extents come last (R407). -/
def allocRanges (b : MarkBody) : List (Nat × Nat) :=
  let u := max (allocUnit b) 1
  let rs := ((freeRanges (allocLimit b) 0 (b.extents.mergeSort (fun (x y : Extent) => x.base ≤ y.base))).map (alignRange u)).filter (fun r => r.2 != 0)
  let bad (r : Nat × Nat) : Bool := b.lost.any (fun (e : LostExt) => decide (e.lba < r.1 + r.2) && decide (r.1 < e.lba + e.sectors))
  rs.filter (fun r => !bad r) ++ rs.filter bad

/-- The allocatable space (R406). -/
def allocSpace (b : MarkBody) : Nat := total ((allocRanges b).map (·.2))

/-- Extents for `need` sectors of a volume from VOL_START `start`; the last range is trimmed. -/
def takeExtents (vol : Nat) : Nat → Nat → List (Nat × Nat) → List Extent
  | _, 0, _ => []
  | _, _, [] => []
  | start, need, r :: l =>
    let n := min need r.2
    { vol := vol, start := start, len := n, base := r.1 } :: takeExtents vol (start + n) (need - n) l

/-- Extents in the order of R95. -/
def sortExtents (l : List Extent) : List Extent :=
  l.mergeSort (fun (x y : Extent) => x.vol < y.vol || (x.vol == y.vol && x.start ≤ y.start))

/-! ### VOLUME_CREATE (R404 to R407) -/

/-- What VOLUME_CREATE asks for. -/
structure VolReq where
  arr : Option Arr := none
  lbaf : Nat := 0
  nsid : Nat := 0
  cap : Nat := 0
  policy : Nat := 0
  p : Parse := {}

/-- POLICY with PI_TYPE3 and STALE_POSSIBLE under their rules (R405, R406). -/
def createPolicy (p : Parse) (lbaf : Nat) : Nat × Parse :=
  let v := p.raw 16 8
  let noPi := lbaf == 0 && bit v 2
  let w := v % 16 - flag noPi 2
  (w, if noPi ∨ bit v 4 then p.note 5 (64 + flag noPi 4) v w else p)

def volCreateFields (s : State) (m : Mailbox) : VolReq :=
  let (i, p) := m.parse.array 1 0
  match s.namedArray i with
  | none => { p := p }
  | some a =>
    let b := s.markBase a
    let (f, p) := p.enum 2 1 1 [0, 1, 2] 0
    let (lo, hi) := s.nsids
    let (n, p) := p.num 3 2 2 { lo := lo, hi := hi, dflt := 0, depLo := true, depHi := true }
    let u := max (allocUnit b) 1
    let (c, p) := p.num 4 8 8 { lo := u, hi := allocSpace b, dflt := allocSpace b, round := 2, gran := u }
    let (pol, p) := createPolicy p f
    { arr := some a, lbaf := f, nsid := n, cap := c, policy := pol, p := p }

/-- Namespace identifiers in use. -/
def State.usedNsids (s : State) : List Nat := s.arr.arrays.flatMap (fun a => a.body.volumes.map (fun (v : Volume) => v.nsid))
/-- The identifier that a new volume takes, none when it is in use or the range is full (R404). -/
def State.takeNsid (s : State) (want : Nat) : Option Nat :=
  let (lo, hi) := s.nsids
  if want ≠ 0 then (if s.usedNsids.contains want then none else some want)
  else ((List.range 1025).filter (fun i => lo ≤ i && i ≤ hi)).find? (fun i => !s.usedNsids.contains i)

def volCreateRefuse (s : State) (r : VolReq) (a : Arr) : Option (Nat × Nat × Nat) :=
  let b := s.markBase a
  match notOwner a with
  | some x => some x
  | none =>
    if 1024 ≤ s.liveVolumes.length then some (stConflict, 0, 1)
    else if (s.takeNsid r.nsid).isNone then some (stConflict, 0, 2)
    else if allocSpace b < max (allocUnit b) 1 then some (stConflict, 0, 3)
    else if 4096 < b.extents.length + (takeExtents 0 0 r.cap (allocRanges b)).length then some (stConflict, 0, 4)
    else if 0xFFFFFFFE < b.volumeIdNext then some (stConflict, 0, 5)
    else none

/-- NGUID: bytes 0 to 7 of ARRAY_UID, VOLUME_ID, 4 random bytes (R404). -/
def newNguid (s : State) (b : MarkBody) : Nat := b.uid % 2 ^ 64 + b.volumeIdNext * 2 ^ 64 + drawn 1 s % 2 ^ 32 * 2 ^ 96

/-- One mark update writes the record and its extents (R406). -/
def volCreateAct (mb : Nat) (m : Mailbox) (s : State) : State :=
  let r := volCreateFields s m
  match r.arr with
  | none => s
  | some a =>
    let b := s.markBase a
    let es := takeExtents b.volumeIdNext 0 r.cap (allocRanges b)
    let v : Volume := { id := b.volumeIdNext, lbaf := r.lbaf, nsid := (s.takeNsid r.nsid).getD 0, nguid := newNguid s b, capacity := r.cap, policy := BitVec.ofNat 64 r.policy }
    let t := mciWait mb (leBytes 4 v.id ++ leBytes 2 v.nsid ++ leBytes 2 0 ++ leBytes 16 v.nguid ++ leBytes 8 v.capacity ++ leBytes 2 es.length) [] (tookFree s)
    startMark a.id (fun x => { x with volumes := x.volumes ++ [v], extents := sortExtents (x.extents ++ es), volumeIdNext := x.volumeIdNext + 1 }) [mb] t
/-- Fields, objects and refusals of the command (steps 5 to 7 of R366). -/
def volumeCreatePlan (s : State) (m : Mailbox) : Plan :=
  let r := volCreateFields s m
  { p := r.p, noObject := if r.arr.isSome then none else some 1, objects := r.arr.toList.map (fun a => objArray a.id),
    refuse := r.arr.bind (volCreateRefuse s r) }
def execVolumeCreate (mb : Nat) (s : State) : Out :=
  done s (mciRun mb 0x0301 s (volumeCreatePlan s) (volCreateAct mb))

/-! ### VOLUME_DELETE and VOLUME_RESIZE (R408, R409) -/

/-- The volume that an NSID field names (R382). -/
def State.namedVolume (s : State) (n : Nat) : Option (Arr × Volume) := s.liveVolumes.find? (fun x => x.2.nsid == n && n != 0 && x.2.state == 1)
/-- The volume of a command whose field 1 is NSID. -/
def volOf (s : State) (m : Mailbox) : Option (Arr × Volume) := s.namedVolume (m.parse.raw 0 2)

def volDeleteAct (mb : Nat) (m : Mailbox) (s : State) : State :=
  match volOf s m with
  | none => s
  | some (a, v) => onArray a.id (fun x => { x with limitsNext := insert v.id 0 x.limitsNext, volOp := some { vol := v.id, mb := mb } }) (mciWait mb [] [] s)
/-- Fields, objects and refusals of the command (steps 5 to 7 of R366). -/
def volumeDeletePlan (s : State) (m : Mailbox) : Plan :=
  { p := m.parse, noObject := if (volOf s m).isSome then none else some 1, objects := (volOf s m).toList.map (fun x => objArray x.1.id),
    refuse := (volOf s m).bind (fun x => notOwner x.1) }
def execVolumeDelete (mb : Nat) (s : State) : Out :=
  done s (mciRun mb 0x0302 s (volumeDeletePlan s) (volDeleteAct mb))

/-- CAPACITY and the parse. -/
def resizeFields (s : State) (m : Mailbox) : Nat × Parse :=
  match volOf s m with
  | none => (0, m.parse)
  | some (a, v) =>
    let b := s.markBase a
    let u := max (allocUnit b) 1
    let hi := v.capacity + allocSpace b
    m.parse.num 2 8 8 { lo := u, hi := hi, dflt := hi, round := 2, gran := u }
def resizeRefuse (s : State) (m : Mailbox) (a : Arr) (v : Volume) : Option (Nat × Nat × Nat) :=
  let b := s.markBase a
  let c := (resizeFields s m).1
  match notOwner a with
  | some x => some x
  | none =>
    if c ≤ v.capacity then none
    else if allocSpace b < max (allocUnit b) 1 then some (stConflict, 0, 3)
    else if 4096 < b.extents.length + (takeExtents v.id v.capacity (c - v.capacity) (allocRanges b)).length then some (stConflict, 0, 4)
    else none
/-- Growth is one mark update; a shrink first takes effect for new commands at the next boundary (R409). -/
def resizeAct (mb : Nat) (m : Mailbox) (s : State) : State :=
  match volOf s m with
  | none => s
  | some (a, v) =>
    let b := s.markBase a
    let c := (resizeFields s m).1
    if c = v.capacity then mciOk mb [] [] s
    else if v.capacity < c then
      let es := takeExtents v.id v.capacity (c - v.capacity) (allocRanges b)
      startMark a.id (fun x => { x with volumes := mapIf x.volumes (fun (y : Volume) => y.id == v.id) (fun y => { y with capacity := c }),
                                        extents := sortExtents (x.extents ++ es) }) [mb] (mciWait mb [] [] s)
    else onArray a.id (fun x => { x with limitsNext := insert v.id c x.limitsNext, volOp := some { delete := false, vol := v.id, cap := c, mb := mb } })
      (mciWait mb [] [] s)
/-- Fields, objects and refusals of the command (steps 5 to 7 of R366). -/
def volumeResizePlan (s : State) (m : Mailbox) : Plan :=
  { p := (resizeFields s m).2, noObject := if (volOf s m).isSome then none else some 1, objects := (volOf s m).toList.map (fun x => objArray x.1.id),
    refuse := (volOf s m).bind (fun x => resizeRefuse s m x.1 x.2) }
def execVolumeResize (mb : Nat) (s : State) : Out :=
  done s (mciRun mb 0x0303 s (volumeResizePlan s) (resizeAct mb))

/-- Extents that a deletion or a shrink takes away, as array ranges. -/
def removedRanges (o : VolOp) (b : MarkBody) : List (Nat × Nat) :=
  (b.extents.filter (fun (e : Extent) => e.vol == o.vol)).filterMap (fun e =>
    let from_ := if o.delete then e.start else max e.start o.cap
    if from_ < e.start + e.len then some (e.base + (from_ - e.start), e.start + e.len - from_) else none)
/-- A sector range meets one of them. -/
def meets (rs : List (Nat × Nat)) (lo n : Nat) : Bool := rs.any (fun r => decide (r.1 < lo + n) && decide (lo < r.1 + r.2))

/-- The body after a deletion's or a shrink's last mark update. -/
def volOpBody (o : VolOp) (b : MarkBody) : MarkBody :=
  if o.delete then { b with volumes := b.volumes.filter (fun (v : Volume) => v.id != o.vol), extents := b.extents.filter (fun (e : Extent) => e.vol != o.vol) }
  else { b with volumes := mapIf b.volumes (fun (v : Volume) => v.id == o.vol) (fun v => { v with capacity := o.cap }),
                extents := b.extents.filterMap (fun (e : Extent) =>
                  if e.vol ≠ o.vol then some e else if o.cap ≤ e.start then none else some { e with len := min e.len (o.cap - e.start) }) }

/-- Every admitted command that reaches what goes away has completed, and every close there is acknowledged. -/
def volQuiet (s : State) (a : Arr) (o : VolOp) : Bool :=
  let rs := removedRanges o a.body
  !s.nvme.admitted.any (fun c => c.sqid != 0 && c.array == a.id && c.volume == o.vol && c.stage != .posted && (o.delete || decide (o.cap < c.slba + c.nlb))) &&
  !s.sag.lines.any (fun l => l.array == a.id && (l.st == .pending || l.st == .dirty || l.st == .closing) && meets rs l.lba 1)

/-- One step of an array's deletion or shrink at a boundary. -/
def volStep (a : Arr) (o : VolOp) (s : State) : State :=
  let rs := removedRanges o a.body
  let close (t : State) : State := readyStripes a.id (fun x => meets rs (x.stripe * descDsec (a.descOf x.dg)) (descDsec (a.descOf x.dg))) t
  match o.stage with
  | 0 =>
    let t := onArray a.id (fun x => { x with volOp := some { o with stage := 1 } }) s
    let t := if o.delete then startMark a.id (fun b => { b with volumes := mapIf b.volumes (fun (v : Volume) => v.id == o.vol) (fun v => { v with state := 2 }) }) [] t else t
    close t
  | 1 =>
    if volQuiet s a o then startMark a.id (volOpBody o) [o.mb] (onArray a.id (fun x => { x with volOp := some { o with stage := 2 } }) s)
    else close s
  | _ =>
    if (s.markJob a.id).isSome ∨ a.persisted.isSome ∨ a.markWaiting.isSome then s
    else onArray a.id (fun x => { x with volOp := none, limits := erase o.vol x.limits }) s

/-- A DELETING record that no command owns is completed by the first mark update (R408). -/
def finishDeleting (a : Arr) (s : State) : State :=
  if a.service = 2 ∧ a.owner ∧ (s.markBase a).volumes.any (fun (v : Volume) => v.state == 2) then
    startMark a.id (fun b =>
      let gone (i : Nat) : Bool := b.volumes.any (fun (v : Volume) => v.id == i && v.state == 2)
      { b with volumes := b.volumes.filter (fun (v : Volume) => v.state != 2), extents := b.extents.filter (fun (e : Extent) => !gone e.vol) }) [] s
  else s

/-- Limits come into force and deletions and shrinks go on at a boundary (R408, R409). -/
def volumeBoundary (s : State) : State :=
  let t := s.onArr fun x => { x with arrays := x.arrays.map (fun a =>
    { a with limits := a.limitsNext.foldl (fun l p => insert p.1 p.2 l) a.limits, limitsNext := [] }) }
  t.arr.arrays.foldl (fun u a => match a.volOp with | some o => volStep a o u | none => finishDeleting a u) t

/-! ### VOLUME_SET_POLICY (R405, R410) -/

/-- The remote mirror target of a volume: node and NGUID (R410). -/
def State.remoteTarget (s : State) (uid vol : Nat) : Nat × Nat :=
  match s.pol.remoteTargets.find? (fun x => x.1 == uid && x.2.1 == vol) with
  | some (_, _, n, g) => (n, g)
  | none => (0, 0)

/-- POLICY, REMOTE_NODE, REMOTE_NGUID and the parse. -/
def setPolicyFields (s : State) (m : Mailbox) : Nat × Nat × Nat × Parse :=
  match volOf s m with
  | none => (0, 0, 0, m.parse)
  | some (a, v) =>
    let p := m.parse
    let (node0, guid0) := s.remoteTarget a.body.uid v.id
    let req := p.raw 8 8
    let low := req % 32
    let noTarget := node0 == 0 || !s.coil.directory.any (fun x => x.1 == node0)
    let app := if a.shared ∧ ¬ a.owner then v.policy.toNat
      else low % 4 + flag (v.policy.getLsbD 2) 2 + flag (bit low 3 && !noTarget) 3 + flag (bit low 4 && v.policy.getLsbD 4) 4
    let p := if p.has 8 8 ∧ app ≠ low then p.note 2 64 req app else p
    let n := p.raw 16 4
    let node := if n = 0 ∨ n = 0xFFFFFFFF then node0 else n
    let p := if n = 0xFFFFFFFF then p.note 3 64 n node0 else p
    (app, node, leNat (p.raws 24 16 (leBytes 16 guid0)), p)

def setPolicyAct (mb : Nat) (m : Mailbox) (s : State) : State :=
  match volOf s m with
  | none => s
  | some (a, v) =>
    let (pol, node, guid, _) := setPolicyFields s m
    let keep (p : Policy) : Policy := { p with remoteTargets := p.remoteTargets.filter (fun x => !(x.1 == a.body.uid && x.2.1 == v.id)) ++ [(a.body.uid, v.id, node, guid)] }
    let t := { s with pol := keep s.pol, polNext := keep s.polNext }
    if pol = v.policy.toNat then mciOk mb [] [] t
    else startMark a.id (fun b => { b with volumes := mapIf b.volumes (fun (x : Volume) => x.id == v.id) (fun x => { x with policy := BitVec.ofNat 64 pol }) }) [mb]
      (mciWait mb [] [] t)
/-- Fields, objects and refusals of the command (steps 5 to 7 of R366). -/
def volumeSetPolicyPlan (s : State) (m : Mailbox) : Plan :=
  { p := (setPolicyFields s m).2.2.2,
    noObject := if (volOf s m).isNone then some 1 else if bit (m.parse.raw 8 8) 3 ∧ ¬ s.coilPresent 0 ∧ ¬ s.coilPresent 1 then some 2 else none,
    objects := (volOf s m).toList.map (fun x => objArray x.1.id) }
/-- REMOTE_MIRROR on a grade without a Coil port names an absent unit (R2). -/
def execVolumeSetPolicy (mb : Nat) (s : State) : Out :=
  done s (mciRun mb 0x0304 s (volumeSetPolicyPlan s) (setPolicyAct mb))

/-! ### VOLUME_LIST (R411) -/

def volListAct (mb : Nat) (m : Mailbox) (s : State) : State :=
  let n := (m.parse.array 1 0).1
  let as_ := if n = 0 then s.liveArrays else (s.namedArray n).toList
  let vs := as_.flatMap (fun a => (a.body.volumes.mergeSort (fun (x y : Volume) => x.id ≤ y.id)).map (fun v => (a, v)))
  mciOk mb (leBytes 4 vs.length) ((vs.map (fun x => padTo 64 (volumeBytes x.2) ++ leBytes 1 (x.1.id + 1) ++ leBytes 1 (s.causes x.1 x.2) ++ leBytes 14 0)).flatten) s
/-- Fields, objects and refusals of the command (steps 5 to 7 of R366). -/
def volumeListPlan (s : State) (m : Mailbox) : Plan :=
  { p := (m.parse.array 1 0).2, noObject := if (m.parse.array 1 0).1 = 0 then none else noArray s m }
def execVolumeList (mb : Nat) (s : State) : Out :=
  done s (mciRun mb 0x0305 s (volumeListPlan s) (volListAct mb))

end Sys2Proof.Machine
end

