-- ==== Sys2Proof/Machine/TwinLink.lean ====
section
/-! DEFINITION. The Slip link: flits, replay and acknowledgement (R239 to R242), messages sent and received (R243 to R249),
and the snapshot after a link-up (R233, R251). -/
namespace Sys2Proof.Machine

/-- A queued message: ARRAY_KEY, TWIN_SEQ, admission sequence, message. -/
abbrev SlipEntry := Nat × Nat × Nat × SlipMsg

/-! ### Sending (R30, R38, R240, R242, R243) -/

/-- Length of a message's body (R244, R245, R259, R260). -/
def SlipBody : SlipMsg → Nat
  | .hello _ _ _ _ _ _ => 40
  | .records rs => 64 * rs.length
  | .line _ _ => 4144
  | .ends l => 8 * l.length
  | .progress _ _ es => 16 + 24 * es.length
  | .snapshotBegin => 0
  | .snapshotEnd => 0
  | .handover _ _ => 16
  | .statePage _ _ _ _ => 65536
/-- Flits of a message: the 32-byte header and the body, 232 bytes a flit. -/
def slipFlits (m : SlipMsg) : Nat := cdiv (32 + SlipBody m) 232

/-- TWIN_SEQ values that a message carries. -/
def slipSeqs : SlipMsg → List Nat
  | .records rs => rs.map (fun (r : Rec) => r.twinSeq)
  | .line _ q => [q]
  | .statePage _ ls rs _ => ls.map (·.2) ++ rs.map (fun (r : Rec) => r.twinSeq)
  | _ => []

/-- A message goes out: its MSG_SEQ, its flits into the replay buffer, and its wait for MIRROR_ACK. -/
def slipSend (x : SlipEntry) (last : Bool) (s : State) : State :=
  let n := slipFlits x.2.2.2
  let seq := s.twin.msgSeqTx + 1
  emit (.slipMsg seq x.1 x.2.1 x.2.2.2) (s.onTwin fun t => { t with
    msgSeqTx := seq, nextLinkSeq := (t.nextLinkSeq + n) % 65536,
    replay := t.replay ++ (List.range n).map (fun i => (t.nextLinkSeq + i) % 65536),
    sent := t.sent ++ [{ seq := seq, turn := s.hw.turn, key := x.1, tseqs := slipSeqs x.2.2.2, snapshotEnd := last }] })

/-- Messages of one queue go out in order while flits are left in the budget and in the replay buffer: what stays, flits left. -/
def slipDrain : List SlipEntry → Nat → State → List SlipEntry × Nat × State
  | [], room, s => ([], room, s)
  | x :: l, room, s =>
    let n := slipFlits x.2.2.2
    if n ≤ room ∧ s.twin.replay.length + n ≤ 2048 then slipDrain l (room - n) (slipSend x (x.2.2.2 == .snapshotEnd) s) else (x :: l, 0, s)

/-- Slip flits of a turn (R30). -/
def State.slipBudget (s : State) : Nat := 400 * s.turnNs / 1024 - s.twin.resent

/-- The Slip messages of a planning window: a snapshot first, then by class (R38, R251). -/
def sendSlip (s : State) : State :=
  if ¬ s.twin.trained then s
  else
    let (a, r, t) := slipDrain s.twin.queueSnap s.slipBudget s
    let (b, r, t) := slipDrain s.twin.queueRec r t
    let (c, r, t) := slipDrain s.twin.queueMeta r t
    let (d, _, t) := slipDrain s.twin.queueLine r t
    t.onTwin fun w => { w with queueSnap := a, queueRec := b, queueMeta := c, queueLine := d, resent := 0 }

/-! ### Flits (R239, R240) -/

/-- MIRROR_ACK covers messages (R170, R247): the writes and records that waited for them go on. -/
def mirrorAcked (n : Nat) (s : State) : State :=
  let got := s.twin.sent.filter (fun m => decide (m.seq ≤ n))
  match got.getLast? with
  | none => s
  | some m =>
    let qs := got.flatMap (·.tseqs)
    let t := s.onTwin fun w => { w with
      sent := w.sent.filter (fun m => !decide (m.seq ≤ n)), mirrorAckRx := n, ackLag := s.hw.turn - m.turn,
      snapshotAcked := w.snapshotAcked || got.any (·.snapshotEnd) }
    let t := t.onVault fun v => { v with own := mapIf v.own (fun (r : Rec) => qs.contains r.twinSeq && r.twinSeq != 0) (fun r => { r with mirrored := true }) }
    t.onNvme fun x => { x with admitted := x.admitted.map (fun c => { c with twinWait := c.twinWait.filter (fun q => !qs.contains q) }) }

/-- LINK_ACK has passed flits, which leave the replay buffer. -/
def replayTrim (ack : Nat) (t : Twin) : Twin :=
  if t.replay.contains ack then { t with replay := t.replay.dropWhile (· != ack) } else if ack = t.nextLinkSeq then { t with replay := [] } else t

/-- A NAK: the flits from LINK_ACK on are sent again and charged; four for one LINK_SEQ take the link down (R240, R241). -/
def slipNaked (ack : Nat) (s : State) : State :=
  let k := if s.twin.nakSeq = ack then s.twin.nakCount + 1 else 1
  let n := s.twin.replay.length
  let t := raise { source := 0x181 } (s.onTwin fun t => { t with nakSeq := ack, nakCount := k, replays := bump t.replays, resent := t.resent + n })
  if 4 ≤ k then retrainSlip t else if n = 0 then t else emit (.slipResend ack n) t

/-- A flit is discarded and answered with NAK (R240, R241). -/
def slipDiscard (s : State) : State :=
  let k := s.twin.nakSent + 1
  let t := s.onTwin fun t => { t with crcErrors := bump t.crcErrors, nakSent := k }
  if 4 ≤ k then retrainSlip (t.onTwin fun t => { t with nakSent := 0 }) else emit (.slipNak s.twin.expected) t

/-- SLIP_FLIT_RECEIVED. -/
def slipFlit (f : Flit) (s : State) : State :=
  if ¬ f.crcOk ∨ 1 < f.kind ∨ f.linkSeq ≠ s.twin.expected then slipDiscard s
  else
    let t := s.onTwin fun t => replayTrim f.linkAck { t with nakSent := 0, expected := (t.expected + f.kind) % 65536, nakCount := if f.nak then t.nakCount else 0 }
    let t := if s.twin.mirrorAckRx < f.mirrorAck ∧ f.mirrorAck ≤ s.twin.msgSeqTx then mirrorAcked f.mirrorAck t else t
    if f.nak then slipNaked f.linkAck t else t
def execSlipFlitReceived (f : Flit) (s : State) : Out := done s (if s.twin.trained then slipFlit f s else s)

/-- SLIP_SILENCE_TIMEOUT (R241). -/
def execSlipSilenceTimeout (s : State) : Out := done s (if s.twin.trained then retrainSlip s else s)

/-! ### Training and link-up (R233, R241, R251, R253) -/

/-- The Slip link has trained: a session begins and HELLO is queued (R233, R239, R244). -/
def slipTrained (lanes : Nat) (s : State) : State :=
  let hello : SlipMsg := .hello Config.deviceId (s.twin.partner.getD 0) s.hw.powerCycle s.twin.mode s.sched.lenSel 0
  slipQueue 1 0 0 0 hello (s.onTwin fun t => { t with
    training := false, trained := true, lanes := min lanes 8, session := (t.session + 1) % 65536, msgSeqTx := 0, msgSeqRx := 0, mirrorAckRx := 0,
    heldRx := [], nextLinkSeq := 0, expected := 0, nakSeq := 0, nakCount := 0, nakSent := 0, replay := [], resent := 0, sent := [], queueMeta := [] })

/-- A received message is held; MIRROR_ACK is the highest MSG_SEQ with none missing below (R247). -/
def ackRun : Nat → Nat → List Nat → Nat
  | 0, n, _ => n
  | k + 1, n, l => if l.contains (n + 1) then ackRun k (n + 1) l else n
def heldMsg (seq : Nat) (s : State) : State :=
  s.onTwin fun t =>
    let l := if seq ≤ t.msgSeqRx then t.heldRx else addOnce seq t.heldRx
    let n := ackRun l.length t.msgSeqRx l
    { t with msgSeqRx := n, heldRx := l.filter (fun q => n < q) }

/-- HELLO: R233. -/
def helloRx (seq : Nat) (device bound : BitVec 128) (mode lenSel : Nat) (s : State) : State :=
  let ok := s.twin.partner == some device && bound == Config.deviceId && mode == s.twin.mode && (mode == 1 || (mode == 2 && lenSel != 1 && s.sched.lenSel != 1))
  let t := heldMsg seq (s.onTwin fun t => { t with helloGot := true, helloOk := ok })
  if ok then t else raise { source := 0x180 } t
def execHello (seq : Nat) (device bound : BitVec 128) (_powerCycle mode lenSel _part : Nat) (s : State) : Out :=
  done s (if s.twin.trained then helloRx seq device bound mode lenSel s else s)

/-- The arrays that this device shares and owns. -/
def State.ownShared (s : State) : List Arr := s.arr.arrays.filter (fun a => a.shared && a.owner)

/-- SLIP_LINK_UP: the areas held for the other side are cleared and a snapshot is due at the next boundary, with the keys of
shared arrays registered; a mismatch leaves the link without mirror traffic. -/
def slipUp (s : State) : State :=
  let t := wantService 20 true (s.onTwin fun t => { t with up := true })
  if ¬ s.twin.helloOk ∨ ¬ s.twin.areaReady then t.onTwin fun t => { t with st := if t.partner = none then .unpaired else .mismatch }
  else
    let t := freeLines (fun l => l.st == .mirror) (t.onVault fun v => { v with partner := [] })
    let t := t.onTwin fun t => { t with heldTwinSeq := [], ended := [], snapshotDue := true, snapshotAcked := false }
    (t.arr.arrays.filter (fun a => a.shared && !a.stoodDown)).foldl (fun u a => startReserve 1 a u) t
def execSlipLinkUp (s : State) : Out := done s (if s.twin.trained ∧ s.twin.helloGot ∧ ¬ s.twin.up then slipUp s else s)

/-! ### Messages received (R247 to R249) -/

/-- A message of the mirror is taken: the link is up and R233 holds. -/
def State.slipRx (s : State) : Bool := s.twin.up && s.twin.helloOk

/-- A TWIN_SEQ is held already. -/
def dupRx (q : Nat) (s : State) : Bool := s.twin.heldTwinSeq.contains q
def holdSeq (q : Nat) (s : State) : State := s.onTwin fun t => { t with heldTwinSeq := t.heldTwinSeq ++ [q] }
def countDup (s : State) : State := s.onTwin fun t => { t with duplicates := bump t.duplicates }

/-- A record arrives: it takes its place in the partner area and goes to this side's ring half; a RETIRED one frees the MIRROR
lines of its instance. -/
def recordRx (r : Rec) (s : State) : State :=
  if dupRx r.twinSeq s then countDup s
  else
    let t := (holdSeq r.twinSeq s).onVault fun v => { v with
      ringPending := v.ringPending ++ [r],
      partner := if r.st = .retired then v.partner.filter (fun (x : Rec) => x.intentGen != r.intentGen)
                 else if v.partner.any (fun (x : Rec) => x.intentGen == r.intentGen) then mapIf v.partner (fun (x : Rec) => x.intentGen == r.intentGen) (fun _ => r)
                 else v.partner ++ [r] }
    let t := (s.recNodes r.key r.stripe r.descGen).foldl (fun u n => remoteSend n 2 (1 - s.twinSide) 1 r.key 0 0 (recBytes r) u) t
    if r.st = .retired then freeLines (fun l => l.st == .mirror && l.key == r.key && l.intentGen == r.intentGen) t else t
def execRecords (seq _side : Nat) (recs : List Rec) (s : State) : Out :=
  done s (if s.slipRx then heldMsg seq (recs.foldl (fun t r => recordRx r t) s) else s)

/-- The record of an instance is CLOSING in the partner area. -/
def State.partnerClosing (s : State) (gen : Nat) : Bool := s.vault.partner.any (fun (r : Rec) => r.intentGen == gen && r.st == .closing)

/-- A write that has become complete frees older versions of its sectors, but for one whose record is CLOSING (R248). -/
def mirrorComplete (key adm : Nat) (s : State) : State :=
  let mine (l : Line) : Bool := l.st == .mirror && l.key == key && l.seq == adm
  let ls := s.sag.lines.filter mine
  let n := ((ls.map (·.idx)).foldl (fun l i => addOnce i l) []).length
  if (ls.head?.map (·.count)).getD 1 ≠ n then s
  else
    let t := onLines mine (fun l => { l with written := true }) s
    let all := t.sag.lines
    freeLines (fun l => l.st == .mirror && l.key == key && l.written && !t.partnerClosing l.intentGen &&
      all.any (fun y => y.st == .mirror && y.key == key && y.written && y.lba == l.lba && decide (l.seq < y.seq))) t

/-- The lowest free line of the receive area (R129). -/
def State.freeMirror (s : State) : Option Nat :=
  let used := (s.sag.lines.filter (fun l => l.st == .mirror)).map (·.no)
  ((List.range (used.length + 1)).map (fun i => s.sag.poolLines + i)).find? (fun n => !used.contains n && decide (n < s.sag.poolLines + s.sag.rxAreaLines))

/-- A line arrives; nothing is held where the receive area has no room. -/
def lineRx (seq q : Nat) (l : SlipLine) (s : State) : State :=
  if dupRx q s then heldMsg seq (countDup s)
  else if s.twin.ended.contains l.admitSeq then heldMsg seq (holdSeq q s)
  else match s.freeMirror with
    | none => s
    | some n =>
      let x : Line := { no := n, st := .mirror, lba := l.lba, volume := l.volume, seq := l.admitSeq, pi := l.pi, data := trimZeros l.data,
                        intentGen := l.intentGen, key := l.key, idx := l.index, count := l.count, twinSeq := q }
      let t := (holdSeq q s).onSag fun g => { g with lines := g.lines ++ [x] }
      let t := match s.arrayOfKey l.key with | some a => remoteLine a (1 - s.twinSide) q l t | none => t
      heldMsg seq (mirrorComplete l.key l.admitSeq t)
def execLine (seq _side twinSeq : Nat) (l : SlipLine) (s : State) : Out := done s (if s.slipRx then lineRx seq twinSeq l s else s)

/-- END: the lines of writes that ended without committing are freed. -/
def endsRx (key : Nat) (seqs : List Nat) (s : State) : State :=
  freeLines (fun l => l.st == .mirror && l.key == key && seqs.contains l.seq) (s.onTwin fun t => { t with ended := t.ended ++ seqs })
def execEndMsg (seq _side key : Nat) (seqs : List Nat) (s : State) : Out := done s (if s.slipRx then heldMsg seq (endsRx key seqs s) else s)

/-- PROGRESS: this side follows the owner's mark generation and progress (R244, R246). -/
def progressRx (key markGen direct : Nat) (es : List (Nat × Nat × Nat)) (s : State) : State :=
  match s.arrayOfKey key with
  | none => s
  | some a =>
    if a.owner then s
    else onArray a.id (fun x => { x with
      markGen := max x.markGen markGen, exact := es,
      directRound := ((List.range x.body.members.length).filter (fun p => (x.entry p).state == 3)).foldl (fun l p => insert p direct l) x.directRound }) s
def execProgress (seq key markGen directRound : Nat) (entries : List (Nat × Nat × Nat)) (s : State) : Out :=
  done s (if s.slipRx then heldMsg seq (progressRx key markGen directRound entries s) else s)

/-- SNAPSHOT_BEGIN and SNAPSHOT_END are held once processed (R247, R251). -/
def execSnapshotBegin (seq : Nat) (s : State) : Out := done s (if s.slipRx then heldMsg seq s else s)
def execSnapshotEnd (seq : Nat) (s : State) : Out := done s (if s.slipRx then heldMsg seq s else s)

/-- One line of a state page; the page's own sequence is held with the page. -/
def pageLine (x : SlipLine × Nat) (s : State) : State := lineRx 0 x.2 x.1 s
/-- STATE_PAGE: lines, records and ends of a turn (R260). -/
def statePageRx (seq : Nat) (lines : List (SlipLine × Nat)) (recs : List Rec) (ends : List Nat) (s : State) : State :=
  let t := recs.foldl (fun t r => recordRx r t) s
  let t := lines.foldl (fun t x => pageLine x t) t
  heldMsg seq (freeLines (fun l => l.st == .mirror && ends.contains l.seq) (t.onTwin fun w => { w with ended := w.ended ++ ends }))
def execStatePage (seq _side _pageSeq : Nat) (lines : List (SlipLine × Nat)) (recs : List Rec) (ends : List Nat) (s : State) : Out :=
  done s (if s.slipRx ∧ s.twin.mode = 2 then statePageRx seq lines recs ends s else s)

/-! ### What the owner sends at a boundary (R246, R251, R260) -/

/-- A live record is sent; one that was sent before keeps its TWIN_SEQ. -/
def sendRecord (snap : Bool) (r : Rec) (s : State) : State :=
  let q := if r.twinSeq = 0 then s.twin.twinSeq else r.twinSeq
  let t := if r.twinSeq = 0 then tookTwinSeq s else s
  let x := { r with twinSeq := q }
  let t := t.onVault fun v => { v with own := mapIf v.own (fun (y : Rec) => y.intentGen == r.intentGen) (fun _ => x) }
  let e : SlipEntry := (r.key, q, 0, .records [x])
  t.onTwin fun w => if snap then { w with queueSnap := w.queueSnap ++ [e] } else { w with queueRec := w.queueRec ++ [e] }

/-- INTENT_GEN of the record that covers a line's stripe (R245). -/
def State.lineGen (s : State) (a : Arr) (l : Line) : Nat :=
  if l.st ≠ .pending then l.intentGen
  else ((s.cmd l.sqid l.cid).bind (fun c => (c.waits.find? (fun w => w.2.1 == stripeOf (a.descAt l.lba) l.lba)).map (fun w => w.2.2))).getD 0

/-- A line is sent; one that was sent before keeps its TWIN_SEQ. -/
def sendLine (snap : Bool) (a : Arr) (l : Line) (s : State) : State :=
  let q := if l.twinSeq = 0 then s.twin.twinSeq else l.twinSeq
  let t := if l.twinSeq = 0 then tookTwinSeq s else s
  let key := arrayKey a.body.uid
  let t := onLines (fun x => x.no == l.no) (fun x => { x with twinSeq := q }) t
  let t := if l.st = .pending then onCmd l.sqid l.cid (fun c => { c with twinWait := addOnce q c.twinWait }) t else t
  let d : SlipLine := { key := key, lba := l.lba, volume := l.volume, index := l.idx, count := l.count, intentGen := s.lineGen a l, admitSeq := l.seq, pi := l.pi, data := l.data }
  let e : SlipEntry := (key, q, l.seq, .line d q)
  t.onTwin fun w => if snap then { w with queueSnap := w.queueSnap ++ [e] } else { w with queueLine := w.queueLine ++ [e] }

/-- Lines of an array that a snapshot sends: DIRTY, CLOSING, and PENDING ones whose copies are written. -/
def State.mirrorable (s : State) (a : Arr) : List Line :=
  s.sag.lines.filter (fun l => l.array == a.id && ((l.st == .pending && l.written) || l.st == .dirty || l.st == .closing))

/-- Records and lines of an array are sent. -/
def sendRecords (snap : Bool) (a : Arr) (s : State) : State := (s.liveRecs a).foldl (fun t r => sendRecord snap r t) s
def sendLines (snap : Bool) (a : Arr) (s : State) : State := (s.mirrorable a).foldl (fun t l => sendLine snap a l t) s

/-- The snapshot at boundary S (R251), with the end of STOOD_DOWN (R253). -/
def snapshot (s : State) : State :=
  let t := s.onTwin fun w => { w with st := .syncing, snapshotDue := false, queueSnap := [(0, 0, 0, .snapshotBegin)], queueRec := [], queueLine := [] }
  let t := t.onArr fun x => { x with arrays := mapIf x.arrays (·.stoodDown) (fun a => { a with stoodDown := false, owner := false, ana := .inaccessible, anaNext := none }) }
  let t := if s.arr.arrays.any (·.stoodDown) then anaChanged t else t
  let t := t.ownShared.foldl (fun u a => sendRecords true a u) t
  let t := t.ownShared.foldl (fun u a => sendLines true a u) t
  t.onTwin fun w => { w with queueSnap := w.queueSnap ++ [(0, 0, 0, .snapshotEnd)] }

/-- What a state page takes from the queues: lines, records, ends, whether it ends a snapshot, and what stays. -/
def packPage : List SlipEntry → List (SlipLine × Nat) × List Rec × List Nat × Bool → List SlipEntry × (List (SlipLine × Nat) × List Rec × List Nat × Bool)
  | [], p => ([], p)
  | x :: l, (ls, rs, es, fin) =>
    let keep := let (r, p) := packPage l (ls, rs, es, fin); (x :: r, p)
    match x.2.2.2 with
    | .line d q => if ls.length < 14 then packPage l (ls ++ [(d, q)], rs, es, fin) else keep
    | .records r => if rs.length + r.length ≤ 106 then packPage l (ls, rs ++ r, es, fin) else keep
    | .ends e => if es.length + e.length ≤ 24 then packPage l (ls, rs, es ++ e, fin) else keep
    | .snapshotEnd => if l.isEmpty ∧ ls.length < 14 ∧ rs.length < 106 then packPage l (ls, rs, es, true) else (x :: l, (ls, rs, es, fin))
    | _ => packPage l (ls, rs, es, fin)

/-- STATE_PAGE of a turn in full-state mode: it takes the place of every other message but HELLO (R260). -/
def statePage (s : State) : State :=
  if s.twin.mode ≠ 2 ∨ ¬ s.slipRx ∨ 2048 < s.twin.replay.length + 283 then s
  else
    let (snap, p) := packPage s.twin.queueSnap ([], [], [], false)
    let (recs, p) := if snap = [] then packPage s.twin.queueRec p else (s.twin.queueRec, p)
    let (lines, p) := if snap = [] then packPage s.twin.queueLine p else (s.twin.queueLine, p)
    let m : SlipMsg := .statePage s.twin.pageSeq p.1 p.2.1 p.2.2.1
    let t := s.onTwin fun w => { w with queueSnap := snap, queueRec := recs, queueLine := lines, queueMeta := [], pageSeq := w.pageSeq + 1, resent := w.resent + 283 }
    slipSend (0, 0, 0, m) p.2.2.2 t

/-- PROGRESS of an array: at every mark update, and when its progress has advanced, at most once per 64 turns (R246). -/
def sendProgress (a : Arr) (s : State) : State :=
  let key := arrayKey a.body.uid
  let direct := ((a.directRound.map (·.2)).foldl max 0)
  let es := a.relocs.map (fun (e : Reloc) => (e.seq, e.doneRound, e.homeRound))
  let m : SlipMsg := .progress a.body.gen direct es
  let gen (x : SlipMsg) : Nat := match x with | .progress g _ _ => g | _ => 0
  let due := match lookup s.twin.progressAt key with
    | none => true
    | some (t, x) => (x != m) && (gen x != a.body.gen || decide (t + 64 ≤ s.hw.turn))
  if due then slipQueue 1 key 0 0 m (s.onTwin fun w => { w with progressAt := insert key (s.hw.turn, m) w.progressAt }) else s

end Sys2Proof.Machine
end

