-- ==== Sys2Proof/Machine/Twin.lean ====
section
/-! DEFINITION. Sharing and ownership (R235 to R238), reservation checks (R253), takeover (R252 to R257), planned moves (R258,
R259) and the twin's share of a turn boundary. -/
namespace Sys2Proof.Machine

/-! ### Sharing (R235, R238) -/

/-- R235, as far as members that are not FAILED can show it. -/
def State.sharable (s : State) (a : Arr) : Bool :=
  s.twin.partner.isSome && s.slipPresent && a.service == 2 && !a.creating &&
  ((List.range a.body.members.length).filter (fun p => !a.failed p)).all (fun p =>
    let e := a.entry p
    let named := a.body.journalMembers.contains p
    match s.memberAt a p with
    | some n => n.ident.twin && (!named || (!e.remote && decide (32768 ≤ n.journal)))
    | none => false)

/-- An array becomes shared, with its keys registered and its records and lines sent where the mirror runs; or private. -/
def reshare (a : Arr) (s : State) : State :=
  if ¬ a.owner ∨ a.stoodDown ∨ a.moving ≠ 0 ∨ a.takeover ≠ 0 then s
  else match s.sharable a, a.shared with
    | true, false =>
      let t := startReserve 1 { a with shared := true } (onArray a.id (fun x => { x with shared := true }) s)
      if s.twin.up ∧ (s.twin.st = .mirroring ∨ s.twin.st = .syncing) then sendLines false a (sendRecords false a t) else t
    | false, true => if (List.range a.body.members.length).all (fun p => a.failed p || (s.memberAt a p).isSome) then onArray a.id (fun x => { x with shared := false }) s else s
    | _, _ => s

/-- Arrays whose volumes all set TWIN_REQUIRED (R254). -/
def Arr.allRequired (a : Arr) : Bool := a.body.volumes.all volTwinRequired

/-! ### Reservation checks (R253) -/

/-- The first reachable journal member of an array. -/
def State.checkNs (s : State) (a : Arr) : Option Ns := (s.journalNs a).find? (fun n => n.up)

/-- RESERVATION_CHECK_DUE. -/
def checkDue (s : State) : State :=
  if s.twin.up ∨ s.twin.partner = none then s
  else s.ownShared.foldl (fun t a => match t.checkNs a with
    | some n => addCmd { ns := n.id, op := .reservationReport, cls := 1 } (onArray a.id (fun x => { x with checkIssued := s.hw.turn }) t)
    | none => t) s
def execReservationCheckDue (s : State) : Out := done s (checkDue s)

/-- An array leaves this device's hands: its lines, records and jobs go, its commands end with a status (R253, R257). -/
def leaveArray (a : Arr) (status : Nat) (s : State) : State :=
  let cs := s.nvme.admitted.filter (fun c => c.array == a.id && c.sqid != 0)
  let t := cs.foldl (fun u c => cmdFail c.sqid c.e.cid status u) s
  let t := (t.arr.jobs.filter (fun j => j.array == a.id)).foldl (fun u j => endJob j.id u) t
  let t := t.onArr fun x => { x with scrubs := x.scrubs.filter (fun y => y.array != a.id), mendQueue := x.mendQueue.filter (fun m => m.1 != a.id) }
  let key := arrayKey a.body.uid
  let t := t.onSag fun g => { g with lines := g.lines.filter (fun l => l.array != a.id || l.st == .mirror), openStripes := g.openStripes.filter (fun o => o.array != a.id) }
  t.onVault fun v => { v with own := v.own.filter (fun (r : Rec) => r.key != key), ringPending := v.ringPending.filter (fun (r : Rec) => r.key != key) }

/-- A check shows the registration removed: the array is stood down here. -/
def standDown (a : Arr) (s : State) : State :=
  let t := onArray a.id (fun x => { x with owner := false, stoodDown := true, anaNext := some .persistentLoss, moving := 0, markWaiting := none, persisted := none }) (leaveArray a 0x301 s)
  t.onTwin fun w => { w with st := .stoodDown }

/-- RESERVATION_REPORT_DONE: the Report on the array's journal member has completed. -/
def reportDone (aid : Nat) (registered : Bool) (s : State) : State :=
  match s.array aid with
  | none => s
  | some a =>
    let t := s.onArr fun x => { x with cmds := x.cmds.filter (fun c => !(c.op == .reservationReport && (s.memberNs a).any (fun n => n.id == c.ns))) }
    if s.twin.up ∨ ¬ a.shared ∨ ¬ a.owner then t
    else if registered then onArray aid (fun x => { x with checkGood := some a.checkIssued }) t else standDown a t
def execReservationReportDone (array : Nat) (registered : Bool) (s : State) : Out := done s (reportDone array registered s)

/-! ### Takeover (R252 to R257) -/

/-- The survivor preempts the partner on every member of an array. -/
def startTakeover (a : Arr) (mb : Option Nat) (s : State) : State :=
  startReserve 3 a (onArray a.id (fun x => { x with takeover := 1, moveMb := mb }) s)

/-- Arrays that automatic takeover takes (R254). -/
def State.eligible (s : State) : List Arr :=
  if ¬ s.tpol.auto ∨ s.twin.st = .stoodDown then [] else s.arr.arrays.filter (fun a => a.shared && !a.owner && !a.stoodDown && a.takeover == 0 && a.allRequired)

/-- PARTNER_LOST: side 0 begins takeover. -/
def partnerLost (s : State) : State :=
  if s.twin.up ∨ s.twin.partner = none ∨ s.twin.st = .partnerLost then s
  else
    let t := raise { source := 0x182 } (record { kind := 6, keyA := 0, keyB := 3, sev := 2 } s)
    let t := t.onTwin fun w => { w with st := if w.st = .stoodDown then .stoodDown else .partnerLost }
    if s.twinSide = 0 then t.eligible.foldl (fun u a => startTakeover a none u) t else t
def execPartnerLost (s : State) : Out := done s (partnerLost s)

/-- SIDE1_DELAY_EXPIRED: side 1 takes over when its registration is present everywhere. -/
def execSide1DelayExpired (registered : Bool) (s : State) : Out :=
  done s (if s.twinSide = 1 ∧ s.twin.st = .partnerLost ∧ ¬ s.twin.up ∧ registered then s.eligible.foldl (fun u a => startTakeover a none u) s else s)

/-- Mirror lines of complete writes as vaulted sectors, newest first. -/
def mirrorSectors (s : State) (key : Nat) : List VaultSector :=
  ((s.sag.lines.filter (fun l => l.st == .mirror && l.key == key && l.written)).mergeSort (fun x y => decide (y.seq ≤ x.seq))).map
    (fun l => { key := key, lba := l.lba, intentGen := l.intentGen, volume := l.volume, pi := l.pi, data := l.data })

/-- The newest one of each array LBA. -/
def newestSectors (l : List VaultSector) : List VaultSector :=
  l.foldl (fun (acc : List VaultSector) x => if acc.any (fun (y : VaultSector) => y.lba == x.lba) then acc else acc ++ [x]) []

/-- The partner's records of an array become this side's, in their partner-area slots (R255). -/
def takeRecords (key : Nat) (recs : List Rec) (s : State) : State :=
  s.onVault fun v => { v with partner := v.partner.filter (fun (r : Rec) => r.key != key),
                              takenOver := v.takenOver ++ (recs.map (fun (r : Rec) => r.intentGen)).filter (fun g => !v.takenOver.contains g) }

/-- FENCE_WAIT_EXPIRED: the union of records, the restored lines and the resynchronisation (R255 steps 3 to 5). -/
def fenceWait (aid : Nat) (inp : RecoveryInput) (s : State) : State :=
  match s.array aid with
  | none => s
  | some a =>
    if a.takeover ≠ 2 then s
    else
      let key := arrayKey a.body.uid
      let union := ringUnion (s.vault.partner.filter (fun (r : Rec) => r.key == key) ++ inp.ring.filter (fun (r : Rec) => r.key == key))
      let recs := union.filter (fun (r : Rec) => r.st != .retired)
      let us := mirrorSectors s key
      let back := (newestSectors us).filter (fun (x : VaultSector) => !union.any (fun (r : Rec) => r.intentGen == x.intentGen && r.st == .retired))
      let t := freeLines (fun l => l.st == .mirror && l.key == key) (takeRecords key recs s)
      onArray aid (fun x => { x with takeover := 3 }) (recoverWith true inp recs us back.reverse a t)
def execFenceWaitExpired (array : Nat) (input : RecoveryInput) (s : State) : Out := done s (fenceWait array input s)

/-- No mark update of an array is being written, waiting or due. -/
def State.markQuiet (s : State) (a : Arr) : Bool := (s.markJob a.id).isNone && a.persisted.isNone && a.markWaiting.isNone

/-- Volumes without TWIN_REQUIRED are flagged STALE_POSSIBLE (R257, R405). -/
def markStale (b : MarkBody) : MarkBody :=
  { b with volumes := b.volumes.map (fun (v : Volume) => if volTwinRequired v then v else { v with policy := v.policy ||| 16#64 }) }

/-- The steps of a takeover that end at a boundary (R255 steps 6 and 7). -/
def takeoverStep (a : Arr) (s : State) : State :=
  match a.takeover with
  | 3 => if s.arr.jobs.any (fun j => j.array == a.id && isClose j.kind) then s
         else startMark a.id (if a.stalePossible then markStale else id) [] (onArray a.id (fun x => { x with takeover := 4, stalePossible := false }) s)
  | 4 =>
    if ¬ s.markQuiet a then s
    else
      let t := onArray a.id (fun x => { x with takeover := 0, owner := true, stoodDown := false, ana := .optimized, anaNext := none, moveMb := none }) s
      let t := anaChanged (recordArray a.id 4 [a.body.uid] t)
      let t := match a.moveMb with | some i => mciFinish i t | none => t
      t.onTwin fun w => { w with st := if w.st = .stoodDown ∧ ¬ t.arr.arrays.any (·.stoodDown) then .partnerLost else w.st }
  | _ => s

/-! ### Planned moves (R258) -/

/-- Messages of an array that the partner has not acknowledged. -/
def State.unacked (s : State) (key : Nat) : Bool :=
  let q (l : List SlipEntry) : Bool := l.any (fun x => x.1 == key)
  s.twin.sent.any (fun m => m.key == key) || q s.twin.queueSnap || q s.twin.queueRec || q s.twin.queueMeta || q s.twin.queueLine

/-- Step 2 is reached: commands, closes and messages of the array have ended. -/
def State.drained (s : State) (a : Arr) : Bool :=
  !s.nvme.admitted.any (fun c => c.array == a.id && c.sqid != 0) && !s.arr.jobs.any (fun j => j.array == a.id && isClose j.kind) && !s.unacked (arrayKey a.body.uid)

/-- MOVE_DRAIN_COMPLETE: RELEASE is sent, and this side stops writing the array (R258 step 3). -/
def moveDrained (aid : Nat) (s : State) : State :=
  match s.array aid with
  | none => s
  | some a =>
    if a.moving ≠ 2 ∨ ¬ s.twin.up ∨ ¬ s.drained a then s
    else
      let key := arrayKey a.body.uid
      let t := (s.arr.jobs.filter (fun j => j.array == aid)).foldl (fun u j => endJob j.id u) s
      let t := slipQueue 1 key 0 0 (.handover false (s.nvme.admitSeq - 1)) t
      startReserve 5 a (onArray aid (fun x => { x with moving := 3, owner := false }) t)
def execMoveDrainComplete (array : Nat) (s : State) : Out := done s (moveDrained array s)

/-- The old owner's lines become MIRROR lines and its records the partner's (R258 step 5). -/
def handedOver (a : Arr) (s : State) : State :=
  let key := arrayKey a.body.uid
  let t := freeLines (fun l => l.array == a.id && (l.st == .clean || l.st == .pending)) s
  let t := onLines (fun l => l.array == a.id && (l.st == .dirty || l.st == .closing))
    (fun l => { l with st := .mirror, array := 0, key := key, written := true, prim := true, pair := true }) t
  let t := t.onSag fun g => { g with openStripes := g.openStripes.filter (fun o => o.array != a.id) }
  let t := t.onVault fun v => { v with partner := v.partner ++ v.own.filter (fun (r : Rec) => r.key == key), own := v.own.filter (fun (r : Rec) => r.key != key) }
  onArray a.id (fun x => { x with moving := 0, anaNext := some .inaccessible }) t

/-- RELEASE: this side becomes the owner, its MIRROR lines of complete writes become DIRTY (R258 step 4). -/
def takeHandover (a : Arr) (lastAdmit : Nat) (s : State) : State :=
  let key := arrayKey a.body.uid
  let recs := s.vault.partner.filter (fun (r : Rec) => r.key == key)
  let back := newestSectors (mirrorSectors s key)
  let t := freeLines (fun l => l.st == .mirror && l.key == key) (takeRecords key recs s)
  let t := t.onVault fun v => { v with own := v.own ++ recs }
  let t := back.reverse.foldl (fun u x => restoreLine a x u) t
  let t := t.onNvme fun n => { n with admitSeq := max n.admitSeq (lastAdmit + 1) }
  startReserve 4 a (onArray a.id (fun x => { x with owner := true, moving := 4, anaNext := some .change }) t)

/-- HANDOVER (R244, R258). -/
def handoverRx (key : Nat) (done_ : Bool) (lastAdmit : Nat) (s : State) : State :=
  match s.arrayOfKey key with
  | none => s
  | some a =>
    if done_ then (if a.moving = 3 then handedOver a s else s)
    else if a.owner ∨ ¬ a.shared ∨ a.takeover ≠ 0 then s else takeHandover a lastAdmit s
def execHandover (seq key : Nat) (done_ : Bool) (lastAdmit : Nat) (s : State) : Out :=
  done s (if s.slipRx then heldMsg seq (handoverRx key done_ lastAdmit s) else s)

/-- DRILL_HOLD_EXPIRED: the array moves back; the move is its present owner's (R259). -/
def execDrillHoldExpired (array : Nat) (s : State) : Out :=
  done s (match s.array array with
    | some a => if a.shared ∧ a.owner ∧ a.moving = 0 ∧ s.slipRx then onArray array (fun x => { x with moving := 1 }) s else s
    | none => s)

/-- TWIN_SWAP_DRILL's response (R265). -/
def drillBytes (result lines records members us : Nat) : Bytes :=
  leBytes 1 result ++ leBytes 3 0 ++ leBytes 4 lines ++ leBytes 4 records ++ leBytes 4 members ++ leBytes 4 us

/-- The mailbox that waited for a move is answered when its last array has moved, or has not. -/
def moveAnswer (a : Arr) (i : Nat) (s : State) : State :=
  let t := onArray a.id (fun x => { x with moveMb := none }) s
  let us := (s.hw.turn - a.moveTurn) * s.turnNs / 1000
  if (s.mb i).opcode = 0x0506 then mciOk i (drillBytes (if a.owner then 3 else 0) 0 0 0 (if a.owner then 0 else us)) [] t
  else if a.owner then mciFail i stInternal 0 0 t
  else if t.arr.arrays.any (fun x => x.moveMb == some i) then t else mciFinish i t

/-- The steps of a move at a boundary. -/
def moveStep (a : Arr) (s : State) : State :=
  match a.moving with
  | 1 => if ¬ s.slipRx then onArray a.id (fun x => { x with moving := 0 }) s
         else anaChanged (onArray a.id (fun x => { x with moving := 2, ana := .change, moveTurn := s.hw.turn }) s)
  | 3 => if s.twin.up then s else handedOver a s
  | 5 => if ¬ s.markQuiet a then s
         else slipQueue 1 (arrayKey a.body.uid) 0 0 (.handover true (s.nvme.admitSeq - 1)) (onArray a.id (fun x => { x with moving := 6 }) s)
  | 6 => anaChanged (onArray a.id (fun x => { x with moving := 0, ana := .optimized, anaNext := none }) s)
  | 0 => match a.moveMb with | some i => if a.takeover = 0 then moveAnswer a i s else s | none => s
  | _ => s

/-! ### The boundary -/

/-- ANA states chosen before take effect (R237). -/
def anaBoundary (s : State) : State :=
  if s.arr.arrays.any (fun a => a.anaNext.isSome) then
    anaChanged (s.onArr fun x => { x with arrays := x.arrays.map (fun a => match a.anaNext with | some v => { a with ana := v, anaNext := none } | none => a) })
  else s

/-- The twin's part of a turn boundary. -/
def twinBoundary (s : State) : State :=
  let each (f : Arr → State → State) (s : State) : State := (s.arr.arrays.map (·.id)).foldl (fun u i => match u.array i with | some a => f a u | none => u) s
  let t := each takeoverStep (each moveStep (anaBoundary s))
  let t := each reshare t
  let t := if t.twin.snapshotDue then snapshot t else t
  let t := if t.twin.snapshotAcked ∧ t.twin.st = .syncing then t.onTwin fun w => { w with st := .mirroring, snapshotAcked := false } else t
  let t := if t.twin.mode = 1 ∧ t.slipRx then t.ownShared.foldl (fun u a => sendProgress a u) t else t
  statePage t

/-! ### Registers (R261) -/

def TwinSt.code : TwinSt → Nat
  | .unpaired => 0 | .linkDown => 1 | .syncing => 2 | .mirroring => 3 | .partnerLost => 4 | .stoodDown => 5 | .mismatch => 6

/-- TWIN_STATE. -/
def twinState (s : State) : Nat :=
  let own := (s.arr.arrays.filter (fun a => a.shared && a.owner)).length
  let peer := (s.arr.arrays.filter (fun a => a.shared && !a.owner)).length
  s.twin.st.code + s.twinSide * 8 + s.twin.mode % 4 * 16 + flag s.tpol.auto 6 + flag (!s.twin.up && s.twin.partner.isSome && own != 0) 7 +
  own % 128 * 256 + peer % 128 * 32768 + (8 - min 8 s.hw.twinBinds) * 4194304

def twinReg (off : Nat) (s : State) : Option Nat :=
  let t := s.twin
  let pid (i : Nat) : Nat := ((t.partner.map (·.toNat)).getD 0) / 2 ^ (32 * i) % 2 ^ 32
  match off with
  | 0x000 => some (twinState s)
  | 0x004 => some (flag t.up 0 + flag t.training 1 + min 8 t.lanes * 4)
  | 0x008 => some (t.session % 65536)
  | 0x00C => some (u32 t.msgSeqTx)
  | 0x010 => some (u32 t.mirrorAckRx)
  | 0x014 => some t.replays
  | 0x018 => some t.crcErrors
  | 0x01C => some t.duplicates
  | 0x020 => some ((s.sag.lines.filter (fun l => l.st == .mirror)).length)
  | 0x024 => some s.vault.partner.length
  | 0x028 => some (u32 t.ackLag)
  | 0x02C => some t.linkDowns
  | 0x030 => some (pid 0)
  | 0x034 => some (pid 1)
  | 0x038 => some (pid 2)
  | 0x03C => some (pid 3)
  | _ => none

/-- The RC registers of the twin block cleared by a read. -/
def twinClear (off : Nat) (s : State) : State :=
  s.onTwin fun t => match off with
    | 0x014 => { t with replays := 0 }
    | 0x018 => { t with crcErrors := 0 }
    | 0x01C => { t with duplicates := 0 }
    | 0x02C => { t with linkDowns := 0 }
    | _ => t

end Sys2Proof.Machine
end

