-- ==== Sys2Proof/Machine/TwinMci.lean ====
section
/-! DEFINITION. The twin commands (R231, R262 to R265). -/
namespace Sys2Proof.Machine

/-! ### TWIN_PAIR (R231, R232, R263) -/

/-- PARTNER_ID, MODE, DECLARED_BUDGET. -/
def pairFields (s : State) (m : Mailbox) : Nat × Nat × Nat × Parse :=
  let p := m.parse
  let v := p.raw 0 16
  let id := if v = 0 then (s.twin.bound.map (·.toNat)).getD 0 else v
  let (md, p) := p.enum 2 16 1 [1, 2] 1
  let (b, p) := p.num 3 24 8 { lo := 4096, hi := dirtyCapBytes s, dflt := s.budgetLines * 4096, round := 1, gran := 4096 }
  (id, md, b, p)

/-- The bind is to a partner that is not bound. -/
def newBind (s : State) (id : Nat) : Bool := s.twin.bound != some (BitVec.ofNat 128 id)

/-- Arrays and volumes in service keep to the range of the side that a bind gives (R263, R404). -/
def idsInRange (s : State) (id : Nat) : Bool :=
  let side := sideWith (BitVec.ofNat 128 id)
  s.liveArrays.all (fun a => decide (a.id / 32 = side)) && s.liveVolumes.all (fun v => decide ((v.2.nsid - 1) / 512 = side))

def pairRefuse (s : State) (id : Nat) : Option (Nat × Nat × Nat) :=
  if newBind s id ∧ 8 ≤ s.hw.twinBinds then some (stExhausted, 0, 0) else if ¬ idsInRange s id then some (stConflict, 0, 1) else none

def pairAct (mb : Nat) (m : Mailbox) (s : State) : State :=
  let (id, md, b, _) := pairFields s m
  let t := s.onTwin fun w => { w with bound := some (BitVec.ofNat 128 id), stagedMode := md, declaredBudget := b }
  mciOk mb [] [] (if newBind s id then recordSecurity 4 0 [s.hw.twinBinds + 1] t else t)

/-- The plan of TWIN_PAIR; whether it passes decides the fuse step. -/
def pairPlan (s : State) (m : Mailbox) : Plan :=
  let (id, _, _, p) := pairFields s m
  { p := p, noObject := if id = 0 then some 1 else none, objects := [objTwin], refuse := pairRefuse s id }
def pairRun (mb : Nat) (s : State) : State := mciRun mb 0x0501 s (pairPlan s) (pairAct mb)
/-- One step of the bind counter is consumed when a bind to a new partner was made (R231). -/
def execTwinPair (mb : Nat) (s : State) : Out :=
  let t := pairRun mb s
  doneHw (if t.twin.bound = s.twin.bound then s.hw else { s.hw with twinBinds := s.hw.twinBinds + 1 }) s t

/-! ### TWIN_UNPAIR (R253, R257, R262) -/

/-- Owned arrays become private, the partner's registration removed; the partner's arrays are the partner's. -/
def unpairAct (mb : Nat) (_ : Mailbox) (s : State) : State :=
  let t := s.ownShared.foldl (fun u a => startReserve 6 a (onArray a.id (fun x => { x with shared := false, ana := .optimized, anaNext := none, moving := 0 }) u)) s
  let t := (t.arr.arrays.filter (fun a => a.shared && !a.owner)).foldl (fun u a => removeArray a.id false (leaveArray a 0x301 u)) t
  let t := freeLines (fun l => l.st == .mirror) (t.onVault fun v => { v with partner := [] })
  mciOk mb [] [] (t.onTwin fun w => { w with
    bound := none, partner := none, mode := 0, stagedMode := 0, st := .unpaired, snapshotDue := false, snapshotAcked := false, helloOk := false,
    queueSnap := [], queueRec := [], queueMeta := [], queueLine := [], sent := [], heldTwinSeq := [], ended := [] })
/-- Fields, objects and refusals of the command (steps 5 to 7 of R366). -/
def twinUnpairPlan (_s : State) (m : Mailbox) : Plan :=
  { p := m.parse, objects := [objTwin] }
def execTwinUnpair (mb : Nat) (s : State) : Out :=
  done s (mciRun mb 0x0502 s (twinUnpairPlan s) (unpairAct mb))

/-! ### TWIN_GET_STATUS, TWIN_SET_POLICY (R262, R264) -/

def twinArrayEntry (s : State) (a : Arr) : Bytes :=
  leBytes 2 a.id ++ leBytes 1 (ownerSide s a) ++ leBytes 1 (flag a.shared 0 + flag (a.shared && a.allRequired) 1 + flag (a.body.volumes.any (fun (v : Volume) => v.policy.getLsbD 4)) 2 + flag (a.moving != 0) 3) ++ leBytes 4 0
def twinStatusAct (mb : Nat) (_ : Mailbox) (s : State) : State :=
  mciOk mb (((List.range 16).map (fun i => leBytes 4 ((twinReg (4 * i) s).getD 0))).flatten) ((s.liveArrays.map (twinArrayEntry s)).flatten) s
/-- Fields, objects and refusals of the command (steps 5 to 7 of R366). -/
def twinGetStatusPlan (_s : State) (m : Mailbox) : Plan :=
  { p := m.parse }
def execTwinGetStatus (mb : Nat) (s : State) : Out := done s (mciRun mb 0x0503 s (twinGetStatusPlan s) (twinStatusAct mb))

def twinPolicyFields (m : Mailbox) : TwinPolicy × Parse :=
  let (a, p) := m.parse.enum 1 0 1 [1, 2] 1
  let (l, p) := p.num 2 4 4 { lo := 50, hi := 10000, dflt := 200 }
  let (d, p) := p.num 3 8 4 { lo := 100, hi := 10000, dflt := 500 }
  let (f, p) := p.num 4 12 4 { lo := 25, hi := 1000, dflt := 30 }
  ({ auto := a == 1, lossWait := l, side1Delay := d, fenceWait := f }, p)
/-- Fields, objects and refusals of the command (steps 5 to 7 of R366). -/
def twinSetPolicyPlan (_s : State) (m : Mailbox) : Plan :=
  { p := (twinPolicyFields m).2, objects := [objTwinPolicy] }
def execTwinSetPolicy (mb : Nat) (s : State) : Out :=
  done s (mciRun mb 0x0504 s (twinSetPolicyPlan s)
    (fun m t =>
      let q := (twinPolicyFields m).1
      mciOk mb [] [] (recordConfig 0x0504 (leBytes 1 (if q.auto then 1 else 2) ++ leBytes 3 0 ++ leBytes 4 q.lossWait ++ leBytes 4 q.side1Delay ++ leBytes 4 q.fenceWait)
        { t with tpolNext := q })))

/-! ### TWIN_MOVE_ARRAY, TWIN_SWAP_DRILL (R258, R259, R265) -/

/-- The shared arrays that this side owns and a field names; 0 names all. -/
def movable (s : State) (n : Nat) : List Arr := (s.liveArrays.filter (fun a => a.shared && a.owner)).filter (fun a => n == 0 || a.id + 1 == n)

/-- Why a move is refused: full-state mode, not the owner, not a shared array. -/
def moveRefuse (s : State) (n : Nat) : Option (Nat × Nat × Nat) :=
  if s.twin.mode = 2 then some (stMode, 0, 0)
  else if n = 0 then none
  else match s.namedArray n with
    | some a => match notOwner a with
      | some r => some r
      | none => if a.shared then none else some (stConflict, 0, 1)
    | none => none
/-- A move asked for earlier has not ended (R262). -/
def moveBusy (s : State) (n : Nat) : Bool := (movable s n).any (fun a => a.moving != 0 || a.takeover != 0 || a.moveMb.isSome)
def startMove (mb : Nat) (a : Arr) (s : State) : State := onArray a.id (fun x => { x with moving := 1, moveMb := some mb }) s

def moveFields (s : State) (m : Mailbox) : Nat × Option Nat × Parse :=
  let (n, p) := m.parse.array 1 0
  (n, if n ≠ 0 ∧ (s.namedArray n).isNone then some 1 else none, p)
def moveAct (mb : Nat) (m : Mailbox) (s : State) : State :=
  match movable s (moveFields s m).1 with
  | [] => mciOk mb [] [] s
  | l => l.foldl (fun t a => startMove mb a t) (mciWait mb [] [] s)
/-- Fields, objects and refusals of the command (steps 5 to 7 of R366). -/
def twinMoveArrayPlan (s : State) (m : Mailbox) : Plan :=
  let (n, miss, p) := moveFields s m
  { p := p, noObject := miss, objects := (movable s n).map (fun a => objArray a.id), busy := moveBusy s n, refuse := moveRefuse s n }
def execTwinMoveArray (mb : Nat) (s : State) : Out :=
  done s (mciRun mb 0x0505 s (twinMoveArrayPlan s) (moveAct mb))

/-- ARRAY, VERIFY and HOLD_S; ARRAY 0 takes the lowest array this side owns. -/
def drillFields (s : State) (m : Mailbox) : Nat × Bool × Nat × Parse :=
  let low := ((movable s 0).head?.map (fun a => a.id + 1)).getD 0
  let (n, p) := m.parse.num 1 0 1 { lo := 1, hi := 64, dflt := low }
  let (v, p) := p.enum 2 1 1 [1, 2] 1
  let (h, p) := p.num 3 4 4 { hi := 86400, dflt := 60 }
  (n, v == 1, h, p)

/-- The lines and records that failed the check are sent again, each under its TWIN_SEQ (R246, R259). -/
def resend (a : Arr) (lines records : List Nat) (s : State) : State :=
  let t := ((s.liveRecs a).filter (fun (r : Rec) => records.contains r.twinSeq && r.twinSeq != 0)).foldl (fun u r => sendRecord false r u) s
  ((s.mirrorable a).filter (fun l => lines.contains l.twinSeq && l.twinSeq != 0)).foldl (fun u l => sendLine false a l u) t

/-- The drill: a failed check ends it with TWIN_MIRROR_LATENT before the move. -/
def drillAct (mb : Nat) (lines records : List Nat) (members : Nat) (m : Mailbox) (s : State) : State :=
  let (n, verify, _, _) := drillFields s m
  match movable s n with
  | a :: _ =>
    if verify ∧ (lines ≠ [] ∨ records ≠ [] ∨ members ≠ 0) then
      mciOk mb (drillBytes (if lines = [] ∧ records = [] then 2 else 1) lines.length records.length members 0) [] (raise { source := 0x184 } (resend a lines records s))
    else startMove mb a (mciWait mb [] [] s)
  | [] => mciOk mb (drillBytes 3 0 0 0 0) [] s
/-- Fields, objects and refusals of the command (steps 5 to 7 of R366). -/
def twinSwapDrillPlan (s : State) (m : Mailbox) : Plan :=
  let (n, _, _, p) := drillFields s m
  { p := p, noObject := if (s.namedArray n).isNone then some 1 else none, objects := (movable s n).map (fun a => objArray a.id),
    busy := moveBusy s n, refuse := moveRefuse s n }
def execTwinSwapDrill (mb : Nat) (lines records : List Nat) (members : Nat) (s : State) : Out :=
  done s (mciRun mb 0x0506 s (twinSwapDrillPlan s) (drillAct mb lines records members))

/-! ### TWIN_TAKEOVER (R253, R254, R257, R262) -/

def takeoverFields (s : State) (m : Mailbox) : Option Arr × Bool × Parse :=
  let (n, p) := m.parse.array 1 0
  let (f, p) := p.enum 2 1 1 [1, 2] 1
  (s.namedArray n, f == 2, p)
def takeoverRefuse (s : State) (a : Arr) (force : Bool) : Option (Nat × Nat × Nat) :=
  if a.owner ∨ ¬ a.shared ∨ (¬ force ∧ (s.twin.st = .stoodDown ∨ ¬ a.allRequired)) then some (stConflict, 0, 1) else none
def takeoverAct (mb : Nat) (m : Mailbox) (s : State) : State :=
  match takeoverFields s m with
  | (some a, force, _) =>
    let t := startTakeover a (some mb) (mciWait mb [] [] s)
    if force ∧ ¬ a.allRequired then raise { source := 0x183 } (onArray a.id (fun x => { x with stalePossible := true }) t) else t
  | _ => s
/-- Fields, objects and refusals of the command (steps 5 to 7 of R366). -/
def twinTakeoverPlan (s : State) (m : Mailbox) : Plan :=
  let (a, force, p) := takeoverFields s m
  { p := p, noObject := if a.isNone then some 1 else none, objects := (a.map (fun a => objArray a.id)).toList,
    busy := s.twin.st == .syncing || s.twin.st == .mirroring || (a.map (fun a => a.takeover != 0)).getD false,
    refuse := a.bind (fun a => takeoverRefuse s a force) }
def execTwinTakeover (mb : Nat) (s : State) : Out :=
  done s (mciRun mb 0x0507 s (twinTakeoverPlan s) (takeoverAct mb))

end Sys2Proof.Machine
end

