-- ==== Sys2Proof/Machine/Coil.lean ====
section
/-! DEFINITION. The Coil engine: trust slots and blocks (R274 to R276), associations (R277 to R281), acknowledgement and
retransmission (R283 to R286), and sending within the turn's budgets (R292). -/
namespace Sys2Proof.Machine

/-! ### Trust slots (R274, R276) -/

def Coil.slot (c : Coil) (one : Bool) : TrustSlot := if one then c.slot1 else c.slot0
def onSlot (one : Bool) (f : TrustSlot → TrustSlot) (s : State) : State :=
  s.onCoil fun c => if one then { c with slot1 := f c.slot1 } else { c with slot0 := f c.slot0 }

/-- A block is reserved from a slot's counters in MRAM: epoch and block, none when the slot is exhausted, or while debug is active
(R482). -/
def reserveBlock (one : Bool) (s : State) : Option (Nat × Nat) × State :=
  let t := s.coil.slot one
  if ¬ t.valid ∨ t.exhausted ∨ s.dev.debugActive then (none, s)
  else
    let next : TrustSlot := if t.blockCtr < 0xFFFF then { t with blockCtr := t.blockCtr + 1 }
      else if t.epoch < 0xFFFF then { t with blockCtr := 0, epoch := t.epoch + 1 } else { t with exhausted := true }
    (some (t.epoch, t.blockCtr), onSlot one (fun _ => next) s)

/-- A stateless block of a slot (R276). -/
def reserveStateless (one : Bool) (s : State) : State :=
  match reserveBlock one s with
  | (some (e, b), t) => onSlot one (fun x => { x with statelessEpoch := e, stateless := b, statelessCtr := 0 }) t
  | (none, t) => t

/-! ### Entries (R280) -/

def State.assoc (s : State) (no : Nat) : Option Assoc := s.coil.assocs.find? (fun e => e.no == no)
def onAssoc (no : Nat) (f : Assoc → Assoc) (s : State) : State := s.onCoil fun c => { c with assocs := mapIf c.assocs (fun e => e.no == no) f }

/-- The horizon in turns (R277). -/
def State.hTurns (s : State) : Nat := cdiv (s.coil.cfg.horizonMs * 1000000) s.turnNs

/-- An entry is pinned. -/
def State.pinned (s : State) (e : Assoc) : Bool :=
  decide (s.hw.turn < e.lastRx + s.hTurns) || e.unacked != [] || s.coil.reasm.any (fun r => r.entry == e.no && !r.complete) ||
  e.st == .opening || e.st == .confirming

/-- The entry that a new association takes: a FREE one, or the least recently received unpinned one. -/
def State.freeEntry (s : State) : Option Nat :=
  let used := s.coil.assocs.map (·.no)
  if used.length < 4096 then some (freeTag used used.length 0)
  else ((s.coil.assocs.filter (fun e => !s.pinned e)).foldl (fun (b : Option Assoc) e => match b with
    | none => some e
    | some x => if e.lastRx < x.lastRx then some e else some x) none).map (·.no)

/-- A cleared entry put in its place. -/
def placeAssoc (e : Assoc) (s : State) : State :=
  s.onCoil fun c => { c with assocs := (c.assocs.filter (fun x => x.no != e.no)) ++ [e], reasm := c.reasm.filter (fun r => r.entry != e.no) }

/-- The established association of a node. -/
def State.assocTo (s : State) (node : Nat) : Option Assoc := s.coil.assocs.find? (fun e => e.peer == node && e.st == .established)
/-- The entry of a received packet's triple (R281). -/
def State.assocOf (s : State) (h : CoilHdr) : Option Assoc := s.coil.assocs.find? (fun e => e.peer == h.src && e.peerEpoch == h.epoch && e.peerBlock == h.block && e.st != .opening && (e.st != .confirming || !e.opener))

/-! ### Packets out -/

/-- The port an entry sends on: entry number mod P among the ports in service (R292). -/
def State.portsUp (s : State) : List Nat := (List.range 2).filter (fun p => s.inService (18 + p) && s.coil.linkUp.getLsbD p)
def State.coilPort (s : State) (no : Nat) : Option Nat := if s.portsUp = [] then none else s.portsUp[no % s.portsUp.length]?

/-- Bytes of a packet on the wire: Ethernet, IP, UDP, Coil header, payload and tag (R267 to R270). -/
def State.packetBytes (s : State) (payload : Nat) : Nat := 14 + (if s.coil.cfg.ipv4 then 20 else 40) + 8 + 48 + payload + 16

/-- A packet leaves on the entry's port and is charged there. -/
def coilEmit (e : Assoc) (typ index xmit : Nat) (args : List Nat) (data : Bytes) (s : State) : State :=
  match s.coilPort e.no with
  | none => s
  | some p =>
    emit (.coil e.no typ e.peer index xmit args data)
      (s.onCoil fun c => { c with tx := bump c.tx, spent := nthMod c.spent p (fun x => (x.1 + 1, x.2 + s.packetBytes data.length)) })

/-- A control packet of an entry: its control counter, XMIT 0x8000 (R276). -/
def coilControl (no typ : Nat) (args : List Nat) (s : State) : State :=
  match s.assoc no with
  | none => s
  | some e => coilEmit e typ e.ctrlCtr 0x8000 args [] (onAssoc no (fun x => { x with ctrlCtr := x.ctrlCtr + 1 }) s)

/-- A reply without an entry, from the stateless block of the packet's slot (R276). -/
def coilStateless (h : CoilHdr) (typ : Nat) (args : List Nat) (s : State) : State :=
  let t := s.coil.slot h.keySlot
  let s := emit (.coil 0xFFFF typ h.src t.statelessCtr 0xFFFF args []) (s.onCoil fun c => { c with tx := bump c.tx })
  if t.statelessCtr + 1 < 2 ^ 32 then onSlot h.keySlot (fun x => { x with statelessCtr := x.statelessCtr + 1 }) s else reserveStateless h.keySlot s

/-- Lowest index from the peer not yet received. -/
def Assoc.cum (e : Assoc) : Nat :=
  if ¬ e.anyRx then 0
  else ((List.range 2049).map (fun i => e.highest + 1 - 2048 + i)).find? (fun n => !e.bitmap.contains n) |>.getD (e.highest + 1)

/-- An ACK: ACK_SEQ, ECE and the SACK bits (R272, R283). -/
def sendAck (no : Nat) (s : State) : State :=
  match s.assoc no with
  | none => s
  | some e =>
    let c := e.cum
    coilControl no 5 (c :: flag e.eceOwed 0 :: (e.bitmap.filter (fun n => c < n)).map (fun n => n - (c + 1))) (onAssoc no (fun x => { x with sinceAck := 0, eceOwed := false }) s)

def drop (s : State) : State := s.onCcnt fun c => { c with rxDrops := bump c.rxDrops }

/-! ### Opening (R277 to R279) -/

/-- An association is opened to a node of the directory, from the sending slot. -/
def startOpen (node : Nat) (s : State) : State :=
  if ¬ s.coil.directory.any (fun d => d.1 == node) ∨ s.coil.assocs.any (fun e => e.peer == node && e.opener && (e.st == .opening || e.st == .confirming)) then s
  else match s.freeEntry with
    | none => s
    | some no => match reserveBlock s.coil.txSlot s with
      | (none, t) => t
      | (some (ep, b), t) =>
        let e : Assoc := { no := no, peer := node, slot := t.coil.txSlot, epoch := ep, block := b, lastRx := t.hw.turn }
        coilControl no 1 [b * 2 ^ 32, flag t.coil.cfg.payload8k 3] (placeAssoc e t)

/-- COOKIE of an OPEN for a bucket. -/
def cookieFor (s : State) (src epoch block bucket : Nat) : Nat :=
  (Config.keyed (leBytes 32 s.coil.cookieKey.toNat)
    (beBytes 4 src ++ beBytes 4 s.coil.cfg.nodeId ++ beBytes 2 epoch ++ beBytes 2 block ++ beBytes 4 bucket)).toNat % 2 ^ 64
def State.bucket (s : State) : Nat := u32 (s.hw.turn / max s.hTurns 1)

/-- A packet passes steps 1 to 3 of R281: its port, its header, its slot and its tag. -/
def State.coilPasses (h : CoilHdr) (s : State) : Bool :=
  s.coilPresent h.port && s.coil.linkUp.getLsbD h.port && h.version == 1 && h.dst == s.coil.cfg.nodeId && h.sizeOk &&
  (s.coil.slot h.keySlot).valid && !s.dev.debugActive && h.authentic

/-- What every packet that passes leaves behind: its CE mark counted, its entry heard from (R277, R283). -/
def coilSeen (h : CoilHdr) (s : State) : State :=
  let t := if h.ce then s.onCcnt fun c => { c with ecnMarks := bump c.ecnMarks } else s
  match t.assocOf h with
  | some e => onAssoc e.no (fun x => { x with lastRx := s.hw.turn, eceOwed := x.eceOwed || h.ce }) t
  | none => t

/-- Steps 1 to 3 of R281, common to every packet: what passes goes on. -/
def coilGate (h : CoilHdr) (s : State) (act : State → State) : State :=
  if s.coilPasses h then act (coilSeen h s)
  else if ¬ (s.coilPresent h.port ∧ s.coil.linkUp.getLsbD h.port) then s
  else if h.version ≠ 1 ∨ h.dst ≠ s.coil.cfg.nodeId ∨ ¬ h.sizeOk then drop s
  else if ¬ (s.coil.slot h.keySlot).valid ∨ s.dev.debugActive then s.onCcnt fun c => { c with authFailures := bump c.authFailures }
  else raise { source := 0x1A0 } (s.onCcnt fun c => { c with authFailures := bump c.authFailures })

/-- OPENER_BASE names a block and nothing else (R277). -/
def baseOk (base : Nat) : Bool := base % 2 ^ 32 == 0 && decide (base < 2 ^ 48)

/-- The SEQ of a packet. -/
def coilSeq (h : CoilHdr) : Nat := h.block * 2 ^ 32 + h.index
def sendBusy (h : CoilHdr) (s : State) : State := coilStateless h 6 [1, coilSeq h] (s.onCcnt fun c => { c with busySent := bump c.busySent })

/-- OPEN: nothing is allocated, and a CHALLENGE answers. -/
def openRx (h : CoilHdr) (base : Nat) (s : State) : State :=
  if ¬ baseOk base then drop s
  else if (s.coil.slot h.keySlot).exhausted then s
  else if s.freeEntry = none then sendBusy h s
  else coilStateless h 2 [base, cookieFor s h.src h.epoch (base / 2 ^ 32) s.bucket, flag s.coil.cfg.payload8k 3] s
def execOpenReq (h : CoilHdr) (openerBase : Nat) (s : State) : Out := done s (coilGate h s (openRx h openerBase))

/-- CHALLENGE: the opener confirms with the cookie. -/
def challengeRx (h : CoilHdr) (base cookie : Nat) (s : State) : State :=
  match s.coil.assocs.find? (fun e => e.opener && e.peer == h.src && e.block * 2 ^ 32 == base && (e.st == .opening || e.st == .confirming)) with
  | none => s
  | some e => coilControl e.no 3 [base, cookie, flag s.coil.cfg.payload8k 3]
      (onAssoc e.no (fun x => { x with st := .confirming, cookie := cookie, busy := false, retryUs := 100, lastRx := s.hw.turn }) s)
def execChallenge (h : CoilHdr) (openerBase cookie : Nat) (s : State) : Out := done s (coilGate h s (challengeRx h openerBase cookie))

/-- CONFIRM: an entry is taken; ACCEPT follows at the boundary at which the node's older entries become CLOSED (R278). -/
def confirmRx (h : CoilHdr) (base cookie : Nat) (s : State) : State :=
  let block := base / 2 ^ 32
  if ¬ baseOk base then drop s
  else match s.coil.assocs.find? (fun e => e.peer == h.src && e.peerEpoch == h.epoch && e.peerBlock == block && !e.opener) with
    | some e => if e.st = .established then coilControl e.no 4 [base, e.block * 2 ^ 32, flag s.coil.cfg.payload8k 3] s else s
    | none =>
      let b := s.bucket
      if cookie ≠ cookieFor s h.src h.epoch block b ∧ cookie ≠ cookieFor s h.src h.epoch block (u32 (b + 2 ^ 32 - 1)) then s
      else match s.freeEntry with
        | none => sendBusy h s
        | some no => match reserveBlock h.keySlot s with
          | (none, t) => t
          | (some (ep, own), t) =>
            placeAssoc { no := no, peer := h.src, st := .confirming, opener := false, slot := h.keySlot, epoch := ep, block := own, peerEpoch := h.epoch,
                         peerBlock := block, peerPmax := h.pmax, lastRx := t.hw.turn } t
def execConfirm (h : CoilHdr) (openerBase cookie : Nat) (s : State) : Out := done s (coilGate h s (confirmRx h openerBase cookie))

/-- Commands to a remote node that had timed out have ended: a new association is ESTABLISHED (R278, R293). -/
def remoteEnded (node : Nat) (s : State) : State :=
  (s.arr.cmds.filter (fun c => c.sent && c.timedOut && ((s.ns c.ns).map (fun n => n.loc.remote && n.loc.node == node)).getD false)).foldl (fun t c => timedOutEnded c t) s

/-- ACCEPT: the association is ESTABLISHED. -/
def acceptRx (h : CoilHdr) (openerBase responderBase : Nat) (s : State) : State :=
  match s.coil.assocs.find? (fun e => e.opener && e.st == .confirming && e.peer == h.src && e.block * 2 ^ 32 == openerBase) with
  | none => s
  | some e => remoteEnded h.src (onAssoc e.no (fun x => { x with st := .established, peerEpoch := h.epoch, peerBlock := responderBase / 2 ^ 32, peerPmax := h.pmax, lastRx := s.hw.turn }) s)
def execAccept (h : CoilHdr) (openerBase responderBase : Nat) (s : State) : Out := done s (coilGate h s (acceptRx h openerBase responderBase))

/-- OPEN_RETRY_TIMER: the packet goes again, the interval doubles up to 64 ms. -/
def openRetry (no : Nat) (s : State) : State :=
  match s.assoc no with
  | none => s
  | some e =>
    let t := onAssoc no (fun x => { x with retryUs := min 64000 (2 * x.retryUs) }) s
    if ¬ e.opener ∨ e.busy then s
    else match e.st with
      | .opening => coilControl no 1 [e.block * 2 ^ 32, flag s.coil.cfg.payload8k 3] t
      | .confirming => coilControl no 3 [e.block * 2 ^ 32, e.cookie, flag s.coil.cfg.payload8k 3] t
      | _ => s
def execOpenRetryTimer (entry : Nat) (s : State) : Out := done s (openRetry entry s)

/-- BUSY_BACKOFF_EXPIRED: the handshake restarts at step 1 with the same block (R279). -/
def busyExpired (no : Nat) (s : State) : State :=
  match s.assoc no with
  | some e => if e.busy then coilControl no 1 [e.block * 2 ^ 32, flag s.coil.cfg.payload8k 3] (onAssoc no (fun x => { x with busy := false, st := .opening, retryUs := 100 }) s) else s
  | none => s
def execBusyBackoffExpired (entry : Nat) (s : State) : Out := done s (busyExpired entry s)

/-! ### Closing (R284) -/

/-- Messages of an entry wait again, whole, for a new association. -/
def requeueAll (no : Nat) (s : State) : State :=
  s.onCoil fun c => { c with outbox := mapIf c.outbox (fun m => m.entry == some no) (fun m => { m with entry := none, off := 0, msgId := 0 }) }
/-- An association ends: messages of which nothing has been sent wait again, the others are INDETERMINATE. -/
def endMessages (no : Nat) (s : State) : State :=
  s.onCoil fun c => { c with outbox := mapIf (c.outbox.filter (fun m => m.entry != some no || m.off == 0)) (fun m => m.entry == some no) (fun m => { m with entry := none, msgId := 0 }) }
/-- Unfinished messages of an entry are reported INDETERMINATE and leave. -/
def dropMessages (no : Nat) (s : State) : State := s.onCoil fun c => { c with outbox := c.outbox.filter (fun m => m.entry != some no) }

/-- An entry becomes CLOSED: its incomplete messages are discarded (R287). -/
def closedAssoc (no : Nat) (s : State) : State :=
  (onAssoc no (fun x => { x with st := .closed, unacked := [] }) s).onCoil fun c => { c with reasm := c.reasm.filter (fun r => r.entry != no || r.complete) }

/-- CLOSE goes out with END_SEQ; nothing more is sent on the association. -/
def closeAssoc (no : Nat) (s : State) : State :=
  match s.assoc no with
  | none => s
  | some e => if e.st = .established then onAssoc no (fun x => { x with st := .closing, unacked := [] }) (coilControl no 7 [e.dataCtr] s) else closedAssoc no s

/-- CLOSE ends the association here; CLOSE_ACK echoes END_SEQ. -/
def closeRx (h : CoilHdr) (endSeq : Nat) (s : State) : State :=
  match s.assocOf h with
  | none => s
  | some e => closedAssoc e.no (endMessages e.no (coilControl e.no 8 [endSeq] s))
def execClose (h : CoilHdr) (endSeq : Nat) (s : State) : Out := done s (coilGate h s (closeRx h endSeq))
def closeAckRx (h : CoilHdr) (s : State) : State :=
  match s.assocOf h with
  | some e => if e.st = .closing then closedAssoc e.no s else s
  | none => s
def execCloseAck (h : CoilHdr) (_endSeq : Nat) (s : State) : Out := done s (coilGate h s (closeAckRx h))
def execCloseTimeout (entry : Nat) (s : State) : Out :=
  done s (match s.assoc entry with | some e => if e.st = .closing then closedAssoc entry s else s | none => s)

/-! ### Acknowledgement and retransmission (R283, R284, R286) -/

/-- A packet is sent again with its transmission count raised. -/
def resendPacket (no : Nat) (u : Unacked) (s : State) : State :=
  match s.assoc no with
  | none => s
  | some e =>
    let v := { u with xmit := u.xmit + 1 }
    let t := (onAssoc no (fun x => { x with unacked := mapIf x.unacked (fun y => y.index == u.index) (fun _ => v) }) s).onCoil fun c => { c with retransmits := bump c.retransmits }
    coilEmit e v.typ v.index v.xmit [v.msgId, v.msgLen, v.offset, v.tag, e.cum] v.data t

/-- W after `n` newly acknowledged packets. -/
def growWindow : Nat → Nat → Assoc → Assoc
  | 0, _, e => e
  | k + 1, lim, e =>
    if lim ≤ e.wNum then { e with wNum := lim, wFrac := 0 }
    else growWindow k lim (if e.wNum ≤ e.wFrac + 1 then { e with wNum := e.wNum + 1, wFrac := 0 } else { e with wFrac := e.wFrac + 1 })

/-- An ECE flag halves W, at most once per window. -/
def halveWindow (acked : Nat) (e : Assoc) : Assoc :=
  if e.halvedAt ≤ acked then { e with wNum := max 1 (e.wNum / 2), wFrac := 0, halvedAt := e.dataCtr } else e

/-- Messages whose last packet is acknowledged are done. -/
def sweepOutbox (no : Nat) (s : State) : State :=
  match s.assoc no with
  | none => s
  | some e => s.onCoil fun c => { c with outbox := c.outbox.filter (fun m =>
      !(m.entry == some no && decide (m.data.length ≤ m.off) && m.off != 0 && !e.unacked.any (fun u => u.msgId == m.msgId))) }

/-- RTO after a measurement, which only packets sent with XMIT 0 give. The spec gives no smoothing, so the new srtt and rttvar are
free values (R284; log entry 60). -/
def measureRtt (no : Nat) (new : List Unacked) (s : State) : State :=
  if new.any (fun u => u.xmit == 0) then
    let sr := freeNat 32 s
    let va := freeNat 32 (tookFree s)
    onAssoc no (fun x => { x with srtt := sr, rttvar := va, rto := max 20 (sr + 4 * va) }) (tookFree (tookFree s))
  else s

/-- An acknowledgement: everything below ACK_SEQ and every SACK bit; what it shows missing below three received goes again. -/
def acked (no ackIndex : Nat) (sack : List Nat) (ece : Bool) (s : State) : State :=
  match s.assoc no with
  | none => s
  | some e =>
    let got (u : Unacked) : Bool := decide (u.index < ackIndex) || sack.any (fun i => u.index == ackIndex + 1 + i)
    let new := e.unacked.filter got
    let t := onAssoc no (fun x => growWindow new.length s.coil.cfg.windowMax { x with unacked := x.unacked.filter (fun u => !got u) }) s
    let t := measureRtt no new (if ece then onAssoc no (halveWindow ackIndex) t else t)
    let lost := (e.unacked.filter (fun u => !got u)).filter (fun u => u.xmit == 0 && decide (3 ≤ (sack.filter (fun i => u.index < ackIndex + 1 + i)).length))
    sweepOutbox no (lost.foldl (fun v u => resendPacket no u v) t)

def ackRx (h : CoilHdr) (sack : List Nat) (s : State) : State :=
  match s.assocOf h with
  | some e => if e.st = .established ∨ e.st = .closing then acked e.no h.ackIndex sack h.ece s else s
  | none => s
def execAck (h : CoilHdr) (sack : List Nat) (s : State) : Out := done s (coilGate h s (ackRx h sack))

/-- ACK_TIMER: 16 µs after a data packet that is not acknowledged yet. -/
def execAckTimer (entry : Nat) (s : State) : Out :=
  done s (match s.assoc entry with | some e => if e.sinceAck ≠ 0 ∧ e.st = .established then sendAck entry s else s | none => s)

/-- RTO_EXPIRED: the packet goes again and W becomes 1. -/
def rtoExpired (no index : Nat) (s : State) : State :=
  match s.assoc no with
  | none => s
  | some e => match e.unacked.find? (fun u => u.index == index) with
    | none => s
    | some u => resendPacket no u (onAssoc no (fun x => { x with wNum := 1, wFrac := 0, rto := min (s.coil.cfg.horizonMs * 125) (2 * x.rto) }) s)
def execRtoExpired (entry index : Nat) (s : State) : Out := done s (rtoExpired entry index s)

/-- Members of a node become UNAVAILABLE (R193, R293). -/
def remoteLost (node : Nat) (s : State) : State := makeUnavailable (fun n => n.loc.remote && n.loc.node == node) 6 s

/-- GIVE_UP: the association closes, its unfinished messages are INDETERMINATE, and members behind it become UNAVAILABLE. -/
def giveUp (no index : Nat) (s : State) : State :=
  match s.assoc no with
  | none => s
  | some e =>
    if ¬ e.unacked.any (fun u => u.index == index) then s
    else
      let t := raise { source := 0x1A1 } ((closeAssoc no (dropMessages no s)).onCcnt fun c => { c with giveUps := bump c.giveUps })
      remoteLost e.peer t
def execGiveUp (entry index : Nat) (s : State) : Out := done s (giveUp entry index s)

/-- Commands outstanding to a node. -/
def State.remoteBusy (s : State) (node : Nat) : Bool :=
  s.arr.cmds.any (fun c => c.sent && ((s.ns c.ns).map (fun n => n.loc.remote && n.loc.node == node)).getD false)
/-- REMOTE_KEEPALIVE_TIMER (R293). -/
def execRemoteKeepaliveTimer (node : Nat) (s : State) : Out :=
  done s (if s.remoteBusy node then (match s.assocTo node with | some e => sendAck e.no s | none => s) else s)
/-- REMOTE_SILENCE_TIMEOUT: members of the node become UNAVAILABLE, and a new association is to end their commands (R278, R293). -/
def remoteSilence (node : Nat) (s : State) : State :=
  let t := match s.assocTo node with | some e => closeAssoc e.no (endMessages e.no s) | none => s
  startOpen node (remoteLost node t)
def execRemoteSilenceTimeout (node : Nat) (s : State) : Out := done s (if s.remoteBusy node then remoteSilence node s else s)

/-- NAK (R272, R279, R281, R284, R291): BUSY backs off; STALE sends the message again, whole, on a new association; the others
end the message. -/
def nakRx (h : CoilHdr) (reason ref : Nat) (s : State) : State :=
  if reason = 1 then
    match s.coil.assocs.find? (fun e => e.opener && e.peer == h.src && (e.st == .opening || e.st == .confirming)) with
    | some e => onAssoc e.no (fun x => { x with busy := true, st := .opening, busyUs := if x.busyUs = 0 then 1000 else min 64000 (2 * x.busyUs) }) s
    | none => s
  else match s.coil.assocs.find? (fun e => e.peer == h.src && e.unacked.any (fun u => u.index == ref % 2 ^ 32) && e.block == ref / 2 ^ 32) with
    | none => s
    | some e =>
      if reason = 2 then closedAssoc e.no (requeueAll e.no s)
      else
        let ids := (e.unacked.filter (fun u => u.index == ref % 2 ^ 32)).map (·.msgId)
        (onAssoc e.no (fun x => { x with unacked := x.unacked.filter (fun u => !ids.contains u.msgId) }) s).onCoil
          fun c => { c with outbox := c.outbox.filter (fun m => !(m.entry == some e.no && ids.contains m.msgId)) }
def execNak (h : CoilHdr) (reason refIndex : Nat) (s : State) : Out := done s (coilGate h s (nakRx h reason refIndex))

/-! ### Other packets and ports (R266, R267, R292) -/

/-- NON_COIL_PACKET: 1 ARP, 2 Neighbor Discovery and 3 ICMP echo are answered; any other is dropped. -/
def execNonCoilPacket (kind port : Nat) (s : State) : Out :=
  done s (if s.coilPresent port ∧ s.coil.linkUp.getLsbD port ∧ 1 ≤ kind ∧ kind ≤ 3 then emit (.netReply port kind) s else s)
/-- PAUSE_FRAME: discarded and counted. -/
def execPauseFrame (port : Nat) (s : State) : Out := done s (if s.coilPresent port ∧ s.coil.linkUp.getLsbD port then drop s else s)
/-- COIL_PORT_LINK_DOWN. -/
def execCoilPortLinkDown (port : Nat) (s : State) : Out := done s (if s.coilPresent port ∧ s.coil.linkUp.getLsbD port then retrainCoil port s else s)

/-! ### Sending messages (R286, R287, R292) -/

/-- Packets and bytes of a port in a turn (R30). -/
def State.coilPackets (s : State) : Nat := 64 * s.turnNs / 1024
def State.coilBytes (s : State) : Nat := 51200 * s.turnNs / 1024
/-- A packet of `n` payload bytes fits what is left of the port's turn. -/
def State.coilRoom (s : State) (no n : Nat) : Bool :=
  match s.coilPort no with
  | none => false
  | some p => let (k, b) := nth s.coil.spent p (0, 0); decide (k < s.coilPackets) && decide (b + s.packetBytes n ≤ s.coilBytes)

/-- Payload bytes of a packet towards a peer (R269). -/
def State.payloadMax (s : State) (e : Assoc) : Nat := if s.coil.cfg.payload8k && e.peerPmax then 8192 else 4096

/-- The next packets of one message, while the window and the port's turn have room. -/
def sendPackets (no : Nat) : Nat → OutMsg → State → OutMsg × State
  | 0, m, s => (m, s)
  | k + 1, m, s => match s.assoc no with
    | none => (m, s)
    | some e =>
      let d := (m.data.drop m.off).take (s.payloadMax e)
      if m.data.length ≤ m.off ∨ e.wNum ≤ e.unacked.length ∨ 2 ^ 32 ≤ e.dataCtr + 1 ∨ ¬ s.coilRoom no d.length then (m, s)
      else
        let u : Unacked := { index := e.dataCtr, firstTurn := s.hw.turn, msgId := m.msgId, typ := m.typ, offset := m.off, msgLen := m.data.length, tag := m.tag, data := d }
        let t := coilEmit e m.typ u.index 0 [m.msgId, u.msgLen, u.offset, u.tag, e.cum] d (onAssoc no (fun x => { x with dataCtr := x.dataCtr + 1, unacked := x.unacked ++ [u], sinceAck := 0 }) s)
        sendPackets no k { m with off := m.off + d.length } t

/-- One message goes on: on the association it has, or on its node's, which is opened where there is none. -/
def sendMessage (m : OutMsg) (s : State) : State :=
  let keep (m : OutMsg) (t : State) : State := t.onCoil fun c => { c with outbox := c.outbox ++ [m] }
  match m.entry with
  | some no => let (m, t) := sendPackets no 64 m s; keep m t
  | none => match s.assocTo m.node with
    | some e =>
      let (m, t) := sendPackets e.no 64 { m with entry := some e.no, msgId := e.msgCtr } (onAssoc e.no (fun x => { x with msgCtr := x.msgCtr + 1 }) s)
      keep m t
    | none => keep m (startOpen m.node s)

/-- New packets of a planning window, entries by the seat of the turn (R38, R39, R292). -/
def sendCoil (s : State) : State :=
  let seat := s.planTurn % 4096
  let now (m : OutMsg) : Bool := match m.entry with | some n => decide (seat ≤ n) | none => true
  let l := s.coil.outbox.filter now ++ s.coil.outbox.filter (fun m => !now m)
  l.foldl (fun t m => sendMessage m t) (s.onCoil fun c => { c with outbox := [] })

end Sys2Proof.Machine
end

