-- ==== Sys2Proof/Machine/MemberDone.lean ====
section
/-! DEFINITION. The end of a member command (R76, R107, R112, R143, R197, R199, R293): its job goes on. -/
namespace Sys2Proof.Machine

/-- The latency of a Read or Write, by MEMBER_UID (R496). -/
def memberLatency (c : MCmd) (s : State) : State :=
  let us := (s.hw.turn - c.turn) * s.turnNs / 1000
  let uid := ((s.ns c.ns).map (fun n => n.ident.uid % 2 ^ 64)).getD 0
  match c.op with
  | .read => sample 0x0102 uid 1 us s
  | .write => sample 0x0102 uid 2 us s
  | _ => s

/-- The 16-byte completion entry of a served command: NVMe status 0, 0x281 unrecovered read error, 0x006, 0x007 (R293). -/
def servedCqe (cid : Nat) (st : MStatus) : Bytes :=
  let status := match st with | .ok => 0 | .unreadable => 0x281 | .failed => 0x006 | .aborted => 0x007
  leBytes 12 0 ++ leBytes 2 cid ++ leBytes 2 (status * 2)
/-- A command served for a remote node has ended: the answer goes back under the request's tag plus 2^48 (R293). -/
def servedCmdDone (j : Job) (c : MCmd) (st : MStatus) (data : List RawSector) (s : State) : State :=
  let bytes := if c.op = .read ∧ st = .ok then data.flatMap (fun x => padTo 4096 x.data ++ x.tag) else []
  endJob j.id (coilQueue j.sqid 9 (j.intentGen + 2 ^ 48) (servedCqe j.cid st ++ bytes) s)

/-- The job that a command served goes on with its result. -/
def jobCmdDone (j : Job) (c : MCmd) (st : MStatus) (data : List RawSector) (s : State) : State :=
  let ok := st == .ok
  match j.kind with
  | .mark => markCmdDone j c ok s
  | .ring => ringCmdDone j c ok s
  | .zero => zeroCmdDone j c ok s
  | .adopt => adoptCmdDone j c ok s
  | .release => releaseCmdDone j c ok s
  | .snapshot => snapshotCmdDone j c ok s
  | .dump => dumpCmdDone j c ok s
  | .headers => headersCmdDone j c ok s
  | .testWrite => testCmdDone j c s
  | .reserve => reserveCmdDone j c ok s
  | .served => servedCmdDone j c st data s
  | .fullClose | .partialClose | .repair | .hostRead | .rebuild | .mend | .scrub _ | .direct | .copyback | .migrate | .resync =>
    if c.op = .read ∧ c.step = 0 then roleRead j c st data s else jobWrite j c st data s

/-- A sent command has ended. A timed-out one has been aborted, or completes late (R197, R199); a Write of a 4096+0 member goes
on with its tags (R112). -/
def memberDone (id : Nat) (st : MStatus) (data : List RawSector) (s : State) : State :=
  match s.mcmd id with
  | none => s
  | some c =>
    if ¬ c.sent then s
    else if c.timedOut then (if st = .aborted then abortDone c s else lateCompletion c s)
    else
      let t := dropCmd id (memberLatency c s)
      if c.discard ∨ c.job = 0 then t
      else match t.job c.job with
        | none => t
        | some j => match (if st = .ok then tagStep c data t else none) with
          | some u => u
          | none => jobCmdDone j c st data t
def execMemberCommandComplete (mcid : Nat) (st : MStatus) (data : List RawSector) (s : State) : Out := done s (memberDone mcid st data s)

end Sys2Proof.Machine
end

