-- ==== Sys2Proof/Machine/CoilRx.lean ====
section
/-! DEFINITION. Coil receive side: the checks of sequenced packets (R281, R282), reassembly and matching (R287, R288), completion
entries (R289), exposed regions (R291), served commands (R293), remote mirror streams (R294), and what the boundary does. -/
namespace Sys2Proof.Machine

/-! ### Checks of a sequenced packet (R281) -/

/-- NAK STALE, at most one per source node per 64 turns. -/
def refuseStale (h : CoilHdr) (s : State) : State :=
  let t := s.onCcnt fun c => { c with staleRefused := bump c.staleRefused }
  let recent : Bool := match lookup s.ccnt.staleNaks h.src with | some n => decide (s.hw.turn < n + 64) | none => false
  if recent then t else coilStateless h 6 [2, coilSeq h] (t.onCcnt fun c => { c with staleNaks := insert h.src s.hw.turn c.staleNaks })

/-- A duplicate is not delivered, and an ACK is sent at once. -/
def duplicateRx (e : Assoc) (s : State) : State := sendAck e.no (s.onCoil fun c => { c with duplicates := bump c.duplicates })

/-- The bitmap bit of a packet is set. An ACK goes at once when it is out of order or CE-marked, and after every eight (R283). -/
def takeIndex (h : CoilHdr) (e : Assoc) (s : State) : State :=
  let hi := if e.anyRx then max e.highest h.index else h.index
  let t := onAssoc e.no (fun x => { x with highest := hi, anyRx := true, bitmap := (addOnce h.index x.bitmap).filter (fun n => hi < n + 2048), sinceAck := x.sinceAck + 1 }) s
  if h.index ≠ e.cum ∨ h.ce ∨ 8 ≤ e.sinceAck + 1 then sendAck e.no t else t

/-- The receive buffer of a port, in bytes (R292). -/
def rxLimit : Nat := 8 * 2 ^ 20

/-- Steps 5 to 8. `deliver` answers none to drop the packet, and whether it was delivered. -/
def seqRx (h : CoilHdr) (data : Bytes) (deliver : Assoc → State → Option Bool × State) (s : State) : State :=
  match s.assocOf h with
  | none => refuseStale h s
  | some e =>
    if e.st ≠ .established then (if e.st = .closed ∧ e.bitmap.contains h.index then duplicateRx e s else refuseStale h s)
    else
      let s := acked e.no h.ackIndex [] h.ece s
      if (if e.anyRx then e.highest + 1024 else 1023) < h.index then drop s
      else if (e.anyRx ∧ h.index + 2048 ≤ e.highest) ∨ e.bitmap.contains h.index then duplicateRx e s
      else if rxLimit < nth s.coil.rxBuffer h.port 0 + data.length then drop s
      else match deliver e s with
        | (none, t) => drop t
        | (some false, t) => takeIndex h e t
        | (some true, t) => takeIndex h e (t.onCoil fun c => { c with rx := bump c.rx, rxBuffer := nthMod c.rxBuffer h.port (· + data.length) })

/-! ### Reassembly (R287) -/

/-- OFFSET is a multiple of 4,096 and the packet carries whole granules, but for the one that ends the message. -/
def granulesOk (h : CoilHdr) (data : Bytes) : Bool :=
  h.offset % 4096 == 0 && data.length != 0 && decide (h.msgLen ≤ 2 ^ 24) && decide (h.offset + data.length ≤ h.msgLen) &&
  (data.length % 4096 == 0 || h.offset + data.length == h.msgLen)

def State.context (s : State) (no id : Nat) : Option Reasm := s.coil.reasm.find? (fun r => r.entry == no && r.msgId == id && !r.complete)
def onContext (no id : Nat) (f : Reasm → Reasm) (s : State) : State :=
  s.onCoil fun c => { c with reasm := mapIf c.reasm (fun r => r.entry == no && r.msgId == id) f }

/-- The region of a key (R290). -/
def State.region (s : State) (key : Nat) : Option Region := s.coil.regions.find? (fun r => r.live && r.idx == key / 2 ^ 22 && r.gen == key % 2 ^ 22)

/-- Staging address of an offset in a region: the segment in force, the region, and the page and offset of the message (R291). -/
def regionAddr (s : State) (r : Region) (page off : Nat) : Nat := (segAt s.pw.active r.seg).off + r.off + page * 4096 + off

/-- A packet's bytes go where its message goes. -/
def placeBytes (r : Reasm) (off : Nat) (data : Bytes) (s : State) : State :=
  match r.dest with
  | .posted _ seg o len => stagingWrite ((segAt s.pw.active seg).off + o + off) (data.take (len - off)) s
  | .region i => match s.coil.regions.find? (fun x => x.idx == i) with
    | some x => stagingWrite (regionAddr s x (r.tag % 2 ^ 32) off) data s
    | none => s
  | .readBuffer a => stagingWrite (a + off) data s
  | .unexpected | .service => onContext r.entry r.msgId (fun x => { x with bytes := x.bytes ++ [(off, data)] }) s

/-- The bytes of a message kept whole. -/
def Reasm.whole (r : Reasm) : Bytes := r.bytes.foldl (fun b x => putBytes b x.1 x.2) []
def Reasm.full (r : Reasm) : Bool := decide (cdiv r.msgLen 4096 ≤ r.granules.length)

/-! ### The completion ring (R289) -/

/-- Staging address of the entry the ring writes next, none while its segment is not there. -/
def State.ringSlot (s : State) : Option Nat :=
  let e := segAt s.pw.active s.coil.cfg.ringSegment
  if e.valid ∧ (s.coil.ringIdx + 1) * 32 ≤ e.pages * 4096 then some (e.off + s.coil.ringIdx * 32) else none

/-- One completion entry, after its data, then the vector. -/
def ringEntry (postId tag src len status : Nat) (at_ : Nat) (s : State) : State :=
  let ph := s.coil.ringPhase
  let t := stagingWrite at_ (leBytes 8 postId ++ leBytes 8 tag ++ leBytes 4 src ++ leBytes 4 len ++ leBytes 1 status ++ leBytes 1 (flag ph 0) ++ leBytes 6 0) s
  let wrap := s.coil.cfg.ringEntries ≤ s.coil.ringIdx + 1
  signal s.coil.cfg.vector (emit (.coilRing postId tag src len status ph)
    (t.onCoil fun c => { c with ringIdx := if wrap then 0 else c.ringIdx + 1, ringPhase := if wrap then !ph else ph }))

/-- A message whose completion waits. WRITE_NOTIFY has no POST_ID of its own, so it is left open. -/
def coilPost (r : Reasm) (s : State) : State :=
  match s.ringSlot with
  | none => s.onCoil fun c => { c with reasm := c.reasm ++ [r] }
  | some a => match r.dest with
    | .posted id _ _ len => ringEntry id r.tag r.src r.msgLen (if len < r.msgLen then 1 else 0) a s
    | _ => tookFree (ringEntry (freeNat 64 s) r.tag r.src r.msgLen 2 a s)

/-- A complete message that waits for the ring. -/
def Reasm.waits (r : Reasm) : Bool := r.complete && match r.dest with | .posted .. => true | .region _ => true | _ => false
/-- Waiting completions are written in order. -/
def postWaiting (s : State) : State :=
  (s.coil.reasm.filter Reasm.waits).foldl (fun t r => coilPost r t) (s.onCoil fun c => { c with reasm := c.reasm.filter (fun r => !r.waits) })

/-! ### Remote members and mirror streams (R293, R294) -/

/-- The operation of a submission entry's opcode. -/
def opOf : Nat → MOp
  | 0x01 => .write | 0x02 => .read | 0x08 => .writeZeroes | 0x09 => .deallocate | 0x80 => .format | 0x11 => .reservationAcquire
  | 0x15 => .reservationRelease | 0x0E => .reservationReport | 0x0D => .reservationRegister | o => .other o

/-- `n` sectors of equal size from the data of a command. -/
def sectorsOf (n : Nat) (b : Bytes) : List RawSector :=
  let z := b.length / max n 1
  (List.range n).map (fun i => { data := trimZeros ((b.drop (i * z)).take (min z 4096)), tag := ((b.drop (i * z)).take z).drop 4096 })

/-- A request of a remote node: the command goes to the drive of its export; one that names none ends with Invalid Namespace. -/
def serveCommand (src tag : Nat) (m : Bytes) (s : State) : State :=
  let cid := field m 2 2
  match lookup s.coil.exports (tag / 2 ^ 32 % 2 ^ 16) with
  | none => coilQueue src 9 (tag + 2 ^ 48) (leBytes 12 0 ++ leBytes 2 cid ++ leBytes 2 (0x00B * 2)) s
  | some ns =>
    let op := opOf (field m 0 1)
    let n := field m 48 2 + 1
    addCmd { ns := ns, op := op, lba := field m 40 8, count := n, fua := bit (field m 48 4) 30, job := s.arr.nextJob, role := src, data := if op = .write then sectorsOf n (m.drop 64) else [] }
      (addJob { kind := .served, sqid := src, cid := cid, intentGen := tag, ns := [ns] } s)

/-- An answer of a server: the member command ends with the status of its completion entry. -/
def answerCommand (tag : Nat) (m : Bytes) (s : State) : State :=
  let id := tag % 2 ^ 32
  let code := field m 14 2 / 2 % 2 ^ 11
  let st : MStatus := if code = 0 then .ok else if code = 0x281 then .unreadable else if code = 0x007 then .aborted else .failed
  memberDone id st (match s.mcmd id with | some c => if c.op = .read then sectorsOf c.count (m.drop 16) else [] | none => []) s

/-- The TWIN_SEQ values that a mirror message carries: of its records, or its own. -/
def mirrorSeqs (m : Bytes) : List Nat :=
  if field m 0 1 = 2 then (List.range ((m.length - 32) / 64)).map (fun i => field m (32 + 64 * i + 40) 8) else [leNat ((m.drop 16).take 8).reverse]

/-- F moves up over what is held. -/
def advanceF : Nat → Nat → List Nat → Nat × List Nat
  | 0, f, l => (f, l)
  | k + 1, f, l => if l.contains f then advanceF k (f + 1) (l.filter (· != f)) else (f, l)

/-- A mirror message on its stream: items not held yet are taken; an older stream of the other side takes nothing more. -/
def mirrorItem (m : Bytes) (s : State) : State :=
  let key := leNat ((m.drop 8).take 8).reverse
  let side := field m 1 1
  let l := s.coil.streams
  let latest := (l.filter (fun x => x.1 == key)).getLast?
  let known := l.any (fun x => x.1 == key && x.2.1 == side)
  let closed : Bool := known && match latest with | some x => x.2.1 != side | none => false
  if closed then s
  else
    let l := if known then l else l ++ [(key, side, 1, [])]
    s.onCoil fun c => { c with streams := mapIf l (fun x => x.1 == key && x.2.1 == side) (fun x =>
      let (f, h) := (mirrorSeqs m).foldl (fun (p : Nat × List Nat) q => if q < p.1 ∨ p.1 + 65536 < q then p else (p.1, addOnce q p.2)) (x.2.2.1, x.2.2.2)
      let (f, h) := advanceF h.length f h
      (x.1, x.2.1, f, h)) }

/-- A whole message under a service tag: bits 62:48 are 0 for a request, 1 for an answer, and more for a mirror message. -/
def serviceMessage (src tag : Nat) (m : Bytes) (s : State) : State :=
  match tag / 2 ^ 48 % 2 ^ 15 with
  | 0 => serveCommand src tag m s
  | 1 => answerCommand tag m s
  | _ => mirrorItem m s

/-! ### A message goes on, and completes -/

/-- A context whose granules are all present is complete: it is freed, and what it brought takes effect. -/
def completeContext (no id : Nat) (s : State) : State :=
  match s.context no id with
  | none => s
  | some r =>
    if ¬ r.full then s
    else
      let t := s.onCoil fun c => { c with reasm := c.reasm.filter (fun x => !(x.entry == no && x.msgId == id && !x.complete)) }
      match r.dest with
      | .posted .. => coilPost { r with complete := true } t
      | .region _ => if r.notify then coilPost { r with complete := true } t else t
      | .unexpected => onContext no id (fun x => { x with complete := true }) s
      | .readBuffer a => t.onCoil fun c => { c with reads := c.reads.filter (fun x => x.2.2 != a) }
      | .service => serviceMessage r.src r.tag r.whole t

/-- A packet of a message whose context exists or has just been opened. -/
def contextPacket (h : CoilHdr) (r : Reasm) (data : Bytes) (s : State) : Option Bool × State :=
  if r.msgLen ≠ h.msgLen ∨ r.tag ≠ h.tag then (none, s)
  else
    let gs := (List.range (cdiv data.length 4096)).map (fun i => h.offset / 4096 + i)
    let t := onContext r.entry r.msgId (fun x => { x with granules := gs.foldl (fun l g => addOnce g l) x.granules, notify := x.notify || h.notify }) s
    (some true, completeContext r.entry r.msgId (placeBytes r h.offset data t))

/-- The first packet of a message opens a context with its destination, where one is free. -/
def openContext (h : CoilHdr) (e : Assoc) (dest : CoilDest) (data : Bytes) (s : State) : Option Bool × State :=
  if 4096 ≤ (s.coil.reasm.filter (fun r => !r.complete)).length then (none, s)
  else
    let r : Reasm := { entry := e.no, msgId := h.msgId, msgLen := h.msgLen, tag := h.tag, src := h.src, dest := dest }
    contextPacket h r data (s.onCoil fun c => { c with reasm := c.reasm ++ [r] })

/-! ### SEND (R288) -/

/-- A posted buffer whose segment is in force and holds it. -/
def State.postedOk (s : State) (p : Posted) : Bool := (segAt s.pw.active p.seg).valid && decide (p.off + p.len ≤ (segAt s.pw.active p.seg).pages * 4096)
def Posted.takes (p : Posted) (tag : Nat) : Bool := tag &&& p.mask == p.tag &&& p.mask
/-- Bytes held in the unexpected area. -/
def State.unexpectedUsed (s : State) : Nat := total ((s.coil.reasm.filter (fun r => r.dest == .unexpected)).map (·.msgLen))

def sendDeliver (h : CoilHdr) (data : Bytes) (e : Assoc) (s : State) : Option Bool × State :=
  if ¬ granulesOk h data then (none, s)
  else match s.context e.no h.msgId with
    | some r => contextPacket h r data s
    | none =>
      if h.tag.testBit 63 then openContext h e .service data s
      else match s.coil.posted.find? (fun p => p.takes h.tag && s.postedOk p) with
        | some p => openContext h e (.posted p.postId p.seg p.off p.len) data (s.onCoil fun c => { c with posted := c.posted.erase p })
        | none =>
          if s.coil.cfg.unexpectedMib * 2 ^ 20 < s.unexpectedUsed + h.msgLen then (none, raise { source := 0x1A2 } s)
          else openContext h e .unexpected data s
def execSend (h : CoilHdr) (data : Bytes) (s : State) : Out := done s (coilGate h s (seqRx h data (sendDeliver h data)))

/-! ### WRITE, READ_REQ, READ_RESP (R291, R320) -/

/-- The NAK that a packet for a region receives, or the region: 3 NO_REGION, 4 ACCESS, 5 BOUNDS. -/
def regionCheck (h : CoilHdr) (write : Bool) (s : State) : Except Nat Region :=
  match s.region (h.tag / 2 ^ 32 % 2 ^ 32) with
  | none => .error 3
  | some r =>
    let g := segAt s.pw.active r.seg
    let last := h.tag % 2 ^ 32 * 4096 + h.msgLen
    if (r.node ≠ 0 ∧ r.node ≠ h.src) ∨ ¬ (if write then r.write else r.read) then .error 4
    else if r.len < last ∨ ¬ g.valid ∨ g.pages * 4096 < r.off + last then .error 5
    else .ok r

/-- A packet refused at its region: a NAK, and nothing delivered. -/
def regionNak (h : CoilHdr) (e : Assoc) (reason : Nat) (s : State) : Option Bool × State := (some false, coilControl e.no 6 [reason, coilSeq h] s)

def writeDeliver (h : CoilHdr) (data : Bytes) (e : Assoc) (s : State) : Option Bool × State :=
  if ¬ granulesOk h data then (none, s)
  else match regionCheck h true s with
    | .error n => regionNak h e n s
    | .ok r => match s.context e.no h.msgId with
      | some c => contextPacket h c data s
      | none => openContext h e (.region r.idx) data s
def execCoilWrite (h : CoilHdr) (data : Bytes) (s : State) : Out := done s (coilGate h s (seqRx h data (writeDeliver h data)))

/-- READ_REQ is answered with a READ_RESP message of MSG_LEN bytes, with the request's MSG_ID as its tag. -/
def readDeliver (h : CoilHdr) (e : Assoc) (s : State) : Option Bool × State :=
  match regionCheck h false s with
  | .error n => regionNak h e n s
  | .ok r => (some true, coilQueue h.src 12 (h.msgId % 2 ^ 32) (stagingBytes s (regionAddr s r (h.tag % 2 ^ 32) 0) h.msgLen) s)
def execReadReq (h : CoilHdr) (s : State) : Out := done s (coilGate h s (seqRx h [] (readDeliver h)))

/-- READ_RESP goes to the local buffer recorded when the request was issued; without one it has no context. -/
def respDeliver (h : CoilHdr) (data : Bytes) (e : Assoc) (s : State) : Option Bool × State :=
  if ¬ granulesOk h data then (none, s)
  else match s.context e.no h.msgId, s.coil.reads.find? (fun x => x.1 == e.no && x.2.1 == h.tag % 2 ^ 32) with
    | some r, _ => contextPacket h r data s
    | none, some x => openContext h e (.readBuffer x.2.2) data s
    | none, none => (none, s)
def execReadResp (h : CoilHdr) (data : Bytes) (s : State) : Out := done s (coilGate h s (seqRx h data (respDeliver h data)))

/-! ### The turn boundary (R278, R290, R292, R297) -/

/-- Commands of a remote node that have not ended at their drives (R278). -/
def State.serving (s : State) (node : Nat) : Bool := s.arr.cmds.any (fun c => c.role == node && s.coil.exports.any (fun x => x.2 == c.ns))

/-- An association that ends here. -/
def endAssoc (no : Nat) (s : State) : State := closeAssoc no (endMessages no s)

/-- A responder's entry: the node's older entries become CLOSED, and ACCEPT goes out once their commands have ended. -/
def acceptStep (e : Assoc) (s : State) : State :=
  let old := s.coil.assocs.filter (fun x => x.peer == e.peer && x.no != e.no && (x.st == .established || x.st == .closing))
  let t := old.foldl (fun u x => closedAssoc x.no (endMessages x.no u)) s
  if t.serving e.peer then t
  else coilControl e.no 4 [e.peerBlock * 2 ^ 32, e.block * 2 ^ 32, flag s.coil.cfg.payload8k 3] (onAssoc e.no (fun x => { x with st := .established }) t)

/-- Configuration that takes effect at the boundary, all but fields 1 to 4 and 8 (R297). -/
def coilCfgBoundary (s : State) : State :=
  let c := s.coil.cfg
  let n : CoilCfg := { s.coil.cfgNext with nodeId := c.nodeId, udpPort := c.udpPort, ipv4 := c.ipv4, payload8k := c.payload8k, unexpectedMib := c.unexpectedMib }
  let t := s.onCoil fun x => { x with cfg := n, directory := x.directoryNext.getD x.directory, directoryNext := none }
  let ring := if n.ringSegment = c.ringSegment ∧ n.ringEntries = c.ringEntries then t else t.onCoil fun x => { x with ringIdx := 0, ringPhase := true }
  if n.horizonMs = c.horizonMs ∧ n.addr0 = c.addr0 ∧ n.addr1 = c.addr1 then ring
  else (s.coil.assocs.map (·.no)).foldl (fun u no => endAssoc no u) ring

/-- Regions whose deregistration was asked for leave; one at the last generation is retired (R290). -/
def regionBoundary (r : Region) : Region := if r.leaving then { r with live := false, leaving := false, retired := r.gen == 0x3FFFFF } else r

/-- What a turn boundary does to the Coil engine. -/
def coilBoundary (s : State) : State :=
  let t := coilCfgBoundary s
  let t := t.onCoil fun c => { c with
    regions := (c.regions.map regionBoundary).map (fun r => if c.txChanged ∧ r.retired then { r with gen := 0, retired := false } else r)
    txChanged := false, spent := [(0, 0), (0, 0)] }
  let t := (t.coil.assocs.filter (fun e => e.st == .confirming && !e.opener)).foldl (fun u e => acceptStep e u) t
  let t := (t.coil.assocs.filter (fun e => e.st == .established && (decide (2 ^ 32 ≤ e.dataCtr + 1) || decide (2 ^ 32 ≤ e.ctrlCtr + 8)))).foldl (fun u e => endAssoc e.no u) t
  postWaiting t

/-- Bytes of the receive buffers move to the saggar, granule by granule, as far as `room` granules go (R292). -/
def drainRx (room : Nat) (s : State) : Nat × State :=
  let a := cdiv (nth s.coil.rxBuffer 0 0) 4096
  let b := cdiv (nth s.coil.rxBuffer 1 0) 4096
  let x := min a room
  let y := min b (room - x)
  (x + y, s.onCoil fun c => { c with rxBuffer := [nth c.rxBuffer 0 0 - x * 4096, nth c.rxBuffer 1 0 - y * 4096] })

end Sys2Proof.Machine
end

