-- ==== Sys2Proof/Machine/CoilMci.lean ====
section
/-! DEFINITION. Coil registers and commands (R2, R295 to R299). -/
namespace Sys2Proof.Machine

/-! ### Registers (R295) -/

/-- The port carries traffic. -/
def State.coilState (s : State) : Nat :=
  s.coil.linkUp.toNat + flag (s.inService 18) 2 + flag (s.inService 19) 3 + flag s.coil.slot0.valid 4 + flag s.coil.slot1.valid 5 + flag s.coil.txSlot 6 +
  flag (s.coil.slot s.coil.txSlot).exhausted 7

/-- The Coil register at an offset. -/
def coilReg (off : Nat) (s : State) : Option Nat :=
  let c := s.coil
  let n := s.ccnt
  match off with
  | 0x000 => some s.coilState
  | 0x004 => some c.cfg.nodeId
  | 0x008 => some ((c.slot c.txSlot).epoch + (c.slot c.txSlot).blockCtr * 2 ^ 16)
  | 0x00C => some c.assocs.length
  | 0x010 => some (c.assocs.filter s.pinned).length
  | 0x014 => some c.tx
  | 0x018 => some c.rx
  | 0x01C => some c.retransmits
  | 0x020 => some c.duplicates
  | 0x024 => some n.staleRefused
  | 0x028 => some n.authFailures
  | 0x02C => some n.busySent
  | 0x030 => some n.giveUps
  | 0x034 => some n.ecnMarks
  | 0x038 => some n.rxDrops
  | 0x03C => some s.unexpectedUsed
  | _ => none

/-- The RC registers cleared by a read. -/
def coilClear (off : Nat) (s : State) : State :=
  match off with
  | 0x014 => s.onCoil fun c => { c with tx := 0 }
  | 0x018 => s.onCoil fun c => { c with rx := 0 }
  | 0x01C => s.onCoil fun c => { c with retransmits := 0 }
  | 0x020 => s.onCoil fun c => { c with duplicates := 0 }
  | 0x024 => s.onCcnt fun n => { n with staleRefused := 0 }
  | 0x028 => s.onCcnt fun n => { n with authFailures := 0 }
  | 0x02C => s.onCcnt fun n => { n with busySent := 0 }
  | 0x030 => s.onCcnt fun n => { n with giveUps := 0 }
  | 0x034 => s.onCcnt fun n => { n with ecnMarks := 0 }
  | 0x038 => s.onCcnt fun n => { n with rxDrops := 0 }
  | _ => s

/-! ### The commands -/

/-- On a device without a Coil port a Coil command names no object (R2). -/
def coilPlan (s : State) (plan : Mailbox → Plan) (m : Mailbox) : Plan :=
  if s.coilPresent 0 ∨ s.coilPresent 1 then plan m else { p := m.parse, noObject := some 0 }
/-- A Coil command. -/
def coilRun (i op : Nat) (s : State) (plan : Mailbox → Plan) (act : Mailbox → State → State) : State :=
  mciRun i op s (coilPlan s plan) act

/-- An association entry of COIL_GET_STATUS (R296): states 1 to 5 in the order of R280. -/
def assocBytes (s : State) (e : Assoc) : Bytes :=
  let st := match e.st with | .opening => 1 | .confirming => 2 | .established => 3 | .closing => 4 | .closed => 5
  padTo 32 (leBytes 2 e.no ++ leBytes 1 st ++ leBytes 1 0 ++ leBytes 4 e.peer ++ leBytes 4 e.wNum ++ leBytes 4 e.unacked.length ++ leBytes 8 (s.hw.turn - e.lastRx))
def coilStatusAct (mb : Nat) (_ : Mailbox) (s : State) : State :=
  mciOk mb (((List.range 16).map (fun i => leBytes 4 ((coilReg (4 * i) s).getD 0))).flatten) ((s.coil.assocs.map (assocBytes s)).flatten) s
/-- Fields, objects and refusals of the command (steps 5 to 7 of R366). -/
def coilGetStatusPlan (_s : State) (m : Mailbox) : Plan :=
  { p := m.parse }
def execCoilGetStatus (mb : Nat) (s : State) : Out := done s (coilRun mb 0x0601 s (coilGetStatusPlan s) (coilStatusAct mb))

/-- A prefix length: 1 to 128, or 1 to 32 on IPv4. -/
def prefixNum (v4 : Bool) : Num := { lo := 1, hi := if v4 then 32 else 128, dflt := if v4 then 24 else 64, depHi := v4 }
/-- The fields of COIL_CONFIG in field order (R297). -/
def coilCfgFields (s : State) (m : Mailbox) : CoilCfg × Parse :=
  let c := s.coil.cfg
  let (f1, p) := m.parse.num 1 0 4 { lo := 1, hi := 0xFFFFFFFE, dflt := c.nodeId }
  let (f2, p) := p.num 2 4 2 { lo := 1024, hi := 65535, dflt := 44590 }
  let (f3, p) := p.enum 3 6 1 [1, 2] 1
  let (f4, p) := p.enum 4 7 1 [1, 2] 1
  let (f5, p) := p.num 5 8 2 { lo := 10, hi := 1000, dflt := 100 }
  let (f6, p) := p.num 6 10 2 { lo := 16, hi := 1024, dflt := 1024 }
  let (f7, p) := p.num 7 12 1 { hi := 63, dflt := 0 }
  let (f8, p) := p.num 8 13 1 { lo := 1, hi := 64, dflt := 16 }
  let (f9, p) := p.num 9 14 2 { lo := 1, hi := 4095, dflt := 4095 }
  let (f10, p) := p.num 10 16 2 { hi := 255, dflt := 255 }
  let (f11, p) := p.num 11 18 2 { lo := 64, hi := 4096, dflt := 1024, round := 3 }
  let (f12, p) := p.num 12 20 2 { hi := 2047, dflt := 0 }
  let a0 := leNat (p.raws 32 16 (leBytes 16 c.addr0))
  let (p0, p) := p.num 14 48 1 (prefixNum (f3 == 2))
  let g0 := leNat (p.raws 64 16 (leBytes 16 c.gw0))
  let a1 := leNat (p.raws 80 16 (leBytes 16 c.addr1))
  let (p1, p) := p.num 17 96 1 (prefixNum (f3 == 2))
  let g1 := leNat (p.raws 112 16 (leBytes 16 c.gw1))
  ({ nodeId := f1, udpPort := f2, ipv4 := f3 == 2, payload8k := f4 == 2, horizonMs := f5, windowMax := f6, dscp := f7, unexpectedMib := f8, vlan := f9,
     ringSegment := f10, ringEntries := f11, vector := f12, addr0 := a0, prefix0 := p0, gw0 := g0, addr1 := a1, prefix1 := p1, gw1 := g1 }, p)
/-- Bytes 0 to 47 of the applied parameters (R492). -/
def coilCfgBytes (c : CoilCfg) : Bytes :=
  leBytes 4 c.nodeId ++ leBytes 2 c.udpPort ++ leBytes 1 (if c.ipv4 then 2 else 1) ++ leBytes 1 (if c.payload8k then 2 else 1) ++ leBytes 2 c.horizonMs ++
  leBytes 2 c.windowMax ++ leBytes 1 c.dscp ++ leBytes 1 c.unexpectedMib ++ leBytes 2 c.vlan ++ leBytes 2 c.ringSegment ++ leBytes 2 c.ringEntries ++
  leBytes 2 c.vector ++ leBytes 10 0 ++ leBytes 16 c.addr0
/-- The VALID entries of a node directory: node and address. -/
def directoryOf (b : Bytes) : List (Nat × Nat) :=
  ((List.range (min 1024 (b.length / 24))).filter (fun i => bit (field b (24 * i + 4) 4) 0)).map (fun i => (field b (24 * i) 4, field b (24 * i + 8) 16))
def coilConfigAct (mb : Nat) (m : Mailbox) (s : State) : State :=
  let c := (coilCfgFields s m).1
  let t := s.onCoil fun x => { x with cfgNext := c, directoryNext := if m.payload = [] then x.directoryNext else some (directoryOf m.payload) }
  mciOk mb [] [] (recordConfig 0x0602 (coilCfgBytes c) t)
/-- Fields, objects and refusals of the command (steps 5 to 7 of R366). -/
def coilConfigPlan (s : State) (m : Mailbox) : Plan :=
  { p := (coilCfgFields s m).2, objects := [objCoil], refuse := s.unlessDecommissioned none }
def execCoilConfig (mb : Nat) (s : State) : Out :=
  done s (coilRun mb 0x0602 s (coilConfigPlan s) (coilConfigAct mb))

/-! ### COIL_SET_TRUST (R274, R276, R298) -/

/-- SLOT is slot 1; ACTION; SECRET. -/
def trustFields (m : Mailbox) : Bool × Nat × Bytes × Parse :=
  let (x, p) := m.parse.enum 1 0 1 [1, 2] 1
  let (a, p) := p.enum 2 1 1 [1, 2, 3] 2
  (x == 2, a, slice p.bytes 32 32, p)
/-- The fingerprint of a secret (R276). -/
def fingerprintOf (secret : Bytes) : Nat := (Config.keyed secret (ascii "coil" ++ ascii "fingerprint")).toNat % 2 ^ 64
/-- Every association under a slot closes. -/
def closeSlot (one : Bool) (s : State) : State :=
  ((s.coil.assocs.filter (fun e => e.slot == one && e.st != .closed)).map (·.no)).foldl (fun t no => endAssoc no t) s
def trustAct (mb : Nat) (m : Mailbox) (s : State) : State :=
  let (one, a, secret, _) := trustFields m
  match a with
  | 1 =>
    let fp := fingerprintOf secret
    let new : TrustSlot := { valid := true, secret := BitVec.ofNat 256 (leNat secret) }
    let t := reserveStateless one (onSlot one (fun _ => new) (closeSlot one s))
    let t := t.onCoil fun c => { c with fingerprints := (c.fingerprints ++ [fp]).drop (c.fingerprints.length - 63) }
    mciOk mb [] [] (recordSecurity 5 0 [t.hw.epoch, t.hw.svFloor, t.hw.debugUnlocks, t.hw.twinBinds] (t.onSec fun x => { x with trustInstalls := bump x.trustInstalls }))
  | 3 => mciOk mb [] [] (onSlot one (fun _ => {}) (closeSlot one s))
  | _ => mciOk mb [] [] (s.onCoil fun c => { c with txSlot := one, txChanged := c.txChanged || c.txSlot != one })
/-- Fields, objects and refusals of the command (steps 5 to 7 of R366). -/
def coilSetTrustPlan (s : State) (m : Mailbox) : Plan :=
  let (one, a, secret, p) := trustFields m
  { p := p, objects := [objKeyStore], busy := a != 2 && one == s.coil.txSlot,
    refuse := if a = 1 ∧ s.coil.fingerprints.contains (fingerprintOf secret) then some (stConflict, 0, 1) else none }
def execCoilSetTrust (mb : Nat) (s : State) : Out :=
  done s (coilRun mb 0x0603 s (coilSetTrustPlan s) (trustAct mb))

/-! ### Regions (R290, R299) -/

/-- SEGMENT, PERMS, NODE, OFFSET and LENGTH. -/
def regionFields (s : State) (m : Mailbox) : Nat × Nat × Nat × Nat × Nat × Parse :=
  let (g, p) := m.parse.num 1 0 2 { hi := 255 }
  let size := (segAt s.pw.active g).pages * 4096
  let (q, p) := p.enum 2 2 1 [1, 2, 3] 1
  let (n, p) := p.forced 3 4 4 (fun v => if v = 0xFFFFFFFF then 0 else v)
  let (o, p) := p.num 4 8 8 { hi := size - 4096, round := 1, gran := 4096, depHi := true }
  let (l, p) := p.num 5 16 8 { lo := 4096, hi := min (2 ^ 34) (size - o), dflt := min (2 ^ 34) (size - o), round := 1, gran := 4096, depHi := decide (size - o < 2 ^ 34) }
  (g, q, n, o, l, p)
def State.regionAt (s : State) (i : Nat) : Region := (s.coil.regions.find? (fun r => r.idx == i)).getD { idx := i }
/-- The free index with the lowest generation, lowest index first (R290). -/
def State.freeRegion (s : State) : Option Region :=
  (((List.range 1024).map s.regionAt).filter (fun r => !r.live && !r.retired)).foldl (fun (b : Option Region) r => match b with
    | none => some r
    | some x => if r.gen < x.gen then some r else some x) none
def State.liveRegions (s : State) : Nat := (s.coil.regions.filter (·.live)).length
def regionAct (mb : Nat) (m : Mailbox) (s : State) : State :=
  let (g, q, n, o, l, _) := regionFields s m
  match s.freeRegion with
  | none => s
  | some r =>
    let x : Region := { idx := r.idx, live := true, gen := r.gen + 1, seg := g, off := o, len := l, read := q % 2 == 1, write := q / 2 == 1, node := n }
    mciOk mb (leBytes 4 (x.idx * 2 ^ 22 + x.gen)) [] (s.onCoil fun c => { c with regions := c.regions.filter (fun y => y.idx != x.idx) ++ [x] })
/-- Fields, objects and refusals of the command (steps 5 to 7 of R366). -/
def coilRegionRegisterPlan (s : State) (m : Mailbox) : Plan :=
  let (g, _, _, _, _, p) := regionFields s m
  { p := p, noObject := if (segAt s.pw.active g).valid then none else some 1, objects := [objRegions], busy := decide (1024 ≤ s.liveRegions),
    refuse := if s.freeRegion = none then some (stExhausted, 0, 0) else none }
def execCoilRegionRegister (mb : Nat) (s : State) : Out :=
  done s (coilRun mb 0x0604 s (coilRegionRegisterPlan s) (regionAct mb))

def deregisterAct (mb : Nat) (m : Mailbox) (s : State) : State :=
  let key := m.parse.raw 0 4
  mciOk mb [] [] (s.onCoil fun c => { c with regions := mapIf c.regions (fun r => r.live && r.idx == key / 2 ^ 22) (fun r => { r with leaving := true }) })
/-- Fields, objects and refusals of the command (steps 5 to 7 of R366). -/
def coilRegionDeregisterPlan (s : State) (m : Mailbox) : Plan :=
  { p := m.parse, noObject := if (s.region (m.parse.raw 0 4)).isNone then some 1 else none, objects := [objRegions] }
def execCoilRegionDeregister (mb : Nat) (s : State) : Out :=
  done s (coilRun mb 0x0605 s (coilRegionDeregisterPlan s) (deregisterAct mb))

/-! ### COIL_RECV_POST (R288, R299) -/

/-- Entry i of the payload, and the changes of its service bits. -/
def postedAt (b : Bytes) (i : Nat) : Posted :=
  let o := 48 * i
  { postId := field b o 8, tag := field b (o + 8) 8 % 2 ^ 63, mask := 2 ^ 63 + field b (o + 16) 8 % 2 ^ 63, seg := field b (o + 24) 2, off := field b (o + 32) 8, len := field b (o + 40) 8 }
def postedNotes (b : Bytes) (p : Parse) (i : Nat) : Parse :=
  let x := postedAt b i
  let t := field b (48 * i + 8) 8
  let k := field b (48 * i + 16) 8
  let p := if t = x.tag then p else p.note 2 (64 + 128 + i * 256) t x.tag
  if k = x.mask then p else p.note 3 (64 + 128 + i * 256) k x.mask
def postedCount (m : Mailbox) : Nat := min 256 (m.payload.length / 48)

/-- One receive: the first unexpected message that it matches moves to its buffer, else it waits. -/
def postReceive (x : Posted) (s : State) : State :=
  match (if s.postedOk x then s.coil.reasm.find? (fun r => r.dest == .unexpected && x.takes r.tag) else none) with
  | none => s.onCoil fun c => { c with posted := c.posted ++ [x] }
  | some r =>
    let q : Reasm := { r with dest := .posted x.postId x.seg x.off x.len, bytes := [] }
    let t := s.onCoil fun c => { c with reasm := mapIf c.reasm (fun y => y.entry == r.entry && y.msgId == r.msgId && y.dest == .unexpected) (fun _ => q) }
    postWaiting (r.bytes.foldl (fun u b => placeBytes q b.1 b.2 u) t)
def recvPostAct (mb : Nat) (m : Mailbox) (s : State) : State :=
  mciOk mb [] [] ((List.range (postedCount m)).foldl (fun t i => postReceive (postedAt m.payload i) t) s)
/-- Fields, objects and refusals of the command (steps 5 to 7 of R366). -/
def coilRecvPostPlan (_s : State) (m : Mailbox) : Plan :=
  { p := (List.range (postedCount m)).foldl (postedNotes m.payload) m.parse }
def execCoilRecvPost (mb : Nat) (s : State) : Out :=
  done s (coilRun mb 0x0606 s (coilRecvPostPlan s) (recvPostAct mb))

/-! ### COIL_EXPORT_MEMBER (R293, R299) -/

/-- The namespace that the port and the namespace ID name, or the field that names nothing that can be exported. -/
def exportTarget (s : State) (m : Mailbox) : Except Nat Ns :=
  let p := m.parse.raw 0 2
  let n := m.parse.raw 4 4
  if ¬ s.portExists p then .error 1
  else match s.arr.ns.find? (fun x => !x.loc.remote && x.loc.port == p && x.loc.nsid == n) with
    | none => .error 2
    | some x => if x.adopted then .error 2 else .ok x
def exportMemberAct (mb : Nat) (m : Mailbox) (s : State) : State :=
  match exportTarget s m with
  | .error _ => s
  | .ok x =>
    let id := x.exported.getD (freeTag (s.coil.exports.map (·.1)) 48 1)
    mciOk mb (leBytes 2 id) [] (onNs x.id (fun y => { y with exported := some id }) (s.onCoil fun c => { c with exports := insert id x.id c.exports }))
/-- Fields, objects and refusals of the command (steps 5 to 7 of R366). -/
def coilExportMemberPlan (s : State) (m : Mailbox) : Plan :=
  match exportTarget s m with
    | .error f => { p := m.parse, noObject := some f }
    | .ok x => { p := m.parse, objects := [objNs x.id], refuse := if x.exported = none ∧ 48 ≤ s.coil.exports.length then some (stExhausted, 0, 0) else none }
def execCoilExportMember (mb : Nat) (s : State) : Out :=
  done s (coilRun mb 0x0607 s (coilExportMemberPlan s) (exportMemberAct mb))

end Sys2Proof.Machine
end

