-- ==== Sys2Proof/Machine/Security.lean ====
section
/-! DEFINITION. The security island's commands and records: ownership, policy and debug (R456, R458, R478 to R483), Firing Records
and quotes (R468 to R473, R484, R485), and firmware slots (R461 to R463, R474 to R476, R486 to R488). -/
namespace Sys2Proof.Machine

/-! ### Whether a command takes effect -/

/-- The fuse counters, as a step's happening carries them (R458, R492). -/
def Hw.counters (h : Hw) : List Nat := [h.epoch, h.svFloor, h.debugUnlocks, h.twinBinds]
/-- The policy of a new owner (R479). -/
def newPolicy : OwnerPolicy := { requireCosig := false, liveActivation := true, recoveryHost := true, debugAllowed := true }
/-- SHA-256 of the owner's public key, zero when there is none. -/
def State.ownerDigest (s : State) : BitVec 256 := if s.sec.ownerAlg = 0 then 0 else Config.sha256 s.ownerKeyBytes
/-- Both Coil trust slots become invalid, and associations under them close. -/
def wipeTrust (s : State) : State := onSlot true (fun _ => {}) (onSlot false (fun _ => {}) (closeSlot true (closeSlot false s)))

/-! ### OWNERSHIP_GET, OWNERSHIP_CLAIM, OWNERSHIP_TRANSFER (R478 to R480) -/

def policyBits (p : OwnerPolicy) : Nat := flag p.requireCosig 0 + flag p.liveActivation 1 + flag p.recoveryHost 2 + flag p.debugAllowed 3
def ownershipBytes (s : State) : Bytes :=
  leBytes 1 s.hw.lifecycle.code ++ leBytes 1 s.hw.epoch ++ leBytes 1 s.hw.svFloor ++ leBytes 1 ((15 - s.hw.epoch) + (4 - s.hw.debugUnlocks) * 16) ++
  leBytes 1 (8 - s.hw.twinBinds) ++ leBytes 1 s.sec.ownerAlg ++ leBytes 1 (policyBits s.sec.policy) ++ leBytes 1 0 ++ leBytes 8 s.mci.counter ++
  leBytes 32 s.ownerDigest.toNat ++ padTo 64 s.ownerKeyBytes
/-- Fields, objects and refusals of the command (steps 5 to 7 of R366). -/
def ownershipGetPlan (_s : State) (m : Mailbox) : Plan :=
  { p := m.parse }
def execOwnershipGet (mb : Nat) (s : State) : Out := done s (mciRun mb 0x0701 s (ownershipGetPlan s) (fun _ t => mciOk mb (ownershipBytes t) [] t))

/-- ALG and NEW_KEY. -/
def keyFields (m : Mailbox) : Nat × BitVec 512 × Parse :=
  let (a, p) := m.parse.enum 1 0 1 [1, 2] 1
  (a, BitVec.ofNat 512 (leNat (slice p.bytes 8 (keySize a))), p)
def claimPlan (s : State) (m : Mailbox) : Plan :=
  { p := (keyFields m).2.2, objects := [objOwnership], refuse := if s.hw.lifecycle = .provisioned then none else some (stConflict, 0, 1) }
def claimHw (h : Hw) : Hw := { h with lifecycle := .owned, epoch := h.epoch + 1 }
def claimAct (mb : Nat) (m : Mailbox) (s : State) : State :=
  let (a, k, _) := keyFields m
  let t := (s.onSec fun x => { x with ownerAlg := a, ownerKey := k, policy := newPolicy }).onMci fun c => { c with counter := 0 }
  mciOk mb [] [] (recordSecurity 1 0 (claimHw s.hw).counters t)
/-- OWNERSHIP_CLAIM (R456, R479). -/
def execOwnershipClaim (mb : Nat) (s : State) : Out :=
  doneHw (if planRuns mb 0x0702 s (claimPlan s) then claimHw s.hw else s.hw) s (mciRun mb 0x0702 s (claimPlan s) (claimAct mb))

/-- ALG, NEW_KEY and WIPE. -/
def transferFields (m : Mailbox) : Nat × BitVec 512 × Bool × Parse :=
  let (a, k, p) := keyFields m
  let (w, p) := p.enum 3 72 1 [1, 2] 1
  (a, k, w == 2, p)
/-- PROOF is a signature by the new key over "RLTKXFER", DEVICE_ID and the new epoch. -/
def proofOk (s : State) (m : Mailbox) : Bool :=
  let (a, k, _, _) := transferFields m
  Config.verifies (leBytes (keySize a) k.toNat) (ascii "RLTKXFER" ++ deviceIdBytes ++ leBytes 4 (s.hw.epoch + 1)) (slice m.payload 0 (sigSize a))
def transferPlan (s : State) (m : Mailbox) : Plan :=
  { p := (transferFields m).2.2.2, objects := [objOwnership]
    refuse := if s.hw.lifecycle ≠ .owned then some (stConflict, 0, 1) else if ¬ proofOk s m then some (stConflict, 0, 2)
      else if 15 ≤ s.hw.epoch then some (stExhausted, 0, 0) else none }
def transferHw (h : Hw) : Hw := { h with epoch := h.epoch + 1 }
def transferAct (mb : Nat) (m : Mailbox) (s : State) : State :=
  let (a, k, wipe, _) := transferFields m
  let t := if wipe then (wipeTrust s).onSec fun x => { x with policy := newPolicy } else s
  let t := (t.onSec fun x => { x with ownerAlg := a, ownerKey := k }).onMci fun c => { c with counter := 0 }
  mciOk mb [] [] (recordSecurity 1 0 (transferHw s.hw).counters t)
/-- OWNERSHIP_TRANSFER (R480). -/
def execOwnershipTransfer (mb : Nat) (s : State) : Out :=
  doneHw (if planRuns mb 0x0703 s (transferPlan s) then transferHw s.hw else s.hw) s (mciRun mb 0x0703 s (transferPlan s) (transferAct mb))

/-! ### POLICY_SET, DEBUG_UNLOCK, DECOMMISSION (R481 to R483) -/

/-- An ON or OFF field whose code for ON is `on`, the value in force by default. -/
def onOff (id off on : Nat) (now : Bool) (p : Parse) : Bool × Parse :=
  let (v, p) := p.enum id off 1 [1, 2] (if now then on else 3 - on)
  (v == on, p)
/-- The policy and the floor of POLICY_SET. -/
def policyFields (s : State) (m : Mailbox) : OwnerPolicy × Nat × Parse :=
  let q := s.sec.policy
  let (c, p) := onOff 1 0 2 q.requireCosig m.parse
  let (l, p) := onOff 2 1 1 q.liveActivation p
  let (r, p) := onOff 3 2 1 q.recoveryHost p
  let (d, p) := onOff 4 3 1 q.debugAllowed p
  let (f, p) := p.num 5 4 1 { lo := s.hw.svFloor, hi := max s.hw.svFloor s.sec.running.secVersion, dflt := s.hw.svFloor, depHi := true }
  ({ requireCosig := c, liveActivation := l, recoveryHost := r, debugAllowed := d }, f, p)
/-- The booted manifest carries a co-signature that verifies under the owner key. -/
def State.cosigned (s : State) (m : Manifest) : Bool := s.sec.ownerAlg != 0 && m.cosigAlg == s.sec.ownerAlg && m.cosigOk
def policyPlan (s : State) (m : Mailbox) : Plan :=
  let (q, _, p) := policyFields s m
  { p := p, objects := [objOwnership], refuse := if q.requireCosig ∧ ¬ s.cosigned s.sec.running then some (stConflict, 0, 1) else none }
/-- The floor rises one step at a time, to 255 at most; each step is recorded (R458). -/
def policyHwOf (s : State) (m : Mailbox) : Hw := { s.hw with svFloor := max s.hw.svFloor (min 255 (policyFields s m).2.1) }
def policyAct (mb : Nat) (m : Mailbox) (s : State) : State :=
  let (q, f, _) := policyFields s m
  let h := policyHwOf s m
  let t := (List.range (h.svFloor - s.hw.svFloor)).foldl (fun u i => recordSecurity 2 0 { s.hw with svFloor := s.hw.svFloor + i + 1 }.counters u) (s.onSec fun x => { x with policy := q })
  let on (b : Bool) : Bytes := leBytes 1 (if b then 1 else 2)
  mciOk mb [] [] (recordConfig 0x0704 (on (!q.requireCosig) ++ on q.liveActivation ++ on q.recoveryHost ++ on q.debugAllowed ++ leBytes 1 f ++ leBytes 3 0)
    (recordSecurity 7 0 h.counters t))
/-- POLICY_SET (R481). -/
def execPolicySet (mb : Nat) (s : State) : Out :=
  doneHw (if planRuns mb 0x0704 s (policyPlan s) then policyHwOf s (s.mb mb) else s.hw) s (mciRun mb 0x0704 s (policyPlan s) (policyAct mb))

def debugPlan (s : State) (m : Mailbox) : Plan :=
  { p := m.parse, objects := [objOwnership]
    refuse := if ¬ s.sec.policy.debugAllowed ∨ s.hw.lifecycle ≠ .owned then some (stConflict, 0, 1) else if 4 ≤ s.hw.debugUnlocks then some (stExhausted, 0, 0) else none }
def debugHw (h : Hw) : Hw := { h with debugUnlocks := h.debugUnlocks + 1 }
/-- DEBUG_UNLOCK: JTAG debug opens for the next boot (R482). -/
def execDebugUnlock (mb : Nat) (s : State) : Out :=
  doneHw (if planRuns mb 0x0705 s (debugPlan s) then debugHw s.hw else s.hw) s
    (mciRun mb 0x0705 s (debugPlan s) (fun _ t => mciOk mb [] [] (recordSecurity 3 0 (debugHw s.hw).counters (t.onSec fun x => { x with debugNext := true }))))

def decommissionPlan (s : State) (m : Mailbox) : Plan :=
  { p := m.parse, objects := [objOwnership]
    refuse := if m.parse.raw 0 16 ≠ Config.deviceId.toNat then some (stConflict, 0, 1) else if s.liveArrays ≠ [] then some (stConflict, 0, 2)
      else if s.vault.status ≠ .idle then some (stConflict, 0, 3) else if s.twin.bound ≠ none then some (stConflict, 0, 4) else none }
def decommissionHw (h : Hw) : Hw := { h with lifecycle := .decommissioned }
def decommissionAct (mb : Nat) (_ : Mailbox) (s : State) : State :=
  let t := (wipeTrust s).onSec fun x => { x with ownerAlg := 0, ownerKey := 0, recordDue := x.recordDue ++ [64] }
  mciOk mb [] [] (recordSecurity 9 0 s.hw.counters t)
/-- DECOMMISSION (R483). -/
def execDecommission (mb : Nat) (s : State) : Out :=
  doneHw (if planRuns mb 0x0706 s (decommissionPlan s) then decommissionHw s.hw else s.hw) s (mciRun mb 0x0706 s (decommissionPlan s) (decommissionAct mb))

/-! ### Firing Records (R468 to R471, R484) -/

/-- The signed body of a record (R468). -/
def fireBody (r : FireRec) : Bytes :=
  let dig (i : Nat) : Bytes := leBytes 32 (nth r.manifest.digests i 0).toNat
  padTo 512 (ascii "RLTKFIRE" ++ leBytes 2 1 ++ leBytes 1 r.life.code ++ leBytes 1 r.slot ++ leBytes 1 r.epoch ++ leBytes 1 r.svFloor ++
    leBytes 1 r.debugUnlocks ++ leBytes 1 r.twinBinds ++ deviceIdBytes ++ leBytes 4 r.powerCycle ++ leBytes 4 r.opMinutes ++ leBytes 8 r.seq ++
    leBytes 4 0x7480B101 ++ leBytes 2 r.clears ++ leBytes 2 r.flags ++ leBytes 2 r.attempts ++ leBytes 2 (min 65535 r.trustInstalls) ++ leBytes 4 0 ++
    leBytes 4 r.manifest.fwVersion ++ leBytes 4 r.manifest.microcode ++ leBytes 1 r.manifest.secVersion ++ leBytes 7 0 ++
    leBytes 32 (Config.sha256 r.manifest.raw).toNat ++ dig 0 ++ dig 1 ++ dig 2 ++ dig 3 ++ dig 4 ++ leBytes 32 r.config.toNat ++
    leBytes 32 (Config.fuseDigest r.life.code r.epoch r.svFloor r.debugUnlocks r.twinBinds).toNat ++ leBytes 32 r.nonce.toNat ++ leBytes 32 r.prev.toNat ++
    leBytes 32 r.ownerDigest.toNat)
/-- A whole record: the body and its signature. -/
def fireBytes (r : FireRec) : Bytes := fireBody r ++ padTo 17088 (Config.signs (fireBody r))

/-- The slot that a record names: 0 A, 1 B, 2 RECOVERY. -/
def State.bootSlot (s : State) : Nat := if s.sec.fromRecovery then 2 else flag s.sec.bootedB 0
/-- FLAGS of a record of a kind (R469). -/
def State.fireFlags (s : State) (kind : Nat) : Nat :=
  flag s.dev.debugActive 0 + flag (s.cosigned s.sec.running) 1 + flag s.dev.trial 3 + flag s.sec.fallback 4 + flag s.sec.nonce.isSome 5 + flag s.hw.straps.recovery 7 + kind
/-- The record that is signed now. -/
def State.nextRecord (s : State) (kind : Nat) : FireRec where
  seq := s.sec.recordSeq + 1
  life := s.hw.lifecycle
  slot := s.bootSlot
  epoch := s.hw.epoch
  svFloor := s.hw.svFloor
  debugUnlocks := s.hw.debugUnlocks
  twinBinds := s.hw.twinBinds
  powerCycle := s.hw.powerCycle
  opMinutes := s.hw.opMinutes
  clears := s.klog.clears.length
  flags := s.fireFlags kind
  attempts := s.sec.bootAttempts
  trustInstalls := s.sec.trustInstalls
  manifest := s.sec.running
  config := s.sec.configDigest
  nonce := s.sec.nonce.getD 0
  ownerDigest := s.ownerDigest
  prev := match s.sec.records.getLast? with | some r => Config.sha256 (fireBytes r) | none => 0
/-- FIRING_RECORD_SIGNED: the record enters the ring of 256, then RECORD_SEQ advances and BOOT_ATTEMPTS restarts; the nonce is
used up (R470, R471). -/
def recordSigned (s : State) : State :=
  match s.sec.recordDue with
  | [] => s
  | kind :: rest =>
    let t := s.onSec fun x => { x with records := (x.records ++ [s.nextRecord kind]).drop (x.records.length - 255), recordSeq := x.recordSeq + 1, bootAttempts := 0, nonce := none, recordDue := rest }
    t.onDev fun d => { d with recordSigned := d.recordSigned || kind == 0 }
def execFiringRecordSigned (s : State) : Out := done s (recordSigned s)

/-- SELECT, NONCE_ACTION, SEQ and NONCE. -/
def recordFields (m : Mailbox) : Nat × Nat × Nat × Nat × Parse :=
  let (a, p) := m.parse.enum 1 0 1 [1, 2, 3] 1
  let (n, p) := p.enum 2 1 1 [1, 2, 3] 1
  (a, n, p.raw 8 8, p.raw 16 32, p)
def recordGetAct (mb : Nat) (m : Mailbox) (s : State) : State :=
  let (sel, act, q, n, _) := recordFields m
  let l := s.sec.records
  let chosen := match sel with | 1 => l.drop (l.length - 1) | 2 => l.filter (fun r => r.seq == q) | _ => l
  let t := match act with
    | 2 => s.onSec fun x => { x with nonce := some (BitVec.ofNat 256 n) }
    | 3 => s.onSec fun x => { x with nonce := none }
    | _ => s
  let low := ((l.head?).map (·.seq)).getD 0
  mciOk mb (leBytes 4 chosen.length ++ leBytes 4 0 ++ leBytes 8 low ++ leBytes 8 s.sec.recordSeq) ((chosen.map fireBytes).flatten) t
/-- Fields, objects and refusals of the command (steps 5 to 7 of R366). -/
def firingRecordGetPlan (_s : State) (m : Mailbox) : Plan :=
  { p := (recordFields m).2.2.2.2 }
/-- FIRING_RECORD_GET (R484). -/
def execFiringRecordGet (mb : Nat) (s : State) : Out := done s (mciRun mb 0x0801 s (firingRecordGetPlan s) (recordGetAct mb))

/-! ### ATTEST_QUOTE and CERT_GET (R472, R473, R485) -/

def quoteBody (s : State) (nonce user : Bytes) : Bytes :=
  let k := s.klog
  padTo 256 (ascii "RLTKQUOT" ++ leBytes 2 1 ++ leBytes 1 s.hw.lifecycle.code ++ leBytes 1 s.hw.epoch ++ leBytes 1 s.hw.svFloor ++
    leBytes 1 (flag k.hintValid 0 + flag k.hintDecreased 1 + flag s.fc.fatal 2 + flag s.dev.debugActive 3) ++ leBytes 1 (highestPending s) ++ leBytes 1 0 ++
    deviceIdBytes ++ ftBytes s.now ++ leBytes 8 s.sec.recordSeq ++ leBytes 4 s.hw.present.toNat ++ leBytes 4 s.unitService.toNat ++
    (match s.sec.records.getLast? with | some r => sha (fireBytes r) | none => leBytes 32 0) ++ nonce ++ leBytes 8 k.hintValue ++ user)
/-- Fields, objects and refusals of the command (steps 5 to 7 of R366). -/
def attestQuotePlan (_s : State) (m : Mailbox) : Plan :=
  { p := m.parse }
/-- ATTEST_QUOTE: the quote and its signature (R473, R485). -/
def execAttestQuote (mb : Nat) (s : State) : Out :=
  done s (mciRun mb 0x0802 s (attestQuotePlan s) (fun m t =>
    let b := quoteBody t (slice m.params 0 32) (slice m.params 32 32)
    mciOk mb [] (b ++ padTo 17088 (Config.signs b)) t))
/-- The mark certificate (R472). -/
def certBytes : Bytes :=
  padTo 128 (ascii "RLTKMCRT" ++ leBytes 2 1 ++ leBytes 1 1 ++ leBytes 5 0 ++ deviceIdBytes ++ padTo 32 Config.attestKey ++ leBytes 4 0x7480B101 ++
    leBytes 1 0xB1 ++ leBytes 3 0 ++ (sha Config.certKey).take 8 ++ leBytes 8 Config.provisionDt.toNat) ++ padTo 29792 Config.certSignature
/-- Fields, objects and refusals of the command (steps 5 to 7 of R366). -/
def certGetPlan (_s : State) (m : Mailbox) : Plan :=
  { p := m.parse }
def execCertGet (mb : Nat) (s : State) : Out :=
  done s (mciRun mb 0x0803 s (certGetPlan s) (fun _ t => mciOk mb (padTo 32 Config.attestKey) certBytes t))

/-! ### Firmware slots (R463, R474, R486 to R488) -/

def Sec.slot (x : Sec) (b : Bool) : FlashSlot := if b then x.slotB else x.slotA
def onFlash (b : Bool) (f : FlashSlot → FlashSlot) (s : State) : State := s.onSec fun x => if b then { x with slotB := f x.slotB } else { x with slotA := f x.slotA }
/-- The download target is slot B: the slot not booted, or in recovery boot the one that is not PREFERRED (R467, R474). -/
def State.target (s : State) : Bool := if s.dev.recoveryBoot then !s.sec.preferredB else !s.sec.bootedB

/-- RESULT of the check of a slot: 0 VALID, or what fails first (R463, R486). -/
def slotResult (s : State) (x : FlashSlot) (m : Manifest) (bad : Option Nat) : Nat × Nat :=
  if ¬ x.chunk0 then (7, 0)
  else if ¬ m.wellFormed then (1, 0)
  else if ¬ m.sigOk then (2, 0)
  else if s.sec.policy.requireCosig ∧ m.cosigAlg = 0 then (3, 0)
  else if s.sec.policy.requireCosig ∧ ¬ s.cosigned m then (4, 0)
  else if m.secVersion < s.hw.svFloor then (5, 0)
  else match bad with
    | some t => (6, t)
    | none => (0, 0)

/-- OFFSET and FINAL. -/
def downloadFields (m : Mailbox) : Nat × Bool × Parse :=
  let (o, p) := m.parse.num 1 0 4 { hi := 2 ^ 25 - m.payload.length, round := 1, gran := 4096, depHi := decide (m.payload ≠ []) }
  let (f, p) := p.enum 2 4 1 [1, 2] 1
  (o, f == 2, p)
/-- A chunk goes to the target; the first one makes it DOWNLOADING and cancels an activation of it at the next boot (R474). -/
def writeChunk (off : Nat) (data : Bytes) (s : State) : State :=
  if data = [] then s
  else
    let b := s.target
    let t := if off = 0 then onFlash b (fun x => { x with st := 1, chunk0 := true, written := 0 }) s else s
    let t := if off = 0 ∧ s.sec.trialFlag ∧ s.sec.preferredB = b then t.onSec fun x => { x with preferredB := x.bootedB, trialFlag := false } else t
    emit (.flashWrite (flag b 0) off data) (onFlash b (fun x => { x with written := x.written + data.length }) t)
/-- In recovery boot the ROM boots a target found valid (R467). -/
def recoveryImage (s : State) : State :=
  if s.dev.recoveryBoot then (s.onSec fun x => { x with bootStep := 1, fromRecovery := true, bootedB := s.target }).onDev fun d => { d with recoveryBoot := false } else s
def downloadAct (mb : Nat) (man : Manifest) (bad : Option Nat) (m : Mailbox) (s : State) : State :=
  let (off, final, _) := downloadFields m
  let t := writeChunk off m.payload s
  if ¬ final then mciOk mb [] [] t
  else
    let (r, part) := slotResult t (t.sec.slot t.target) man bad
    let u := onFlash t.target (fun x => { x with st := if r = 0 then 2 else 0, m := if r = 0 then man else x.m, chunk0 := false }) t
    let u := u.onSec fun x => { x with lastFinal := r }
    mciOk mb (leBytes 1 r ++ leBytes 1 part) [] (if r = 0 then recoveryImage u else u)
/-- Fields, objects and refusals of the command (steps 5 to 7 of R366). -/
def fwDownloadPlan (_s : State) (m : Mailbox) : Plan :=
  { p := (downloadFields m).2.2, objects := [objFirmware] }
/-- FW_DOWNLOAD (R474, R486). -/
def execFwDownload (mb : Nat) (manifest : Manifest) (badPartition : Option Nat) (s : State) : Out :=
  done s (mciRun mb 0x0A01 s (fwDownloadPlan s) (downloadAct mb manifest badPartition))

/-! ### Activation (R25, R475, R476, R487) -/

/-- Partitions other than CONTROL are those of the running boot: digests in the order of R468, CONTROL third. -/
def othersEqual (a b : Manifest) : Bool := [0, 1, 3, 4].all (fun i => nth a.digests i 0 == nth b.digests i 0)
def activateRefuse (s : State) (mode : Nat) : Option (Nat × Nat × Nat) :=
  let x := s.sec.slot s.target
  if mode = 3 then none
  else if x.st ≠ 2 then some (stConflict, 0, 1)
  else if mode = 2 ∧ ¬ s.sec.policy.liveActivation then some (stConflict, 0, 2)
  else if mode = 2 ∧ ¬ othersEqual x.m s.sec.running then some (stConflict, 0, 3)
  else if x.m.secVersion < s.hw.svFloor then some (stConflict, 0, 4)
  else none
/-- A live activation that waits starts once no live operation runs and no other mailbox executes (R25, R378, R476). -/
def startActivation (s : State) : State :=
  match s.mci.activationMb with
  | some i => if s.mci.activation = 1 ∧ ¬ s.liveOp ∧ s.othersExecuting i = [] then
      (s.onMci fun c => { c with activation := 2 }).onDev fun d => { d with activating := true } else s
  | none => s
def activateAct (mb : Nat) (m : Mailbox) (s : State) : State :=
  match (m.parse.enum 1 0 1 [1, 2, 3] 1).1 with
  | 2 => startActivation (s.onMci fun c => { c with activation := 1, activationMb := some mb })
  | 3 => mciOk mb [] [] (s.onSec fun x => { x with preferredB := x.bootedB, trialFlag := false })
  | _ => mciOk mb [] [] (recordSecurity 8 0 s.hw.counters (s.onSec fun x => { x with preferredB := s.target, trialFlag := true }))
/-- Fields, objects and refusals of the command (steps 5 to 7 of R366). -/
def fwActivatePlan (s : State) (m : Mailbox) : Plan :=
  let (mode, p) := m.parse.enum 1 0 1 [1, 2, 3] 1
  { p := p, objects := [objFirmware], refuse := activateRefuse s mode }
/-- FW_ACTIVATE (R475, R476, R487). -/
def execFwActivate (mb : Nat) (s : State) : Out :=
  done s (mciRun mb 0x0A02 s (fwActivatePlan s) (activateAct mb))

/-- The activation is over. -/
def endActivation (s : State) : State := (s.onMci fun c => { c with activation := 0, activationMb := none }).onDev fun d => { d with activating := false }
/-- NEW_IMAGE_READY: the new image serves; PREFERRED becomes the target and a record is due (R476). -/
def imageReady (s : State) : State :=
  match s.mci.activationMb with
  | some i =>
    let x := s.sec.slot s.target
    let run : Manifest := { s.sec.running with fwVersion := x.m.fwVersion, digests := nthMod s.sec.running.digests 2 (fun _ => nth x.m.digests 2 0) }
    let t := s.onSec fun y => { y with preferredB := s.target, trialFlag := false, fwVersion := x.m.fwVersion, running := run, recordDue := y.recordDue ++ [4] }
    mciOk i [] [] (recordSecurity 8 0 s.hw.counters (endActivation t))
  | none => s
def execNewImageReady (s : State) : Out := done s (if s.mci.activation = 2 then imageReady s else s)
/-- ACTIVATION_READY_TIMEOUT: the control complex restarts on the old image, and the command ends with code 5 (R476). -/
def activationFailed (s : State) : State :=
  match s.mci.activationMb with
  | some i => beginRestart (endActivation (mciFail i stConflict 0 5 s))
  | none => s
def execActivationReadyTimeout (s : State) : Out := done s (if s.mci.activation = 2 then activationFailed s else s)

/-! ### FW_GET_STATUS (R488) -/

def fwStatusBytes (s : State) : Bytes :=
  let x := s.sec
  leBytes 1 s.bootSlot ++ leBytes 1 (flag x.preferredB 0) ++ leBytes 1 (flag x.trialFlag 0) ++ leBytes 1 (x.slotA.st + x.slotB.st * 4) ++
  leBytes 4 x.fwVersion ++ leBytes 4 x.microcode ++ leBytes 1 s.hw.svFloor ++ leBytes 1 x.lastFinal ++ leBytes 2 0 ++ leBytes 4 (x.slot s.target).written ++
  leBytes 12 0 ++ leBytes 32 (nth x.running.digests 2 0).toNat
/-- Fields, objects and refusals of the command (steps 5 to 7 of R366). -/
def fwGetStatusPlan (_s : State) (m : Mailbox) : Plan :=
  { p := m.parse }
def execFwGetStatus (mb : Nat) (s : State) : Out :=
  done s (mciRun mb 0x0A03 s (fwGetStatusPlan s) (fun _ t => mciOk mb (fwStatusBytes t) (padTo 512 t.sec.slotA.m.raw ++ padTo 512 t.sec.slotB.m.raw) t))

end Sys2Proof.Machine
end

