-- ==== Sys2Proof/Machine/KilnLog.lean ====
section
/-! DEFINITION. The Kiln Log (chapter 17): slots as bytes, happenings and samples, claimed time, clearing, the block's
registers and its commands. -/
namespace Sys2Proof.Machine

/-! ### Slots as bytes (R489, R490, R494, R504) -/

/-- A slot of 256 bytes with the CRC-32C of bytes 0 to 251 at 252 (R489, R490, R504). -/
def slotBytes (b : Bytes) : Bytes := padTo 252 b ++ leBytes 4 (crc32 (padTo 252 b)).toNat

/-- The log header (R489). -/
def logHeader (k : Klog) : Bytes :=
  slotBytes (ascii "RLTKKLOG" ++ leBytes 2 1 ++ leBytes 2 k.clears.length ++ leBytes 4 0 ++ (k.dropped.map (leBytes 8)).flatten ++
    leBytes 8 k.hintValue ++ ftBytes k.hintFt ++ leBytes 1 (flag k.hintDecreased 0))

/-- A clear-record (R504). -/
def clearBytes (c : ClearRec) : Bytes :=
  slotBytes (ascii "RLTKKCLR" ++ leBytes 2 c.index ++ leBytes 1 c.maxSev ++ leBytes 1 c.epoch ++ leBytes 4 0 ++ leBytes 8 c.counter ++
    ftBytes c.ft ++ leBytes 8 c.claimed ++ (c.cleared.map (leBytes 4)).flatten ++ (c.dropped.map (leBytes 8)).flatten ++
    leBytes 32 c.digest.toNat ++ leBytes 32 c.ownerDigest.toNat)

/-- Widths of the numbers of a detail (R492; their places in a SECURITY or ARRAY detail are log entry 98). -/
def detailWidths (kind keyA keyB : Nat) : List Nat :=
  match kind with
  | 2 => [4]
  | 3 => [4, 4]
  | 4 => [8, 8, 1]
  | 5 => if keyA = 6 then [2, 8] else [1, 1, 1, 1]
  | 6 => if keyB = 1 then [1, 2, 16] else [16]
  | _ => List.replicate 48 1

/-- A detail of 48 bytes (R492). -/
def detailBytes (kind keyA keyB : Nat) (d : List Nat) : Bytes :=
  padTo 48 ((List.zipWith leBytes (detailWidths kind keyA keyB) d).flatten)

/-- The body of an entry: R494 for a histogram, R492 for events. -/
def entryBody (e : LogEntry) : Bytes :=
  if e.hist then
    leBytes 8 e.count ++ leBytes 8 e.sum ++ leBytes 8 e.minV ++ ftBytes e.minFt ++ leBytes 8 e.maxV ++ ftBytes e.maxFt ++
      (e.bins.map (leBytes 4)).flatten
  else leBytes 8 e.count ++ leBytes 8 0 ++ detailBytes e.kind e.keyA e.keyB e.latest ++ detailBytes e.kind e.keyA e.keyB e.firstDetail

/-- An entry's slot (R490). -/
def entryBytes (e : LogEntry) : Bytes :=
  slotBytes (leBytes 2 e.kind ++ leBytes 1 e.sev ++ leBytes 1 (flag e.hist 0 + flag e.decreased 1 + flag e.saturated 2) ++
    leBytes 4 e.updates ++ leBytes 8 e.keyA ++ leBytes 8 e.keyB ++ ftBytes e.firstFt ++ ftBytes e.lastFt ++ leBytes 8 e.claimed ++
    entryBody e)

/-! ### Happenings and samples -/

/-- The severity that R492 fixes for a happening; a FAULT's comes from its capture (R493). -/
def happeningSev (h : Happening) : Nat :=
  match h.kind with
  | 4 => min h.sev 1
  | 5 => if h.keyA = 6 then 2 else 3
  | 6 => if h.keyB = 2 then 3 else 2
  | _ => 1

/-- The FAULT happening of a capture record (R492, R493). -/
def faultHappening (c : Capture) : Happening where
  kind := 1
  keyA := c.source + flag c.injected 16
  keyB := c.loc.toNat
  sev := if c.sev = 0 then 0 else if c.sev = 1 then 1 else if c.sev ≤ 3 then 2 else 3
  detail := c.bytes.map BitVec.toNat

/-- KILN_LOG_HAPPENING: a fault comes from the collector's queue, oldest capture first (R442, R443, R498); a happening of
another event kind comes as its producer gives it. -/
def happening (h : Happening) (s : State) : State :=
  if h.kind = 1 then
    match s.fc.queue with
    | [] => s
    | c :: rest => record (faultHappening c) (s.onFc fun f => { f with queue := rest })
  else if 2 ≤ h.kind ∧ h.kind ≤ 7 then record { h with sev := happeningSev h } s
  else s
def execKilnLogHappening (h : Happening) (s : State) : Out := done s (happening h s)

/-- OP_MINUTE_TICK: the minute's corrected errors of each link are sampled, op_minutes increments and every sample merges
(R8, R496, R497). -/
def opMinute (linkErrors : List (LocCode × Nat)) (s : State) : State :=
  mergeSamples (linkErrors.foldl (fun t x => sample 0x0106 x.1.toNat 0 x.2 t) s)
def minuteHw (h : Hw) : Hw := { h with opMinutes := h.opMinutes + 1 }
def execOpMinuteTick (linkErrors : List (LocCode × Nat)) (s : State) : Out :=
  doneHw (minuteHw s.hw) s (opMinute linkErrors { s with hw := minuteHw s.hw })

/-- A sensor at 120 °C or more: THERMTRIP# asserts and THERMAL_TRIP is raised (R563). -/
def thermalTrip (sensor : Nat) (s : State) : State :=
  raise { source := 0x1E1 } (s.onPins fun p => { p with thermtrip := true, temps := nthMod p.temps sensor (fun t => max t 120) })
def execThermalTrip (sensor : Nat) (s : State) : Out := done s (if sensor < 4 then thermalTrip sensor s else s)

/-- TEMPERATURE_SAMPLE: each sensor's value is sampled; TEMP_WARNING is raised when the composite rises above its threshold
(R353, R436, R496), and a sensor at 120 °C trips (R563). -/
def temperatureSample (ts : List Int) (s : State) : State :=
  let t := s.onPins fun p => { p with temps := ts }
  let t := (List.range 4).foldl (fun u i => sample 0x0103 i 0 (nth ts i 0 + 64).toNat u) t
  let hot := decide (s.nvme.feat.tempOver < t.composite)
  let t := t.onPins fun p => { p with tempOver := hot }
  let t := if hot ∧ ¬ s.pins.tempOver then raise { source := 0x1E0 } t else t
  match (List.range 4).find? (fun i => decide (120 ≤ nth ts i 0)) with
  | some i => if s.pins.thermtrip then t else thermalTrip i t
  | none => t
def execTemperatureSample (t0 t1 t2 t3 : Int) (s : State) : Out := done s (temperatureSample [t0, t1, t2, t3] s)

/-- DIRTY_LINES_SAMPLE (R496). -/
def execDirtyLinesSample (s : State) : Out := done s (sample 0x0105 0 0 s.dirtyLines s)

/-! ### Clearing (R505) -/

/-- Entries that a clear of `maxSev` takes. -/
def clearable (maxSev : Nat) (e : LogEntry) : Bool := e.sev ≤ maxSev

/-- Steps 1 to 3 of R505 at boundary T. -/
def clearStart (maxSev mb epoch counter : Nat) (s : State) : State :=
  let t := mergeSamples s
  let k := t.klog
  let cl := k.entries.filter (clearable maxSev)
  let rec_ : ClearRec := {
    index := k.clears.length + 1, maxSev := maxSev, epoch := epoch, counter := counter, ft := t.now, claimed := t.claimedAt t.now,
    cleared := (List.range 4).map (fun v => (cl.filter (fun e => e.sev == v)).length), dropped := k.dropped,
    digest := Config.sha256 ((cl.map entryBytes).flatten), ownerDigest := t.ownerDigest, allFreed := false }
  onMb mb (fun m => { m with committed := true }) (t.onKlog fun k => { k with clears := k.clears ++ [rec_], clearStep := 2 })

/-- Step 4 of R505 for a clear-record: entries with a later happening stay. -/
def clearFree (c : ClearRec) (k : Klog) : Klog :=
  { k with entries := k.entries.filter (fun e => !(clearable c.maxSev e && !ftBefore c.ft e.lastFt)), dropped := [0, 0, 0, 0] }
/-- The clear-records whose entries have not all been freed are finished: step 4 of R505. -/
def finishClears (k : Klog) : Klog :=
  { ((k.clears.filter (fun c => !c.allFreed)).foldl (fun x c => clearFree c x) k) with
    clears := k.clears.map (fun c => { c with allFreed := true }) }

/-- Steps 4 and 5 of R505: the recorder takes what waited, and the command completes. -/
def clearEnd (mb : Nat) (s : State) : State :=
  let t := s.onKlog fun k =>
    let k := { finishClears k with clearStep := 0, clearing := none, waiting := [] }
    s.klog.waiting.foldl (fun x w => takeHappening w.1 w.2 (s.claimedAt w.2) x) k
  if (s.mb mb).opcode = 0x0902 ∧ (s.mb mb).st = .executing then mciFinish mb t else t

/-- The Kiln Log at a turn boundary: a clear starts at the first one, T, and ends within 20 ms (log entry 99: at the next). -/
def klogBoundary (s : State) : State :=
  match s.klog.clearing with
  | none => s
  | some (maxSev, mb, epoch, counter) =>
    if s.klog.clearStep = 2 then clearEnd mb s
    else if (s.mb mb).opcode = 0x0902 ∧ (s.mb mb).st = .executing ∧ ((s.mb mb).staged).isNone then
      let t := clearStart maxSev mb epoch counter s
      let c := t.klog.clears.getLastD {}
      mciWait mb (leBytes 2 c.index ++ leBytes 2 0 ++ (c.cleared.map (leBytes 4)).flatten) [] t
    else s.onKlog fun k => { k with clearing := none, clearStep := 0 }

/-- Cold reset: torn entry slots are freed and counted (R499), unfinished clears complete (R505), samples and the hint's
validity are lost (R497, R502). -/
def klogCold (torn : List Nat) (k : Klog) : Klog :=
  let bad := k.entries.filter (fun e => torn.contains e.slot)
  let k := finishClears { k with entries := k.entries.filter (fun e => !torn.contains e.slot), torn := bad.length }
  { k with samples := [], waiting := [], clearing := none, clearStep := 0, hintValid := false, updates := 0 }

/-! ### Registers (R507) -/

def klState (k : Klog) : Nat :=
  flag k.hintValid 0 + flag k.hintDecreased 1 + flag (k.clearStep == 2) 2 + flag (decide (logSlots ≤ k.entries.length)) 3 +
  flag (decide (256 ≤ k.clears.length)) 4

def klReg (off : Nat) (s : State) : Option Nat :=
  let k := s.klog
  match off with
  | 0x000 => some (klState k)
  | 0x004 => some k.entries.length
  | 0x008 => some k.clears.length
  | 0x00C => some k.updates
  | 0x010 => some (sat32 (nth k.dropped 0 0))
  | 0x014 => some (sat32 (nth k.dropped 1 0))
  | 0x018 => some (sat32 (nth k.dropped 2 0))
  | 0x01C => some (sat32 (nth k.dropped 3 0))
  | 0x020 => some k.torn
  | _ => none
/-- The RC register of the block cleared by a read. -/
def klClear (off : Nat) (s : State) : State := s.onKlog fun k => if off = 0x00C then { k with updates := 0 } else k

/-! ### Commands (R508 to R510) -/

/-- Kind codes of R492 and R496. -/
def logKinds : List Nat := [1, 2, 3, 4, 5, 6, 7, 0x0101, 0x0102, 0x0103, 0x0104, 0x0105, 0x0106]

/-- START_SLOT, MIN_SEVERITY and KIND of KILN_LOG_GET. -/
def logFields (m : Mailbox) : Nat × Nat × Nat × Parse :=
  let (a, p) := m.parse.num 1 0 4 { hi := 65535 }
  let (v, p) := p.num 2 4 1 { hi := 3 }
  let (k, p) := p.enum 3 6 2 logKinds 0
  (a, v, k, p)

/-- The slots that pass, with their bytes: slots 0 to 256 always, then the entries that meet both filters (R508). -/
def logSlotsFrom (k : Klog) (start minSev kind : Nat) : List (Nat × Bytes) :=
  let head := ((List.range 257).filter (fun i => start ≤ i)).map (fun i =>
    (i, if i = 0 then logHeader k else match k.clears[i - 1]? with | some c => clearBytes c | none => List.replicate 256 0))
  head ++ (k.entries.filter (fun e => start ≤ e.slot && minSev ≤ e.sev && (kind == 0 || e.kind == kind))).map (fun e => (e.slot, entryBytes e))

/-- KILN_LOG_GET: whole slots, as many as fit; NEXT_SLOT is the first that did not (R508). -/
def logGetAct (mb : Nat) (m : Mailbox) (s : State) : State :=
  let (a, v, kd, _) := logFields m
  let all := logSlotsFrom s.klog a v kd
  let n := (if 14 ≤ mb then min m.outLen 262144 else min m.outLen 16777216) / 256
  let regs := ((List.range 9).map (fun i => leBytes 4 ((klReg (4 * i) s).getD 0))).flatten
  let next := match all[n]? with | some x => x.1 | none => 0xFFFFFFFF
  mciOk mb (padTo 40 regs ++ leBytes 4 next ++ leBytes 4 (min n all.length)) (((all.take n).map (·.2)).flatten) s
/-- Fields, objects and refusals of the command (steps 5 to 7 of R366). -/
def kilnLogGetPlan (_s : State) (m : Mailbox) : Plan :=
  { p := (logFields m).2.2.2 }
def execKilnLogGet (mb : Nat) (s : State) : Out := done s (mciRun mb 0x0901 s (kilnLogGetPlan s) (logGetAct mb))

/-- KILN_LOG_CLEAR: takes effect at the next turn boundary (R505, R506, R509). -/
def logClearFields (m : Mailbox) : Nat × Parse := m.parse.num 1 0 1 { hi := 3, dflt := 3 }
def logClearAct (mb : Nat) (m : Mailbox) (s : State) : State :=
  s.onKlog fun k => { k with clearing := some ((logClearFields m).1, mb, s.hw.epoch, s.mci.counter), clearStep := 1 }
def logClearPlan (s : State) (m : Mailbox) : Plan where
  p := (logClearFields m).2
  objects := [objKilnLog]
  refuse := if 256 ≤ s.klog.clears.length then some (stConflict, 0, 1) else none
def execKilnLogClear (mb : Nat) (s : State) : Out := done s (mciRun mb 0x0902 s (logClearPlan s) (logClearAct mb))

/-- HOST_TIME_HINT: stored with its FT of receipt, and recorded (R502, R503, R510). -/
def hintField (m : Mailbox) : Nat × Parse := m.parse.num 1 0 8 { hi := 2 ^ 63 - 1 }
def hintAct (mb : Nat) (m : Mailbox) (s : State) : State :=
  let v := (hintField m).1
  let before := s.claimedAt s.now
  let dec := if s.klog.hintValid then decide (v < before) else decide (v < s.klog.hintValue)
  let t := s.onKlog fun k => { k with hintValue := v, hintFt := s.now, hintDecreased := dec, hintValid := true }
  mciOk mb (leBytes 8 before ++ leBytes 1 (flag dec 0)) [] (record { kind := 4, sev := if dec then 1 else 0, detail := [v, before, mb] } t)
/-- Fields, objects and refusals of the command (steps 5 to 7 of R366). -/
def hostTimeHintPlan (_s : State) (m : Mailbox) : Plan :=
  { p := (hintField m).2, objects := [objKilnLog] }
def execHostTimeHint (mb : Nat) (s : State) : Out :=
  done s (mciRun mb 0x0903 s (hostTimeHintPlan s) (hintAct mb))

end Sys2Proof.Machine
end

