-- ==== Sys2Proof/Machine/Test.lean ====
section
/-! DEFINITION. Links that train, and test and diagnostics (chapter 19): units in test, patterns, margining, memory self-test,
die-to-die lane repair, the TAP, and the test registers. -/
namespace Sys2Proof.Machine

/-! ### Links (R22, R193, R241, R292) -/

/-- A test of kind `p` holds a link (R530): its error-threshold retrain is suppressed. -/
def LinkRef.unit : LinkRef → Nat × Nat
  | .port p => (2, p)
  | .slip => (3, 0)
  | .coil p => (4, p)

/-- LINK_ERROR_THRESHOLD: the link retrains, unless a test holds it (R22, R530). -/
def linkThreshold (l : LinkRef) (s : State) : State :=
  let (u, i) := LinkRef.unit l
  if s.inTest u i then s
  else match l with
    | .port p => if s.portExists p ∧ (s.port p).up then retrainPort p s else s
    | .slip => if s.twin.trained then retrainSlip s else s
    | .coil p => if s.coil.linkUp.getLsbD p then retrainCoil p s else s
def execLinkErrorThreshold (link : LinkRef) (s : State) : Out := done s (linkThreshold link s)

/-- A member port's training ends; the members' identity reads follow (R193, R548). -/
def portTrained (p : Nat) (ok : Bool) (s : State) : State :=
  if ¬ (s.port p).training then s
  else finishUnit 2 p (if ok then 0 else 2) (onPort p (fun q => { q with training := false, up := ok }) s)
/-- Training of the Slip link ends (R241, R557). -/
def slipTrainEnd (ok : Bool) (lanes : Nat) (s : State) : State :=
  if ¬ s.twin.training then s
  else if ok then finishUnit 3 0 0 (slipTrained lanes s) else finishUnit 3 0 2 (s.onTwin fun t => { t with training := false })
/-- Training of a Coil port ends (R292). -/
def coilTrainEnd (p : Nat) (ok : Bool) (s : State) : State :=
  if ¬ s.coil.training.getLsbD p then s
  else
    let t := s.onCoil fun c => { c with training := c.training &&& ~~~(BitVec.ofNat 2 (2 ^ p)), linkUp := if ok then c.linkUp ||| BitVec.ofNat 2 (2 ^ p) else c.linkUp }
    finishUnit 4 p (if ok then 0 else 2) (if ok then wantService (18 + p) true t else t)
/-- PORT_TRAINING_COMPLETE. -/
def trainingComplete (l : LinkRef) (ok : Bool) (lanes : Nat) (s : State) : State :=
  match l with
  | .port p => portTrained p ok s
  | .slip => slipTrainEnd ok lanes s
  | .coil p => coilTrainEnd p ok s
def execPortTrainingComplete (link : LinkRef) (ok : Bool) (lanes : Nat) (s : State) : Out := done s (trainingComplete link ok lanes s)

/-! ### Die-to-die bundles (R12, R535, R536) -/

/-- The lanes of a bundle that are not retired. -/
def Bundle.good (b : Bundle) : List Nat := (List.range 36).filter (fun l => !b.retired.contains l)
/-- The lowest-numbered good lanes carry data; the rest are spares. -/
def Bundle.dataLanes (b : Bundle) : List Nat := b.good.take 32
def Bundle.spares (b : Bundle) : List Nat := b.good.drop 32

def State.bundle (s : State) (i : Nat) : Bundle := nth s.tst.bundles i {}
def onBundle (i : Nat) (f : Bundle → Bundle) (s : State) : State := s.onTst fun t => { t with bundles := nthMod t.bundles i f }

/-- The receiving lane or bundle (R575): bundles 0 to 7 carry traffic to the I/O die, 8 to 15 back. -/
def bundleLoc (i : Nat) : LocCode := if i < 8 then locEngine 1 11 i else locEngine 0 13 i
def laneLoc (i l : Nat) : LocCode := if i < 8 then locLane 1 11 i l else locLane 0 13 i l

/-- The first boundary at least 32 data-path cycles from now (R535 step 1). -/
def State.repairFrom (s : State) : Nat := if s.hw.cycle + 32 ≤ s.cycles then s.hw.turn + 1 else s.hw.turn + 2

/-- Repair of a lane starts with the lowest-numbered healthy spare; without one the bundle goes out of service (R12, R535). -/
def startLaneRepair (i l : Nat) (s : State) : State :=
  match (s.bundle i).spares with
  | [] => raise { source := 0x1C1, loc := some (bundleLoc i) } (onBundle i (fun b => { b with inService := false, repair := none, waiting := [] }) s)
  | sp :: _ => onBundle i (fun b => { b with repair := some (l, sp, 1), repairTurn := s.repairFrom }) s

/-- D2D_LANE_FAILED: a data lane fails; one repair of a bundle runs at a time (R535, R536). -/
def laneFailed (i l : Nat) (s : State) : State :=
  let b := s.bundle i
  if 16 ≤ i ∨ ¬ b.inService ∨ ¬ b.dataLanes.contains l ∨ (b.repair.map (·.1)) = some l ∨ b.waiting.contains l then s
  else if b.repair.isSome then onBundle i (fun b => { b with waiting := b.waiting ++ [l] }) s
  else startLaneRepair i l s
def execD2dLaneFailed (bundle lane : Nat) (s : State) : Out := done s (laneFailed bundle lane s)

/-- A lane is retired and counted (R535, R536, R541). -/
def retireLane (i l : Nat) (s : State) : State :=
  (onBundle i (fun b => { b with retired := addOnce l b.retired }) s).onTst fun t => { t with d2dRepairs := bump t.d2dRepairs }

/-- D2D_SPARE_FAILED: an idle spare is retired; one that a repair uses is retired too, and the repair starts again with the
next (R535, R536). -/
def spareFailed (i l : Nat) (s : State) : State :=
  let b := s.bundle i
  if 16 ≤ i ∨ ¬ b.inService ∨ ¬ b.spares.contains l then s
  else match b.repair with
    | some (f, sp, _) => if sp = l then startLaneRepair i f (retireLane i l s) else raise { source := 0x1C3, loc := some (laneLoc i l) } (retireLane i l s)
    | none => raise { source := 0x1C3, loc := some (laneLoc i l) } (retireLane i l s)
def execD2dSpareFailed (bundle lane : Nat) (s : State) : Out := done s (spareFailed bundle lane s)

/-- One bundle at a turn boundary: the copy starts, or after a turn of agreement the spare replaces the lane (R535). -/
def bundleBoundary (s : State) (i : Nat) : State :=
  match (s.bundle i).repair with
  | none => s
  | some (f, sp, ph) =>
    if ph = 1 then (if (s.bundle i).repairTurn ≤ s.hw.turn then onBundle i (fun b => { b with repair := some (f, sp, 2) }) s else s)
    else
      let t := onBundle i (fun b => { b with repair := none, subst := b.subst ++ [(f, sp)] }) (retireLane i f s)
      let t := raise { source := 0x1C0, loc := some (laneLoc i f) } t
      match (t.bundle i).waiting with
      | [] => t
      | w :: ws => startLaneRepair i w (onBundle i (fun b => { b with waiting := ws }) t)
def d2dBoundary (s : State) : State := (List.range 16).foldl bundleBoundary s

/-- All 36 lanes of each bundle train; a bundle with fewer than 32 good lanes is out of service (R12, R536). -/
def trainBundles (failed : List (Nat × Nat)) : List Bundle :=
  (List.range 16).map (fun i =>
    let bad := (List.range 36).filter (fun l => failed.contains (i, l))
    { retired := bad, inService := decide (bad.length ≤ 4) })

/-! ### Units in test (R527, R528) -/

/-- KIND of a diagnostics command as the model numbers units: 1 kiln, 2 member port, 3 Slip, 4 Coil port, 6 die-to-die bundle,
7 DDR channel, 8 MRAM, 9 another cluster. -/
def testUnit (kind : Nat) : Nat := match kind with | 1 => 2 | 2 => 4 | 3 => 3 | 4 => 7 | 5 => 1 | 6 => 6 | 7 => 8 | _ => 9

/-- The target exists: kiln car, saggar controller, queue engine and control complex are the other clusters (R537, R542). -/
def State.testTarget (s : State) (unit i : Nat) : Bool :=
  match unit with
  | 1 => s.kilnPresent i
  | 2 => s.portExists i
  | 3 => i == 0 && s.slipPresent
  | 4 => s.coilPresent i
  | 6 => decide (i < 16)
  | 7 => s.ddrPresent i
  | 8 => true
  | _ => [4, 6, 7, 8].contains i

/-- Lanes of a target (R18, R547). -/
def State.testLanes (s : State) (unit i : Nat) : Nat :=
  match unit with
  | 2 => if s.hw.straps.mportX4.getLsbD (groupOfPort i) then 4 else 2
  | 3 => 8
  | 4 => 4
  | 6 => 36
  | _ => 10

def objTest (unit i : Nat) : Nat × Nat := (21, unit * 65536 + i)

/-- KIND and INDEX. -/
def diagFields (m : Mailbox) : Nat × Nat × Parse :=
  let (k, p) := m.parse.enum 1 0 1 [1, 2, 3, 4, 5, 6, 7, 8] 1
  (testUnit k, if testUnit k = 8 then 0 else p.raw 2 2, p)

/-- What R528 refuses for DIAG_PATTERN and DIAG_MBIST. -/
def testRefuse (s : State) (unit i mask : Nat) : Option (Nat × Nat × Nat) :=
  let no (b : Bool) (c : Nat) : Option (Nat × Nat × Nat) := if b then some (stConflict, 0, c) else none
  match unit with
  | 2 => no ((s.arr.ns.filter (Ns.onPort i)).any (fun n => s.liveArrays.any (fun a => a.body.uid == n.arrayUid && n.adopted &&
           (marginByte s a == 0 || marginByte s a == 0xFF)))) 1
  | 4 => no (s.inService (18 + i) && !s.inService (18 + (1 - i)) && s.arr.ns.any (fun n => n.adopted && n.loc.remote && n.arrayUid != 0)) 2
  | 3 => no (s.twin.st == .syncing || s.twin.st == .mirroring) 3
  | 7 => no (s.inService (10 + i) && s.liveArrays != []) 4
  | 1 => no (s.kilns == [i]) 5
  | 6 => no ((List.range 36).any (fun l => mask.testBit l && !(s.bundle i).spares.contains l)) 6
  | _ => none

/-- The common plan of a diagnostics command over the kinds it offers (R542). -/
def diagPlan (s : State) (unit i : Nat) (offered : List Nat) (p : Parse) (laneOk : Bool) (r : Option (Nat × Nat × Nat)) : Plan where
  p := p
  objects := [objTest unit i]
  noObject := if ¬ s.testTarget unit i then some 2 else if ¬ laneOk then some 3 else none
  busy := s.inTest unit i || (unit != 6 && unit != 7 && unit < 8 && s.unitBusy unit i)
  refuse := if offered.contains unit then r else some (stConflict, 0, 7)

/-- A test begins; a kiln leaves planning at once (R527). -/
def startTest (x : Test) (s : State) : State :=
  let t := s.onTst fun t => { t with tests := t.tests ++ [x] }
  if x.kind ≠ 3 ∧ x.unit = 1 then setKiln x.index false t else t

/-- The unit of a test leaves service at a turn boundary (R527, R528). -/
def leaveForTest (x : Test) (s : State) : State :=
  match x.unit with
  | 2 => makeUnavailable (Ns.onPort x.index) 2 (onPort x.index (fun q => { q with up := false, training := false }) s)
  | 3 => (slipDown s).onTwin fun t => { t with training := false }
  | 4 => wantService (18 + x.index) false (s.onCoil fun c => { c with linkUp := c.linkUp &&& ~~~(BitVec.ofNat 2 (2 ^ x.index)) })
  | 7 => wantService (10 + x.index) false (s.onSag fun g => { g with chanOut := g.chanOut ||| BitVec.ofNat 8 (2 ^ x.index) })
  | _ => s
/-- Tests taken since the latest boundary begin. -/
def testBoundary (s : State) : State :=
  let t := (s.tst.tests.filter (fun x => x.kind != 3 && !x.begun)).foldl (fun u x => leaveForTest x u) s
  t.onTst fun y => { y with tests := y.tests.map (fun x => { x with begun := true }) }

/-- The unit returns from a test (R528): links retrain, a DDR channel stays out, a kiln waits for RETURN. -/
def returnFromTest (x : Test) (s : State) : State :=
  if ¬ x.begun then s
  else match x.unit with
    | 2 => if (s.port x.index).power ∧ ¬ (s.port x.index).perst then retrainPort x.index s else s
    | 3 => s.onTwin fun t => { t with training := true }
    | 4 => s.onCoil fun c => { c with training := c.training ||| BitVec.ofNat 2 (2 ^ x.index) }
    | _ => s

/-- The running test of a mailbox. -/
def State.testOf (s : State) (mb kind : Nat) : Option Test := s.tst.tests.find? (fun x => x.mb == mb && x.kind == kind)
/-- A test ends with its response. -/
def endTest (x : Test) (inline : Bytes) (s : State) : State :=
  let t := s.onTst fun t => { t with tests := t.tests.filter (fun y => !(y.mb == x.mb && y.kind == x.kind)) }
  let op := match x.kind with | 1 => 0x0B05 | 2 => 0x0B06 | _ => 0x0B07
  if (t.mb x.mb).st = .executing ∧ (t.mb x.mb).opcode = op ∧ (t.mb x.mb).started then mciOk x.mb inline [] t else t

/-! ### DIAG_PATTERN (R531 to R533, R542) -/

/-- The lanes that exist: for a bundle without a mask, its spares (R528). -/
def patternMask (s : State) (unit i : Nat) (p : Parse) : Nat × Parse :=
  let all := 2 ^ s.testLanes unit i - 1
  let dflt := if unit = 6 then total ((s.bundle i).spares.map (2 ^ ·)) else all
  if p.raw 4 8 = 0 then (dflt, p) else p.forced 3 4 8 (fun v => v &&& all)
def patternFields (s : State) (m : Mailbox) : Test × Parse :=
  let (u, i, p) := diagFields m
  let (mask, p) := patternMask s u i p
  let codes := if u = 7 then [7] else if u = 6 then [1, 2, 3, 4, 5] else [1, 2, 3, 4, 5, 6]
  let (pt, p) := p.enum 4 12 1 codes (if u = 7 then 7 else 5)
  let (_, p) := p.enum 5 13 1 [1, 2, 3, 4] 1
  let (_, p) := p.num 6 14 1 { lo := 30, hi := 48, dflt := 36 }
  let hi := if u = 2 then min 3600000 (s.pol.unavailLimit - 100) else 3600000
  let (_, p) := p.num 7 16 4 { lo := 10, hi := hi, dflt := min 1000 hi, depHi := hi != 3600000 }
  ({ kind := 1, unit := u, index := i, lanes := mask, pattern := pt }, p)
def patternPlan (s : State) (m : Mailbox) : Plan :=
  let (x, p) := patternFields s m
  diagPlan s x.unit x.index [2, 3, 4, 6, 7] p true
    (match testRefuse s x.unit x.index x.lanes with
     | some r => some r
     | none => if x.unit = 2 ∧ s.pol.unavailLimit < 110 then some (stConflict, 0, 8) else none)
def execDiagPattern (mb : Nat) (s : State) : Out :=
  done s (mciRun mb 0x0B05 s (patternPlan s) (fun m t => startTest { (patternFields s m).1 with mb := mb } t))

/-- CHECKER_LOCK_CHANGE: a lane's checker gains or loses lock (R531). Compliance patterns are not checked. -/
def checkerLock (mb lane : Nat) (locked : Bool) (s : State) : State :=
  let f (x : Test) : Test := { x with locked := if locked then addOnce lane x.locked else x.locked.filter (· != lane) }
  s.onTst fun t => { t with tests := mapIf t.tests (fun x => x.mb == mb && x.kind == 1 && x.pattern != 6 && x.lanes.testBit lane) f }
def execCheckerLockChange (mb lane : Nat) (locked : Bool) (s : State) : Out := done s (checkerLock mb lane locked s)

/-- One lane of the response. -/
def laneBytes (x : Test) (r : LaneResult) : Bytes :=
  leBytes 1 r.lane ++ leBytes 1 (flag (x.locked.contains r.lane) 0) ++ leBytes 2 0 ++ leBytes 4 (sat32 r.errors) ++ leBytes 8 r.bits ++
  leBytes 4 (sat32 r.worst) ++ leBytes 12 0
/-- TEST_DURATION_EXPIRED: the results of the lanes tested, and the unit returns (R528, R530, R542). -/
def testExpired (mb : Nat) (results : List LaneResult) (s : State) : State :=
  match s.testOf mb 1 with
  | none => s
  | some x =>
    let rs := results.filter (fun (r : LaneResult) => x.lanes.testBit r.lane)
    endTest x (leBytes 8 (flag x.interrupted 0) ++ (rs.map (laneBytes x)).flatten) (returnFromTest x s)
def execTestDurationExpired (mb : Nat) (results : List LaneResult) (s : State) : Out := done s (testExpired mb results s)

/-! ### DIAG_MBIST (R537, R542) -/

def mbistFields (m : Mailbox) : Test × Parse :=
  let (u, i, p) := diagFields m
  let (a, p) := p.enum 3 4 1 [1, 2, 3] 3
  let scanOnly := 8 ≤ u
  let q := if scanOnly ∧ a ≠ 3 then p.note 3 64 a 3 else p
  ({ kind := 2, unit := u, index := i, algorithm := if scanOnly then 3 else a }, q)
def mbistPlan (s : State) (m : Mailbox) : Plan :=
  let (x, p) := mbistFields m
  diagPlan s x.unit x.index [1, 7, 8, 9] p true (testRefuse s x.unit x.index 0)
def execDiagMbist (mb : Nat) (s : State) : Out :=
  done s (mciRun mb 0x0B06 s (mbistPlan s) (fun m t => startTest { (mbistFields m).1 with mb := mb } t))

/-- The memory fault of a unit, where R436 names one (R537). -/
def memFault (x : Test) : Option Nat :=
  match x.unit with
  | 1 => some (0x21 + 0x20 * x.index)
  | 7 => some (0x128 + x.index)
  | 9 => if x.index = 7 then some 0x106 else none
  | _ => none
/-- MBIST_COMPLETE: the result, and the unit's memory fault for an uncorrectable word that ECC_SCAN finds (R537, R542). -/
def mbistDone (mb failing corrected : Nat) (l : LocCode) (cell : Nat) (s : State) : State :=
  match s.testOf mb 2 with
  | none => s
  | some x =>
    let res := if x.interrupted then 2 else if 0 < failing then 1 else 0
    let t := if 0 < failing then s.onTst fun y => { y with mbistFails := bump y.mbistFails } else s
    let t := endTest x (leBytes 4 res ++ leBytes 4 failing ++ leBytes 4 corrected ++ leBytes 4 (if 0 < failing then l.toNat else 0) ++
      leBytes 4 (if 0 < failing then cell else 0)) (returnFromTest x t)
    match memFault x with
    | some k => if x.algorithm = 3 ∧ 0 < failing then raise { source := k, loc := some l, cell := some cell } t else t
    | none => t
def execMbistComplete (mb failing corrected : Nat) (loc : LocCode) (cell : Nat) (s : State) : Out :=
  done s (mbistDone mb failing corrected loc cell s)

/-! ### DIAG_MARGIN (R534, R542) -/

def marginFields (m : Mailbox) : Test × Parse :=
  let (u, i, p) := diagFields m
  let (ax, p) := p.enum 4 5 1 [1, 2] 1
  let (_, p) := p.num 5 6 2 { lo := 1, hi := 1000, dflt := 10 }
  let (lim, p) := p.num 6 8 4 { lo := 1, hi := 65535, dflt := 16 }
  ({ kind := 3, unit := u, index := i, lane := p.raw 4 1, axisVoltage := ax == 2, limit := lim }, p)
def marginPlan (s : State) (m : Mailbox) : Plan :=
  let (x, p) := marginFields m
  diagPlan s x.unit x.index [2, 3, 4, 6] p (decide (x.lane < s.testLanes x.unit x.index) || !([2, 3, 4, 6].contains x.unit)) none
def execDiagMargin (mb : Nat) (s : State) : Out :=
  done s (mciRun mb 0x0B07 s (marginPlan s) (fun m t => startTest { (marginFields m).1 with mb := mb } t))

/-- Steps available in one direction. -/
def Test.maxSteps (x : Test) : Nat := if x.axisVoltage then 64 else 32
/-- The response of DIAG_MARGIN. -/
def marginBytes (x : Test) (below above errBelow errAbove : Nat) : Bytes :=
  leBytes 1 (flag x.interrupted 0) ++ leBytes 1 below ++ leBytes 1 above ++ leBytes 1 0 ++ leBytes 4 errBelow ++ leBytes 4 errAbove
/-- MARGIN_DWELL_EXPIRED: a step passes while the errors stay below the limit; each direction ends at its first failing step, or
at its last step (R534). -/
def marginDwell (mb errors : Nat) (s : State) : State :=
  match s.testOf mb 3 with
  | none => s
  | some x =>
    if x.interrupted then
      endTest x (if x.up then marginBytes x x.below x.steps x.errBelow 0 else marginBytes x x.steps 0 0 0) s
    else
      let pass := decide (errors < x.limit)
      let n := x.steps + (if pass then 1 else 0)
      let e := if pass then 0 else sat32 errors
      let next (f : Test → Test) : State := s.onTst fun t => { t with tests := mapIf t.tests (fun y => y.mb == mb && y.kind == 3) f }
      if pass ∧ n < x.maxSteps then next (fun y => { y with steps := n })
      else if ¬ x.up then next (fun y => { y with up := true, below := n, errBelow := e, steps := 0 })
      else endTest x (marginBytes x x.below n x.errBelow e) s
def execMarginDwellExpired (mb errors : Nat) (s : State) : Out := done s (marginDwell mb errors s)

/-! ### Boundary scan (R539, R540) -/

/-- Instructions that drive the pins. -/
def TapInstr.drives : TapInstr → Bool
  | .extest | .extestPulse | .extestTrain | .clamp | .highz => true
  | _ => false
/-- JTAG_INSTRUCTION: test instructions act while PERST# is asserted and the control complex is not released; otherwise they act
as BYPASS (R540). -/
def jtagInstruction (i : TapInstr) (s : State) : State :=
  let acts := s.pins.perst && decide (s.sec.bootStep < 6)
  s.onTst fun t => { t with tapReset := false, tap := if TapInstr.drives i ∧ ¬ acts then .bypass else i,
                            extestSeen := t.extestSeen || (TapInstr.drives i && acts) }
def execJtagInstruction (i : TapInstr) (s : State) : Out := done s (jtagInstruction i s)
/-- TRST: the TAP resets; IDCODE is its instruction (R539, R551). -/
def execTrst (s : State) : Out := done s (s.onTst fun t => { t with tapReset := true, tap := .idcode })

/-! ### Registers (R541) -/

def testReg (off : Nat) (s : State) : Option Nat :=
  let t := s.tst
  let spares (n : Nat) : Nat := total ((List.range 8).map (fun b => min 4 (s.bundle (n + b)).spares.length * 16 ^ b))
  match off with
  | 0x000 => some (flag (t.bundles.any (fun b => b.repair.isSome)) 0 + flag (t.tests.any (fun x => x.kind == 2)) 1 +
                   flag (t.tests.any (fun x => x.kind == 1)) 2 + flag (t.tests.any (fun x => x.kind == 3)) 3 + flag t.extestSeen 4)
  | 0x004 => some (spares 0)
  | 0x008 => some (spares 8)
  | 0x00C => some (bitmap (t.bundles.map (·.inService)))
  | 0x010 => some t.d2dRepairs
  | 0x014 => some t.mbistFails
  | _ => none
/-- The RC registers of the block cleared by a read. -/
def testClear (off : Nat) (s : State) : State :=
  s.onTst fun t => match off with
    | 0x010 => { t with d2dRepairs := 0 }
    | 0x014 => { t with mbistFails := 0 }
    | _ => t

end Sys2Proof.Machine
end

