-- ==== Sys2Proof/Machine/Power.lean ====
section
/-! DEFINITION. Power and boot (chapters 16, 18 and 20): cold reset, start and loss of main power, the boot chain, trial boots,
clocks, and crossings with their one-sided resets. -/
namespace Sys2Proof.Machine

/-! ### What a cold reset leaves (R519, R525) -/

/-- The saggar: contents lost, the stored policy kept (R160, R519). -/
def Saggar.cold (g : Saggar) : Saggar where
  gatherAge := g.gatherAge
  gatherTurns := g.gatherTurns
  highWater := g.highWaterNext
  highWaterNext := g.highWaterNext
  dirtyBudget := g.dirtyBudgetNext
  dirtyBudgetNext := g.dirtyBudgetNext

/-- The journal and the vault: what MRAM holds is kept (R163, R172, R174, R178). -/
def Vault.cold (v : Vault) : Vault where
  own := v.own
  partner := v.partner
  recCounter := v.recCounter
  ringSeq := v.ringSeq
  ringOff := v.ringOff
  ringAt := v.ringAt
  binding := v.binding
  status := v.status
  dumpSeq := v.dumpSeq
  setsWhole := v.setsWhole
  dumpLines := v.dumpLines
  dumpFrom := v.dumpFrom
  dumpTo := v.dumpTo
  configured := v.configured
  tested := v.tested
  holdupUs := v.holdupUs
  copies := v.copies
  members := v.members.map (fun m => { m with dropped := false })
  takenOver := v.takenOver

/-- An array as its marks and MRAM record it: it recovers where this device owns it (R98, R100, R180, R576). -/
def Arr.cold (a : Arr) : Arr where
  id := a.id
  service := if a.owner then 1 else 2
  body := a.persisted.getD a.body
  gen := a.gen
  exact := a.exact
  early := a.early
  causes := a.causes
  markGen := a.markGen
  shared := a.shared
  owner := a.owner
  ana := if a.owner then .optimized else .inaccessible
  stoodDown := a.stoodDown
  patrolDue := a.patrolDue

/-- A member port: its sidebands are inactive, and a slot found present debounces (R548). -/
def Port.cold (q : Port) : Port where
  debounce := if q.debounce.getD q.level then some true else none

/-- Members are out of reach until their identity is read again (R193); other namespaces are found again. -/
def Arrays.cold (x : Arrays) : Arrays where
  ns := (x.ns.filter (·.adopted)).map (fun n => { n with cond := .unavailable 2, reread := true, declare := none, failing := none, mended := [], exported := none, wearRaised := false })
  ports := x.ports.map Port.cold
  arrays := (x.arrays.filter (fun a => !a.creating)).map Arr.cold
  nextJob := x.nextJob
  releases := x.releases

/-- The twin: the stored bind takes effect, and the receive area exists (R234, R263). -/
def Twin.cold (t : Twin) : Twin where
  bound := t.bound
  partner := t.bound
  mode := t.stagedMode
  stagedMode := t.stagedMode
  declaredBudget := t.declaredBudget
  areaReady := t.bound.isSome
  st := if t.bound.isSome then .linkDown else .unpaired
  twinSeq := t.twinSeq

/-- The Coil engine: configuration and key store kept, every association gone (R276, R290, R297). -/
def Coil.cold (key : BitVec 256) (c : Coil) : Coil where
  slot0 := c.slot0
  slot1 := c.slot1
  txSlot := c.txSlot
  fingerprints := c.fingerprints
  cookieKey := key
  cfg := c.cfgNext
  cfgNext := c.cfgNext
  directory := c.directoryNext.getD c.directory
  regions := c.regions.map (fun r => { r with live := false, leaving := false })

/-- The fault collector: severities and AUTO_ACK as stored, every episode and capture gone, FATAL kept (R438, R441, R449). -/
def Fc.cold (f : Fc) : Fc where
  srcs := f.srcs.map (fun x => { id := x.id, configured := x.next.getD x.configured, autoAck := x.autoAckNext.getD x.autoAck })
  fatal := f.fatal

/-- The security island: MRAM and fuses kept; a download that was cut off leaves its slot INVALID (R470, R474). -/
def Sec.cold (x : Sec) : Sec where
  ownerAlg := x.ownerAlg
  ownerKey := x.ownerKey
  policy := x.policy
  slotA := { x.slotA with st := if x.slotA.st = 1 then 0 else x.slotA.st, chunk0 := false }
  slotB := { x.slotB with st := if x.slotB.st = 1 then 0 else x.slotB.st, chunk0 := false }
  preferredB := x.preferredB
  trialFlag := x.trialFlag
  bootedB := x.bootedB
  bootAttempts := x.bootAttempts
  recordSeq := x.recordSeq
  records := x.records
  nonce := x.nonce
  trustInstalls := x.trustInstalls
  debugNext := x.debugNext
  configDigest := x.configDigest

/-- Policy that takes effect at a boundary (R227, R385): the identity and region sizes change in force only at a start, and MRAM
totals are counted where they are. -/
def Policy.inForce (now next : Policy) : Policy :=
  { next with lenSel := now.lenSel, subVendor := now.subVendor, subId := now.subId, name := now.name, pwStagingMib := now.pwStagingMib,
              bar4Default := now.bar4Default, unsafeShutdowns := now.unsafeShutdowns, slicesLostEver := now.slicesLostEver,
              remoteTargets := now.remoteTargets }
/-- Policy as a cold reset reads it (R29, R302, R331, R385). -/
def Policy.stored (now next : Policy) : Policy :=
  { Policy.inForce now next with lenSel := next.lenSel, subVendor := next.subVendor, subId := next.subId, pwStagingMib := next.pwStagingMib,
                                 bar4Default := next.bar4Default }

/-- Every unit outside the always-on domain as a cold reset leaves it (R325, R519). -/
def coldCommon (s : State) : State :=
  let pol := Policy.stored s.pol s.polNext
  { s with
    pins := { s.pins with main := false, smbAlert := 0, tempOver := false, resumeCounting := false, resumeDone := false }
    clk := { startCause := s.clk.startCause, started := s.clk.started, keeper := s.clk.keeper, pllAux := s.clk.pllAux }
    sched := { lenSel := if 2 < pol.lenSel then 0 else pol.lenSel, floor := pol.floor }
    dev := {}
    sag := s.sag.cold
    vault := s.vault.cold
    arr := s.arr.cold
    pol := pol
    twin := s.twin.cold
    tpol := s.tpolNext
    coil := s.coil.cold (BitVec.ofNat 256 (drawn 4 s))
    ccnt := {}
    ep := {}
    cfg := { pmeEn := s.cfg.pmeEn, pmeStatus := s.cfg.pmeStatus, barSize := pol.bar4Default }
    msix := []
    pw := { stagingMib := pol.pwStagingMib, bar4Default := pol.bar4Default, era := s.pw.era + 1 }
    nvme := { cfs := s.fc.fatal, admitSeq := s.nvme.admitSeq }
    ncnt := {}
    mci := { counter := s.mci.counter, eid := s.mci.eid }
    kc := {}
    fc := s.fc.cold
    klog := klogCold [] s.klog
    sec := s.sec.cold
    tst := {}
    free := s.free + 4 }

/-- A stateless block of each valid trust slot is reserved at a cold reset (R276). -/
def coldTrust (s : State) : State := reserveStateless true (reserveStateless false s)

/-! ### Aux power (R524, R549, R560) -/

/-- AUX_POWER_ON: a cold reset. power_cycle increments, the straps are sampled, torn log slots are freed and recorded releases go
on when their namespaces appear (R8, R20, R392, R499, R549). -/
def auxOnHw (st : Straps) (h : Hw) : Hw := { h with powerCycle := h.powerCycle + 1, turn := 0, cycle := 0, straps := st }
def auxOn (st : Straps) (torn : List Nat) (s : State) : State :=
  let t := coldTrust (coldCommon { s with hw := auxOnHw st s.hw })
  { t with pins := { t.pins with aux := true, pfailRaw := true, pfailFilter := false, pfailFiltered := true, perst := true, wake := false },
           clk := { t.clk with startCause := 0, started := false, keeper := 0, pllAux := true },
           cfg := { t.cfg with pmeEn := false, pmeStatus := false }, mci := { t.mci with eid := 0 },
           klog := klogCold torn t.klog }
def execAuxPowerOn (straps : Straps) (torn : List Nat) (s : State) : Out :=
  if s.pins.main then done s s else doneHw (auxOnHw straps s.hw) s (auxOn straps torn s)

/-- AUX_POWER_REMOVED: everything but MRAM, fuses and the members' media is lost, and with it the FATAL state and THERMTRIP#
(R441, R560, R563). Removing aux power while a main supply is present is outside the specification (R10, R560). -/
def auxOff (s : State) : State :=
  let t := coldCommon s
  { t with pins := { t.pins with aux := false, wake := false, faultPin := false, thermtrip := false, pfailRaw := true, pfailFilter := false, pfailFiltered := true },
           clk := { t.clk with started := false, keeper := 0, pllAux := false },
           cfg := { t.cfg with pmeEn := false, pmeStatus := false }, mci := { t.mci with eid := 0 },
           nvme := { t.nvme with cfs := false }, fc := { t.fc with fatal := false } }
def execAuxPowerRemoved (s : State) : Out :=
  if ¬ s.pins.aux then done s s
  else if s.pins.main then .fault .auxRemovedWithMain
  else .next { auxOff s with pending := s.pending, hw := s.hw }

/-! ### Main power (R324, R325, R524, R525, R552) -/

/-- The turn at which the data path starts: 0 after a cold reset; after Main the keeper's value plus 1,024, the keeper having
advanced by an amount no rule fixes (R525). A value past the field's end rolls over (R43). -/
def keeperNow (s : State) : Nat := s.clk.keeper + freeNat 40 s
def startHw (kind : Nat) (s : State) : Hw :=
  if kind = 0 then { s.hw with turn := 0, cycle := 0 }
  else if keeperNow s + 1024 < 2 ^ 48 then { s.hw with turn := keeperNow s + 1024, cycle := 0 }
  else { s.hw with powerCycle := s.hw.powerCycle + 1, turn := 0, cycle := 0 }

/-- The units that come into service when the data path starts: kilns that passed their self-test and port groups (R21, R538). -/
def startService (s : State) (failedKilns : List Nat) : State :=
  let t := (List.range 4).foldl (fun u n => if u.kilnPresent n ∧ ¬ failedKilns.contains n then setKiln n true u else u) s
  let t := (List.range 6).foldl (fun u g => if u.groupPresent g then wantService (4 + g) true u else u) t
  let bad := failedKilns.filter s.kilnPresent
  let t := t.onTst fun x => { x with mbistFails := sat32 (x.mbistFails + bad.length) }
  raiseAll (bad.map (fun n => { source := 0x21 + 0x20 * n })) t

/-- The boot ROM starts: recovery boot with the strap, otherwise the slots are tried in the order of R465. -/
def startBoot (kind : Nat) (s : State) : State :=
  let strap := s.hw.straps.recovery
  let t := s.onSec fun x => { x with
    bootAttempts := x.bootAttempts + 1, bootStep := if strap then 0 else 1, fallback := kind == 2, fromRecovery := false,
    trialFlag := if kind = 2 then false else x.trialFlag, debugNext := false }
  t.onDev fun d => { d with recovering := true, recoveryBoot := strap, trial := s.sec.trialFlag && kind != 2, debugActive := s.sec.debugNext }

/-- The data path starts: PLLs lock, the die-to-die link trains, the kilns are tested and boot begins (R12, R464, R524, R536,
R538). The 10 ms count of R180 runs while PFAIL# is deasserted. -/
def startMain (kind : Nat) (failedLanes : List (Nat × Nat)) (failedKilns : List Nat) (s : State) : State :=
  let h := startHw kind s
  let coilAny := s.coilPresent 0 || s.coilPresent 1
  let t := { s with
    hw := h, free := if kind = 0 then s.free else s.free + 1,
    pins := { s.pins with main := true, resumeCounting := !s.pins.pfailRaw, resumeDone := false },
    clk := { s.clk with started := true, startCause := kind, pllCore := true, pllData := s.gradeC, pllIo := true, pllEth := coilAny,
                        slipx := s.slipPresent, eth := coilAny, keeper := if kind = 0 then 0 else if h.turn = 0 then 0 else keeperNow s },
    sched := { s.sched with running := true },
    tst := { s.tst with bundles := trainBundles failedLanes },
    twin := { s.twin with training := s.slipPresent },
    coil := { s.coil with training := BitVec.ofNat 2 (flag (s.coilPresent 0) 0 + flag (s.coilPresent 1) 1) },
    pol := { s.pol with unsafeShutdowns := s.pol.unsafeShutdowns + (if s.vault.status = .idle ∨ kind ≠ 0 then 0 else 1) } }
  let t := if h.powerCycle = s.hw.powerCycle then t
    else record { kind := 3, sev := 1, detail := [s.hw.powerCycle, h.powerCycle] } t
  startBoot kind (startService t failedKilns)

/-- MAIN_PWROK_ASSERTED: the first start after aux power, or a return of main power with aux held (R325, R524). Main power without
aux power is outside the supply order (R559). -/
def mainKind (s : State) : Nat := if s.clk.started then 1 else 0
def execMainPwrokAsserted (failedLanes : List (Nat × Nat)) (failedKilns : List Nat) (s : State) : Out :=
  if ¬ s.pins.aux then .fault .mainWithoutAux
  else if s.pins.main then done s s
  else doneHw (startHw (mainKind s) s) s (startMain (mainKind s) failedLanes failedKilns s)

/-- MAIN_PWROK_DEASSERTED: the data path stops in that cycle and no dump starts or continues; what main power held is lost
(R325, R552). -/
def execMainPwrokDeasserted (s : State) : Out := done s (if s.pins.main then coldTrust (coldCommon s) else s)

/-! ### Boot (R463 to R467) -/

/-- The slot being tried: PREFERRED, then the other; a recovery image is tried where it was downloaded. -/
def State.slotTried (s : State) : Bool := if s.sec.fromRecovery then s.sec.bootedB else xor s.sec.preferredB s.sec.fallback
/-- A slot is valid for boot (R463, R474). -/
def State.slotValid (s : State) (m : Manifest) : Bool :=
  (s.sec.slot s.slotTried).st == 2 && m.wellFormed && m.sigOk && decide (s.hw.svFloor ≤ m.secVersion) && (!s.sec.policy.requireCosig || s.cosigned m)

/-- A boot from a slot ends: the other slot is tried, then recovery boot (R465, R467). -/
def bootFailed (s : State) : State :=
  if s.sec.fromRecovery ∨ s.sec.fallback then
    (s.onSec fun x => { x with bootStep := 0, fallback := false, fromRecovery := false, running := {} }).onDev fun d => { d with recoveryBoot := true, trial := false }
  else (s.onSec fun x => { x with bootStep := 1, fallback := true, running := {} }).onDev fun d => { d with trial := false }

/-- DDR training: channels in service, capacity and speed, and the regions of the saggar (R125, R128, R129, R556). -/
def trainDdr (failed : List Nat) (gib speed : Nat) (s : State) : State :=
  let present := (List.range 8).filter s.ddrPresent
  let out := present.filter (fun c => failed.contains c)
  let good := present.filter (fun c => !failed.contains c)
  let cap := min (present.length * gib) 1024 * 262144
  let rx := if s.twin.areaReady then min (s.twin.declaredBudget / 4096) (cap / 4) else 0
  let rest := cap - (s.coil.cfg.unexpectedMib * 256 + s.pw.stagingMib * 256 + rx)
  let bits (l : List Nat) : BitVec 8 := BitVec.ofNat 8 (total (l.map (2 ^ ·)))
  let t := s.onSag fun g => { g with
    chanOut := bits out, capacityLines := cap, speed := speed, rxAreaLines := rx, poolLines := rest * 128 / 129,
    gatherTurns := gatherTurnsOf g.gatherAge s.turnNs }
  let t := t.onClk fun c => { c with ddr := bits good }
  good.foldl (fun u c => wantService (10 + c) true u) t

/-- Stage 2 releases the control complex: the boot is from this slot, DDR is trained, the persistent configuration is hashed and
a Firing Record is due (R464, R465, R469). A boot from the other slot becomes PREFERRED. -/
def releaseControl (ddrFailed : List Nat) (gib speed : Nat) (s : State) : State :=
  let b := s.slotTried
  let t := s.onSec fun x => { x with
    bootStep := 6, bootedB := b, preferredB := if x.fallback then b else x.preferredB, trialFlag := if x.fallback then false else x.trialFlag,
    fwVersion := x.running.fwVersion, microcode := x.running.microcode, recordDue := x.recordDue ++ [0],
    configDigest := BitVec.ofNat 256 (drawn 4 s) }
  trainDdr ddrFailed gib speed ({ t with free := s.free + 4 }.onClk fun c => { c with ccAny := true })

/-- The partition that each boot step waits for: STAGE1, OPTION_ROM, STAGE2, MICROCODE, CONTROL (R462, R464). -/
def partitionOf (step : Nat) : Nat := match step with | 1 => 1 | 2 => 5 | 3 => 2 | 4 => 4 | 5 => 3 | _ => 0

/-- PARTITION_VERIFIED (R463 to R465, R540). -/
def partitionVerified (partition : Nat) (slotB : Bool) (m : Manifest) (digestOk : Bool) (ddrFailed : List Nat) (gib speed : Nat) (s : State) : State :=
  let st := s.sec.bootStep
  if ¬ s.pins.main ∨ st = 0 ∨ 6 ≤ st ∨ partition ≠ partitionOf st ∨ slotB ≠ s.slotTried ∨ (4 ≤ st ∧ s.tst.extestSeen) then s
  else if st = 1 ∧ ¬ s.slotValid m ∨ ¬ digestOk then bootFailed s
  else if st = 1 then s.onSec fun x => { x with bootStep := 2, running := m }
  else if st = 5 then releaseControl ddrFailed gib speed s
  else s.onSec fun x => { x with bootStep := st + 1 }
def execPartitionVerified (partition : Nat) (slotB : Bool) (manifest : Manifest) (digestOk : Bool) (ddrFailed : List Nat) (ddrGiB ddrSpeed : Nat) (s : State) : Out :=
  done s (partitionVerified partition slotB manifest digestOk ddrFailed ddrGiB ddrSpeed s)

/-! ### Trial boots (R466) -/

/-- BOOT_OK: the trial is confirmed and TRIAL is cleared. -/
def execBootOk (s : State) : Out :=
  done s (if s.dev.trial ∧ s.sec.bootStep = 6 ∧ ¬ s.sec.trialFailed then s.onSec fun x => { x with trialFlag := false } else s)

/-- RECOVERY_PROGRESS_REPORT: a report that shows more progress than the one before moves the deadline. -/
def progressReport (arrays stripes : Nat) (s : State) : State :=
  if s.sec.progress.1 ≤ arrays ∧ s.sec.progress.2 ≤ stripes ∨ s.sec.progress.1 < arrays then s.onSec fun x => { x with progress := (arrays, stripes) } else s
def execRecoveryProgressReport (arrays stripes : Nat) (s : State) : Out :=
  done s (if s.sec.bootStep = 6 ∧ s.dev.recovering then progressReport arrays stripes s else s)

/-- BOOT_OK_DEADLINE_EXPIRED: the trial has failed. Admission stops at the next boundary, where an armed vault dumps as for a
filtered assertion. -/
def deadlineExpired (s : State) : State :=
  if s.dev.trial ∧ s.sec.trialFlag ∧ ¬ s.sec.trialFailed then
    let t := s.onSec fun x => { x with trialFailed := true }
    if s.vault.armed ∧ ¬ s.dev.holding then t.onVault fun v => { v with dumpPending := true } else t
  else s
def execBootOkDeadlineExpired (s : State) : Out := done s (deadlineExpired s)

/-- TRIAL_DIRTY_WAIT_EXPIRED: lines are left after 1 s and the vault is not armed; the dump of R176 runs when its conditions
hold. -/
def execTrialDirtyWaitExpired (s : State) : Out :=
  done s (if s.sec.trialFailed ∧ ¬ s.vault.armed ∧ s.vault.phase = .idle ∧ s.vault.configured ∧ s.vault.status = .idle ∧ s.completeSets ≠ [] ∧
              s.sag.lines.any (fun l => l.st == .dirty || l.st == .closing) then s.onVault fun v => { v with holdPending := true } else s)

/-- No line is DIRTY or CLOSING, or the dump is over: the trial may restart (R466 step 3). -/
def State.trialReady (s : State) : Bool :=
  s.sec.trialFailed && ((s.vault.phase == .holding && s.vault.status == .complete) ||
    (s.vault.phase != .dumping && !s.vault.dumpPending && !s.vault.holdPending && !s.sag.lines.any (fun l => l.st == .dirty || l.st == .closing)))
/-- Every unit outside the always-on domain restarts, and the other slot boots with TRIAL cleared (R466 step 3). -/
def restartHw (s : State) : Hw := startHw 2 (coldTrust (coldCommon s))
def trialRestart (s : State) : State :=
  startMain 2 (((List.range 16).flatMap (fun i => (s.bundle i).retired.map (fun l => (i, l))))) [] (coldTrust (coldCommon s))

/-! ### Clocks and crossings (R512 to R526) -/

/-- PLL_UNLOCK: 0 core, 1 data path, 2 I/O, 3 Ethernet, 4 aux; the PLL's source is raised (R512). -/
def pllSource (p : Nat) : Nat := match p with | 0 => 0x005 | 1 => 0x006 | 2 => 0x1E2 | 3 => 0x1E3 | _ => 0x0C0
def pllLocked (p : Nat) (c : Clk) : Bool := match p with | 0 => c.pllCore | 1 => c.pllData | 2 => c.pllIo | 3 => c.pllEth | 4 => c.pllAux | _ => false
def pllLose (p : Nat) (c : Clk) : Clk :=
  match p with
  | 0 => { c with pllCore := false }
  | 1 => { c with pllData := false }
  | 2 => { c with pllIo := false }
  | 3 => { c with pllEth := false }
  | _ => { c with pllAux := false }
def execPllUnlock (pll : Nat) (s : State) : Out :=
  done s (if pllLocked pll s.clk then raise { source := pllSource pll } (s.onClk (pllLose pll)) else s)

/-- Items sent after sequence number `last`, among 65,536 (R516, R520). -/
def sentAfter (last q : Nat) : Bool := let d := (q + 65536 - last) % 65536; decide (0 < d) && decide (d < 32768)
/-- The member commands that a port's side did not accept. -/
def State.abandoned (s : State) (n : CrossNote) : List Nat :=
  (s.arr.cmds.filter (fun c => c.sent && !c.timedOut && sentAfter n.lastAccepted c.xseq && (s.ns c.ns).any (fun x => x.onPort n.unit))).map (·.id)
/-- RESET_NOTIFICATION: launching stops; the commands sent after the last one accepted are abandoned and counted. They never
reached the drive and are issued again when the member returns (R198, R520). -/
def resetNotification (n : CrossNote) (s : State) : State :=
  let lost := s.abandoned n
  let t := s.onArr fun a => { a with cmds := mapIf a.cmds (fun c => lost.contains c.id) (fun c => { c with sent := false }) }
  t.onClk fun c => { c with oneSided := bump c.oneSided, crossDrops := sat32 (c.crossDrops + lost.length),
                            crossings := insert n.unit (((lookup c.crossings n.unit).map (·.1)).getD 0, true) c.crossings }
def execResetNotification (n : CrossNote) (s : State) : Out := done s (resetNotification n s)
/-- CROSSING_HANDSHAKE: the reset has ended and sequence numbers restart at 0 (R520). -/
def execCrossingHandshake (unit : Nat) (s : State) : Out := done s (s.onClk fun c => { c with crossings := erase unit c.crossings })

/-- Clocks that stop and wake, by domain: 0 control complex, 1 port group, 2 DDR channel, 3 Slip PHY, 4 Ethernet (R522, R526). -/
def clockRuns (d i : Nat) (c : Clk) : Bool :=
  match d with | 0 => c.ccAny | 1 => decide (i < 6) && c.ports.getLsbD i | 2 => decide (i < 8) && c.ddr.getLsbD i | 3 => c.slipx | 4 => c.eth | _ => false
def setClock (d i : Nat) (on : Bool) (c : Clk) : Clk :=
  match d with
  | 0 => { c with ccAny := on }
  | 1 => { c with ports := if on then c.ports ||| BitVec.ofNat 6 (2 ^ i) else c.ports &&& ~~~(BitVec.ofNat 6 (2 ^ i)) }
  | 2 => { c with ddr := if on then c.ddr ||| BitVec.ofNat 8 (2 ^ i) else c.ddr &&& ~~~(BitVec.ofNat 8 (2 ^ i)) }
  | 3 => { c with slipx := on }
  | 4 => { c with eth := on, pllEth := on }
  | _ => c
/-- The unit of a clock is present. -/
def State.clockPresent (s : State) (d i : Nat) : Bool :=
  match d with
  | 0 => s.sec.bootStep == 6
  | 1 => s.groupPresent i
  | 2 => s.ddrPresent i
  | 3 => s.slipPresent
  | 4 => s.coilPresent 0 || s.coilPresent 1
  | _ => false
/-- The condition under which a clock stops (R522). -/
def State.mayStop (s : State) (d i : Nat) : Bool :=
  match d with
  | 0 => true
  | 1 => !((List.range 48).any (fun p => groupOfPort p == i && ((s.port p).present || (s.port p).up)))
  | 2 => !s.inService (10 + i)
  | 3 => !s.twin.trained && !s.twin.training
  | _ => !s.inService 18 && !s.inService 19 && s.coil.training == 0
/-- WAKE_REQUEST: a stopped clock of a present unit starts and is counted (R523). -/
def execWakeRequest (domain index : Nat) (s : State) : Out :=
  done s (if s.pins.main ∧ s.clockPresent domain index ∧ ¬ clockRuns domain index s.clk ∧ domain < 5 then
    s.onClk fun c => { setClock domain index true c with wakes := bump c.wakes } else s)
/-- CLOCK_STOP: the clock stops while its condition of R522 holds. -/
def execClockStop (domain index : Nat) (s : State) : Out :=
  done s (if clockRuns domain index s.clk ∧ s.mayStop domain index then s.onClk (setClock domain index false) else s)

/-- Clock and reset registers (R526). -/
def clkReg (off : Nat) (s : State) : Option Nat :=
  let c := s.clk
  match off with
  | 0x000 => some (flag c.ccAny 0 + c.ports.toNat * 2 + c.ddr.toNat * 128 + flag c.slipx 15 + flag c.eth 16)
  | 0x004 => some (flag c.pllCore 0 + flag c.pllData 1 + flag c.pllIo 2 + flag c.pllEth 3 + flag c.pllAux 4)
  | 0x008 => some c.startCause
  | 0x00C => some c.crossDrops
  | 0x010 => some c.oneSided
  | 0x014 => some c.wakes
  | _ => none
/-- The RC registers of the block cleared by a read. -/
def clkClear (off : Nat) (s : State) : State :=
  s.onClk fun c => match off with
    | 0x00C => { c with crossDrops := 0 }
    | 0x010 => { c with oneSided := 0 }
    | 0x014 => { c with wakes := 0 }
    | _ => c

end Sys2Proof.Machine
end

