-- ==== Sys2Proof/Machine/Registers.lean ====
section
/-! DEFINITION. The register map (chapter 21): the global, turn scheduler and MCI status blocks, and the register accesses of the
host. Offsets are those of BAR2; a BAR0 register stands at 0x100000 plus its offset (log entry 2). -/
namespace Sys2Proof.Machine

/-! ### Blocks of this chapter (R44, R380, R571) -/

/-- DEVICE_STATUS (R571, R572). -/
def deviceStatus (s : State) : Nat :=
  let d := s.dev
  flag s.sched.running 0 + flag s.fc.fatal 1 + flag d.shownHolding 2 + flag d.shownRecovering 3 + flag d.recordSigned 4 + flag d.recoveryBoot 5 +
  flag d.trial 6 + flag d.debugActive 7 + flag d.activating 8 + flag d.restarting 9

/-- The global block (R571). -/
def globalReg (off : Nat) (s : State) : Option Nat :=
  match off with
  | 0x000 => some (field deviceIdBytes 0 4)
  | 0x004 => some (field deviceIdBytes 4 4)
  | 0x008 => some (field deviceIdBytes 8 4)
  | 0x00C => some (field deviceIdBytes 12 4)
  | 0x010 => some 0x00B17480
  | 0x014 => some (u32 s.sec.fwVersion)
  | 0x018 => some (u32 s.sec.microcode)
  | 0x01C => some s.hw.lifecycle.code
  | 0x020 => some s.hw.present.toNat
  | 0x024 => some s.unitService.toNat
  | 0x028 => some (deviceStatus s)
  | 0x02C => some 1
  | 0x030 => some s.sched.globalEvent.toNat
  | 0x034 => some s.sched.globalEventEn.toNat
  | 0x038 => some s.sched.globalVector
  | 0x03C => some (u32 s.hw.powerCycle)
  | 0x040 => some (u32 s.hw.opMinutes)
  | 0x044 => some s.sched.reservedAccesses
  | 0x048 => some s.sched.absentAccesses
  | _ => none

/-- The turn scheduler block (R44). -/
def turnReg (off : Nat) (s : State) : Option Nat :=
  let c := s.sched
  let f := c.snap
  match off with
  | 0x000 => some (c.lenSel + s.cycles * 65536)
  | 0x008 => some (u32 f.powerCycle)
  | 0x00C => some (u32 f.opMinutes)
  | 0x010 => some (u32 f.turn)
  | 0x014 => some (f.turn / 2 ^ 32 % 65536 + f.cycle % 4096 * 65536)
  | 0x018 => some c.floor
  | 0x01C => some c.overrunCount
  | 0x020 => some c.overrunLast.toNat
  | 0x024 => some c.admitLast
  | 0x028 => some c.bgShareLast
  | 0x030 => some (nth c.kilnUse 0 0)
  | 0x034 => some (nth c.kilnUse 1 0)
  | 0x038 => some (nth c.kilnUse 2 0)
  | 0x03C => some (nth c.kilnUse 3 0)
  | 0x040 => some c.saggarUse
  | _ => none

/-- The MCI status block (R380). -/
def mciReg (off : Nat) (s : State) : Option Nat :=
  match off with
  | 0x000 => some s.mci.rings
  | 0x004 => some s.mci.busy
  | 0x008 => some s.mci.authFails
  | 0x00C => some s.mci.sbHostAccess
  | 0x010 => some (bitmap (s.mci.mbs.map (fun m => m.st == .executing)))
  | _ => none

/-- The MSI-X table and the PBA (R311). -/
def msixReg (off : Nat) (s : State) : Option Nat :=
  if off < 0x8000 ∧ off % 4 = 0 then some (field (s.msixAt (off / 16)).bytes (off % 16) 4)
  else if 0x8000 ≤ off ∧ off < 0x8100 ∧ off % 4 = 0 then
    some (bitmap ((List.range 32).map (fun b => (s.msixAt ((off - 0x8000) * 8 + b)).pba)))
  else none

/-! ### The map (R567, R568) -/

/-- The value that a register reads; none is reserved space. -/
def regAt (off : Nat) (s : State) : Option Nat :=
  if 0x100000 ≤ off then (if off < 0x109000 then some (bar0Reg (off - 0x100000) s) else none)
  else if 0xF0000 ≤ off then msixReg (off - 0xF0000) s
  else if 0x40000 ≤ off then none
  else if 0x20000 ≤ off then mbReg (s.mb ((off - 0x20000) / 0x2000)) (off % 0x2000)
  else if 0x18000 ≤ off then none
  else if 0x14000 ≤ off then kcReg (off - 0x14000) s
  else if 0x10000 ≤ off then epReg (off - 0x10000) s
  else match off / 0x1000 with
    | 0x0 => globalReg (off % 0x1000) s
    | 0x1 => turnReg (off % 0x1000) s
    | 0x2 => clkReg (off % 0x1000) s
    | 0x3 => fcReg (off % 0x1000) s
    | 0x4 => klReg (off % 0x1000) s
    | 0x5 => sagReg (off % 0x1000) s
    | 0x6 => vaultReg (off % 0x1000) s
    | 0x7 => rebuildReg (off % 0x1000) s
    | 0x8 => twinReg (off % 0x1000) s
    | 0x9 => coilReg (off % 0x1000) s
    | 0xA => qeReg (off % 0x1000) s
    | 0xB => mciReg (off % 0x1000) s
    | 0xC => testReg (off % 0x1000) s
    | _ => none

/-- A read clears a register of access RC (R6). -/
def clearRc (off : Nat) (s : State) : State :=
  if 0x18000 ≤ off then s
  else if 0x14000 ≤ off then kcClear (off - 0x14000) s
  else if 0x10000 ≤ off then epClear (off - 0x10000) s
  else match off / 0x1000 with
    | 0x0 => s.onSched fun c => match off with
        | 0x044 => { c with reservedAccesses := 0 }
        | 0x048 => { c with absentAccesses := 0 }
        | _ => c
    | 0x1 => s.onSched fun c => if off = 0x101C then { c with overrunCount := 0 } else c
    | 0x2 => clkClear (off % 0x1000) s
    | 0x3 => fcClear (off % 0x1000) s
    | 0x4 => klClear (off % 0x1000) s
    | 0x5 => sagClear (off % 0x1000) s
    | 0x6 => vaultClear (off % 0x1000) s
    | 0x7 => rebuildClear (off % 0x1000) s
    | 0x8 => twinClear (off % 0x1000) s
    | 0x9 => coilClear (off % 0x1000) s
    | 0xA => qeClear (off % 0x1000) s
    | 0xB => s.onMci fun m => match off with
        | 0xB000 => { m with rings := 0 }
        | 0xB004 => { m with busy := 0 }
        | 0xB008 => { m with authFails := 0 }
        | 0xB00C => { m with sbHostAccess := 0 }
        | _ => m
    | 0xC => testClear (off % 0x1000) s
    | _ => s

/-- A register of an absent unit (R2, R570). -/
def absentReg (off : Nat) (s : State) : Bool :=
  (off / 0x1000 == 9 && !s.coilPresent 0 && !s.coilPresent 1) || (off / 0x1000 == 8 && !s.slipPresent) ||
  (List.range 4).any (fun n => off == 0x1030 + 4 * n && !s.kilnPresent n)

/-- LO registers: the kiln car's and the channels' address, chain and CRC pairs, and the 64-bit registers of BAR0 and of the
mailboxes (R333, R361, R433, R434, R518). -/
def isLo (off : Nat) : Bool :=
  off == 0x14008 || (decide (0x15000 ≤ off) && decide (off < 0x17000) && [0x20, 0x28, 0x40, 0x60].contains (off % 0x80)) ||
  [0x100000, 0x100028, 0x100030].contains off ||
  (decide (0x20000 ≤ off) && decide (off < 0x40000) && [0x20, 0x30].contains (off % 0x2000))

/-! ### Accesses (R569, R570) -/

/-- An access to reserved space, or a malformed write, is counted (R569). -/
def reservedAccess (off : Nat) (write : Bool) (s : State) : State :=
  let t := s.onSched fun c => { c with reservedAccesses := bump c.reservedAccesses }
  if write then t else emit (.regRead off 0) t
/-- An access to a register of an absent unit reads zero, is counted and raises ABSENT_UNIT_ACCESS (R2, R570). -/
def absentAccess (off : Nat) (write : Bool) (s : State) : State :=
  let t := s.onSched fun c => { c with absentAccesses := bump c.absentAccesses }
  let t := if write then t else emit (.regRead off 0) t
  raise { source := 0x000, access := flag write 0 + 1, addr := some off } t

/-- A host access to the function's BARs: reads of an unreachable function return all ones (R329); until configuration space is
ready and during an FLR memory requests are not accepted (R305, R328). -/
def hostAccess (off : Nat) (write : Bool) (s : State) (act : State → State) : State :=
  if ¬ s.reachable ∨ s.ep.d3hot then (if write then s else emit (.regRead off 0xFFFFFFFF) s)
  else if ¬ s.memReachable then s
  else if 0x3C000 ≤ off ∧ off < 0x40000 then sidebandHostAccess off write s
  else if absentReg off s then absentAccess off write s
  else if (regAt off s).isNone then reservedAccess off write s
  else act s

/-- RC_REGISTER_READ: the value before the clear (R6, R517). -/
def execRcRegisterRead (off : Nat) (s : State) : Out :=
  done s (hostAccess off false s (fun t => emit (.regRead off ((regAt off t).getD 0)) (clearRc off t)))
/-- LO_REGISTER_READ: the HI register of the pair is latched (R518). -/
def loRead (off : Nat) (s : State) : State :=
  let t := if isLo off then s.onClk fun c => { c with latches := insert (off + 4) ((regAt (off + 4) s).getD 0) c.latches } else s
  emit (.regRead off ((regAt off s).getD 0)) t
def execLoRegisterRead (off : Nat) (s : State) : Out := done s (hostAccess off false s (loRead off))
/-- HI_REGISTER_READ: the latched value, which is released, or the live one (R518). -/
def hiRead (off : Nat) (s : State) : State :=
  match lookup s.clk.latches off with
  | some v => emit (.regRead off v) (s.onClk fun c => { c with latches := erase off c.latches })
  | none => emit (.regRead off ((regAt off s).getD 0)) s
def execHiRegisterRead (off : Nat) (s : State) : Out := done s (hostAccess off false s (hiRead off))
/-- FT_SNAP0_READ: fine time is latched into the four registers, and power_cycle is returned (R44, R45). -/
def snapRead (s : State) : State :=
  let t := s.onSched fun c => { c with snap := s.now }
  emit (.regRead 0x1008 (u32 s.hw.powerCycle)) t
def execFtSnap0Read (s : State) : Out := done s (hostAccess 0x1008 false s snapRead)

/-- A write to a register without a row of its own, under its access code: registers that are read only ignore it (R5, R6). -/
def regWrite (off value : Nat) (s : State) : State :=
  let v := u32 value
  if 0x100000 ≤ off then bar0Write (off - 0x100000) v s
  else if 0x20000 ≤ off ∧ off < 0x3C000 then onMb ((off - 0x20000) / 0x2000) (mbWrite (off % 0x2000) v) s
  else if 0x14000 ≤ off ∧ off < 0x18000 then kcWriteReg (off - 0x14000) v s
  else if 0x10000 ≤ off ∧ off < 0x14000 then epWrite (off - 0x10000) v s
  else match off with
    | 0x3004 => s.onFc fun c => { c with irqMinSev := v % 8, irqEnable := bit v 3 }
    | 0x3008 => s.onFc fun c => { c with vector := v % 2048 }
    | 0x0034 => s.onSched fun c => { c with globalEventEn := BitVec.ofNat 4 v }
    | 0x0038 => s.onSched fun c => { c with globalVector := v % 2048 }
    | _ => s
def execRegisterWrite (off value : Nat) (s : State) : Out := done s (hostAccess off true s (regWrite off value))

/-- RESERVED_ACCESS: reserved space, or a write of a form that its register does not take (R569). -/
def execReservedAccess (off : Nat) (write : Bool) (s : State) : Out :=
  done s (hostAccess off write s (fun t => if write then reservedAccess off true t else t))
/-- ABSENT_UNIT_ACCESS (R2, R570). -/
def execAbsentUnitAccess (off : Nat) (write : Bool) (s : State) : Out := done s (hostAccess off write s id)

/-- GLOBAL_EVENT_WRITE: a written 1 clears its bit, unless an event of the same cycle sets it again (R6, R572). -/
def globalEventWrite (value : Nat) (coincident : BitVec 4) (s : State) : State :=
  let t := s.onSched fun c => { c with globalEvent := c.globalEvent &&& ~~~(BitVec.ofNat 4 value) }
  ((List.range 4).filter (fun b => coincident.getLsbD b)).foldl (fun u b => globalEvent b u) t
def execGlobalEventWrite (value : Nat) (coincident : BitVec 4) (s : State) : Out :=
  done s (hostAccess 0x0030 true s (globalEventWrite value coincident))

end Sys2Proof.Machine
end

