-- ==== Sys2Proof/Machine/TurnPlan.lean ====
section
/-! DEFINITION. The planning window (R30 to R41): the budgets of a turn, grants of stripe closes (R138 to R145, R162), kiln pieces
(R34, R35), saggar pieces (R155, R156), kiln car bursts (R424, R425) and member commands. -/
namespace Sys2Proof.Machine

/-! ### Budgets (R30, R31, R41) -/

/-- Budgets of R30 in proportion to the turn length, from their value at 1.024 µs. -/
def State.perTurn (s : State) (n : Nat) : Nat := n * s.turnNs / 1024
/-- Source bytes of a kiln in a turn. -/
def State.kilnBudget (s : State) : Nat := s.perTurn 262144
/-- A DDR channel's share: scaled by its speed (R30, R556). -/
def State.chanShare (s : State) : Nat := s.perTurn 49152 * s.sag.speed / 6400
/-- A channel refreshes in the turn planned (R31). -/
def State.refreshes (s : State) (c : Nat) : Bool :=
  let p := 8192 / s.turnNs
  s.planTurn % p == c % p
def refreshBytes : Nat := 4608
/-- New commands of a member port: a bifurcated group's ports have two lanes (R30, R547). -/
def State.portBudget (s : State) (p : Nat) : Nat := s.perTurn (if s.hw.straps.mportX4.getLsbD (groupOfPort p) then 8 else 4)
/-- Kiln car bursts of the device. -/
def State.burstBudget (s : State) : Nat := s.perTurn 64

/-- The reserve of background work; a vault dump suspends it (R41). -/
def reserveOf (budget floor gran : Nat) : Nat := max gran (budget * floor / 100 / gran * gran)
def State.reserve (s : State) (budget gran : Nat) : Nat :=
  if s.vault.phase = .dumping then 0 else reserveOf budget s.sched.floor gran

/-- What is left of every budget while a turn is planned: the whole, and the part host work may use. -/
structure Ledger where
  chan : List Nat := []
  chanHost : Nat := 0
  chanUsed : Nat := 0
  kiln : List Nat := []
  kilnHost : List Nat := []
  kilnUsed : List Nat := []
  kilnBg : Nat := 0
  port : List Nat := []
  portHost : List Nat := []
  bursts : Nat := 0
  burstsHost : Nat := 0
deriving DecidableEq, Repr

/-- What a channel has for the turn planned, its carried charge and its refresh taken off (R31, R36). -/
def State.chanRoom (s : State) (c : Nat) : Nat :=
  if s.chanUp c then s.chanShare - nth s.sched.carryChan c 0 - (if s.refreshes c then refreshBytes else 0) else 0
/-- Charge of a channel before any grant. -/
def State.chanTaken (s : State) (c : Nat) : Nat :=
  if s.chanUp c then min s.chanShare (nth s.sched.carryChan c 0 + (if s.refreshes c then refreshBytes else 0)) else 0
/-- What a kiln has: nothing out of service (R35, R36). -/
def State.kilnRoom (s : State) (n : Nat) : Nat := if s.kilns.contains n then s.kilnBudget - nth s.sched.carryKiln n 0 else 0
def State.kilnTaken (s : State) (n : Nat) : Nat := if s.kilns.contains n then min s.kilnBudget (nth s.sched.carryKiln n 0) else 0

/-- The budgets as a planning window opens. -/
def State.ledger (s : State) : Ledger :=
  let chans := (List.range 8).map s.chanRoom
  let device := s.chanShare * ((List.range 8).filter s.chanUp).length
  let kilns := (List.range 4).map s.kilnRoom
  let ports := (List.range 48).map s.portBudget
  { chan := chans, chanHost := total chans - s.reserve device 4096, chanUsed := total ((List.range 8).map s.chanTaken),
    kiln := kilns, kilnHost := kilns.map (fun b => b - s.reserve s.kilnBudget 4096), kilnUsed := (List.range 4).map s.kilnTaken,
    port := ports, portHost := ports.map (fun b => b - s.reserve b 1),
    bursts := s.burstBudget, burstsHost := s.burstBudget - s.reserve s.burstBudget 1 }

/-- Saggar charges on channels, all of which must fit (R33, R155). -/
def chargeChan (host : Bool) : List (Nat × Nat) → Ledger → Option Ledger
  | [], l => some l
  | (c, n) :: r, l =>
    if nth l.chan c 0 < n ∨ (host ∧ l.chanHost < n) then none
    else chargeChan host r { l with chan := nthMod l.chan c (fun x => x - n), chanUsed := l.chanUsed + n,
                                    chanHost := if host then l.chanHost - n else l.chanHost }

/-- The channel with the most left, for a charge that no line fixes. -/
def roomiest (l : Ledger) : Nat :=
  (List.range 8).foldl (fun b c => if nth l.chan b 0 < nth l.chan c 0 then c else b) 0

/-- `n` charges of 4 KiB on the roomiest channels: how many fit. -/
def chargeAny (host : Bool) : Nat → Ledger → Nat × Ledger
  | 0, l => (0, l)
  | k + 1, l => match chargeChan host [(roomiest l, 4096)] l with
    | some u => let (n, v) := chargeAny host k u; (n + 1, v)
    | none => (0, l)

/-- One kiln car burst, of host work or of another class. -/
def takeBurst (host : Bool) (n : Nat) (l : Ledger) : Option Ledger :=
  if l.bursts < n ∨ (host ∧ l.burstsHost < n) then none
  else some { l with bursts := l.bursts - n, burstsHost := if host then l.burstsHost - n else l.burstsHost }

/-! ### Closes (R138 to R145, R162, R195) -/

/-- Members to which a close of a stripe writes. -/
def Arr.closeMembers (a : Arr) (d : Desc) (n : Nat) : List Nat :=
  (List.range (descW d)).foldl (fun l q => (a.writeAt d n q).foldl (fun l p => addOnce p l) l) []
/-- A close waits for an UNAVAILABLE member, and for a failure that is not persisted (R192, R195). -/
def State.closeHeld (s : State) (a : Arr) (d : Desc) (n : Nat) : Bool :=
  (a.closeMembers d n).any (fun p => !((s.memberAt a p).map Ns.up).getD false)

/-- Whether the close of a ready stripe may be granted: no earlier close, no rebuild piece that is writing, its members there, its
generation below GEN_FLOOR, its permutation resident, and this side in possession of the array (R67, R68, R111, R144, R195, R253). -/
def State.mayClose (s : State) (a : Arr) (d : Desc) (n : Nat) : Bool :=
  !s.dev.holding && !s.vault.frozen && a.owner && s.fenceOk a && !s.closing a.id n d.gen &&
  (s.stripePieces a.id n d.gen).all (fun j => j.stage == 0) && !s.closeHeld a d n && decide (a.gen < a.body.genFloor) &&
  s.arr.perms.contains (a.id, d.gen, roundOf d n)

/-- A sector of a close as its line holds it: LOST where both copies are bad (R128). -/
def lineSec (l : Line) (q gen flags : Nat) : RoleSec :=
  if ¬ l.prim ∧ ¬ l.pair ∧ l.st ≠ .clean then lostSec l.volume q gen flags
  else { role := q, data := l.data, gen := gen, flags := flags, volume := l.volume, pi := l.pi, ok := true }

/-- The version of an array sector that a close writes, and the CLEAN one it may read. -/
def State.dirtyAt (s : State) (aid gen lba : Nat) : Option Line :=
  s.sag.lines.find? (fun l => l.at aid lba && l.st == .dirty && l.intentGen == gen)
def State.cleanAt (s : State) (aid lba : Nat) : Option Line := s.sag.lines.find? (fun l => l.at aid lba && l.st == .clean)

/-- One slice of a full close: every data sector from the saggar, on every copy of a mirror (R141). -/
def fullSlice (s : State) (a : Arr) (d : Desc) (n gen o : Nat) : Slice :=
  let pick (q : Nat) : Option Line := (s.dirtyAt a.id gen (lbaOf d n q o)).or (s.cleanAt a.id (lbaOf d n q o))
  let outs := if isMirror d then (pick 0).toList.flatMap (fun l => (List.range (descW d)).map (fun q => lineSec l q a.gen 0))
    else (List.range d.k).filterMap (fun q => (pick q).map (fun l => lineSec l q a.gen 0))
  { o := o, outs := outs, changed := List.range d.k }

/-- One slice of a partial close, if it has a DIRTY sector: its method, the old sectors the saggar holds, its erasures (R142, R202). -/
def partialSlice (s : State) (a : Arr) (d : Desc) (n gen o : Nat) (er : List Nat) : Option Slice :=
  let new := (List.range d.k).filterMap (fun q => (s.dirtyAt a.id gen (lbaOf d n q o)).map (fun l => (q, l)))
  match new with
  | [] => none
  | (_, l0) :: _ =>
    if isMirror d then some { o := o, outs := (List.range (descW d)).map (fun q => lineSec l0 q a.gen fRMW), changed := [0] }
    else
      let c := new.map (·.1)
      let old := ((List.range d.k).filter (fun q => !c.contains q)).filterMap (fun q => (s.cleanAt a.id (lbaOf d n q o)).map (fun l => lineSec l q 0 0))
      let er := er.filter (fun q => !old.any (fun r => r.role == q))
      some { o := o, outs := new.map (fun x => lineSec x.2 x.1 a.gen fRMW), changed := c, have_ := old, erased := er,
             delta := er == [] && !(List.range d.k).any (fun q => a.isLost (lbaOf d n q o)) && decide (c.length + d.m < d.k - c.length) }

/-- Uncommitted writes that still name the closing record get an OPEN one of their own (R144, R162). -/
def moveWaiters (a : Arr) (n dg gen : Nat) (s : State) : State :=
  let key := arrayKey a.body.uid
  (s.nvme.admitted.filter (fun c => c.uncommitted && c.waits.any (fun w => w.2.2 == gen))).foldl (fun t c =>
    let mask := ((touches a (c.lbas a)).find? (fun x => x.1 == n && x.2.1 == dg)).map (fun x => x.2.2)
    let u := openRecord key n dg (mask.getD 0) t
    let g := ((u.openRec key n dg).map (·.intentGen)).getD 0
    let swap (x : Cmd) : Cmd := { x with waits := x.waits.map (fun w => if w.2.2 = gen then (w.1, w.2.1, g) else w) }
    u.onNvme fun v => { v with admitted := mapIf v.admitted (fun x => x.seq == c.seq && x.admittedAt != none) swap }) s

/-- A close is granted: its lines and its record become CLOSING, the set it writes is fixed, and pieces of the stripe that have not
written are discarded to be planned again (R67, R144, R162). -/
def grantClose (a : Arr) (d : Desc) (n : Nat) (r : Rec) (s : State) : State :=
  let gen := r.intentGen
  let full := s.stripeWhole a d n
  let er := s.erasures a d n
  let sls := if full then (List.range (descSsec d)).map (fullSlice s a d n gen)
    else (List.range (descSsec d)).filterMap (fun o => partialSlice s a d n gen o er)
  let t := dropPieces a.id n d.gen s
  let t := writeRec gen (fun x => { x with st := .closing, closeGen := a.gen, full := full }) t
  let t := onLines (fun l => l.st == .dirty && l.array == a.id && l.intentGen == gen) (fun l => { l with st := .closing }) t
  let other (o : OpenStripe) : Bool := !(o.array == a.id && o.stripe == n && o.dg == d.gen)
  let t := t.onSag fun g => { g with openStripes := g.openStripes.filter other }
  let t := moveWaiters a n d.gen gen t
  let id := t.arr.nextJob
  let t := tookGen a.id (addJob { kind := if full then .fullClose else .partialClose, array := a.id, stripe := n, dg := d.gen, gen := a.gen,
                                  intentGen := gen, slices := sls, ringed := false } t)
  (List.range sls.length).foldl (fun u k =>
    let x := nth sls k {}
    if d.m < x.erased.length ∧ Slice.lacking d x ≠ [] then (match u.job id with | some j => sliceNext a d j k u | none => u)
    else sliceGo id k 8 u) t

/-! ### Kiln pieces (R34, R35, R57, R58, R156) -/

/-- The saggar charge of a piece of a close: its width per line of a full close, 4 KiB per sector of a partial one (R155). -/
def sagCharge (s : State) (j : Job) (d : Desc) (x : Slice) (w : Nat) : List (Nat × Nat) :=
  if ¬ (j.kind = .fullClose ∨ j.kind = .partialClose) then []
  else if j.kind = .partialClose ∧ x.pos ≠ 0 then []
  else (List.range d.k).filterMap fun q =>
    let lba := lbaOf d j.stripe q x.o
    (s.sag.lines.find? (fun l => l.at j.array lba && ((l.st == .closing && l.intentGen == j.intentGen) || l.st == .clean))).map
      fun l => (if l.prim ∧ s.chanUp (s.primChan l.no) then s.primChan l.no else s.pairOf (s.primChan l.no), if j.kind = .fullClose then w else 4096)

/-- The widest piece of a slice, from 4,096 down to 512 bytes, that `fits` (R34). -/
def pieceWidth (fits : Nat → Bool) : Nat → Nat → Option Nat
  | 0, _ => none
  | k + 1, w => if fits w then some w else if w ≤ 512 then none else pieceWidth fits k (w / 2)

/-- The kilns in the order of the turn's seat (R35). -/
def State.kilnOrder (s : State) : List Nat :=
  let ks := s.kilns
  let seat := s.planTurn % max ks.length 1
  ks.drop seat ++ ks.take seat

/-- Whether a job's outputs wait in a kiln's buffers for a burst (R57). -/
def bursty (d : Desc) (j : Job) (x : Slice) : Bool :=
  (isClose j.kind && Slice.lacking d x == []) || isRebuild j.kind || j.kind == .mend

/-- The kiln can take the piece: its decode matrix and permutation are resident and both output buffers have room (R57, R58, R68). -/
def State.kilnReady (s : State) (d : Desc) (j : Job) (x : Slice) (n : Nat) : Bool :=
  let new := if bursty d j x ∧ x.pos = 0 then kilnOutputs d j x * 2048 else 0
  s.arr.perms.contains (j.array, j.dg, roundOf d j.stripe) && decide (nth s.arr.kilnBufUsed n 0 + new ≤ 65536) &&
  (x.erased == [] || (isClose j.kind && Slice.lacking d x == []) || s.arr.matrices.contains (n, j.array, x.erased))

/-- An entry used last stands last, as least-recently-used order needs. -/
def usedLast {α : Type} [BEq α] (x : α) (l : List α) : List α := if l.contains x then l.filter (fun y => y != x) ++ [x] else l

/-- A piece is granted to a kiln. -/
def grantPiece (host : Bool) (d : Desc) (j : Job) (k : Nat) (x : Slice) (n w charge : Nat) (l : Ledger) (s : State) : Ledger × State :=
  let out := if bursty d j x then kilnOutputs d j x * 2048 else 0
  let bufs (b : List Nat) : List Nat :=
    if x.pos = 0 then nthMod b n (· + out) else nthMod (nthMod b x.kiln (· - out)) n (· + out)
  let t := onSlice j.id k (fun y => { y with phase := .granted, kiln := n, width := w, charge := charge, rerun := false }) s
  let t := t.onArr fun a => { a with kilnBufUsed := bufs a.kilnBufUsed, matrices := usedLast (n, j.array, x.erased) a.matrices,
                                     perms := usedLast (j.array, j.dg, roundOf d j.stripe) a.perms }
  ({ l with kiln := nthMod l.kiln n (· - charge), kilnHost := if host then nthMod l.kilnHost n (· - charge) else l.kilnHost,
            kilnUsed := nthMod l.kilnUsed n (· + charge), kilnBg := if host then l.kilnBg else l.kilnBg + charge }, t)

/-- One slice is dealt: to the first kiln of the order whose budget covers its charge; host work whose charge at 512 bytes exceeds
its part takes a kiln that has no other piece (R34, R35). A mirror's bytes need no kiln (R46, R71). -/
def dealSlice (host : Bool) (id k : Nat) (acc : Ledger × State) : Ledger × State :=
  let (l, s) := acc
  match s.job id with
  | none => acc
  | some j => match s.array j.array with
    | none => acc
    | some a =>
      let d := jobDesc a j
      let x := nth j.slices k {}
      if x.phase ≠ .ready then acc
      else if isMirror d then (l, pieceOutputs a d j k { x with pos := 4096 } (onSlice id k (fun y => { y with pos := 4096 }) s))
      else
        let part := if host then s.kilnBudget - s.reserve s.kilnBudget 4096 else s.kilnBudget
        let sag (w : Nat) : Option Ledger := chargeChan true (sagCharge s j d x w) l
        let place (w : Nat) (room : List Nat) (idle : Bool) : Ledger × State :=
          let c := kilnCharge d j x w
          match s.kilnOrder.find? (fun n => c ≤ nth room n 0 && (!idle || nth l.kilnUsed n 0 == 0)), sag w with
          | some n, some u => if s.kilnReady d j x n then grantPiece host d j k x n w c u s else acc
          | _, _ => acc
        match pieceWidth (fun w => decide (x.pos + w ≤ 4096) && decide (kilnCharge d j x w ≤ part) && (sag w).isSome) 4 4096 with
        | some w => place w (if host then l.kilnHost else l.kiln) false
        | none => if host ∧ part < kilnCharge d j x 512 then place 512 l.kiln true else acc

/-- Ready slices of jobs that `p` picks, arrays in the order of the seat, jobs and slices in ascending order (R39). -/
def State.readySlices (s : State) (p : Job → Bool) (again : Bool) : List (Nat × Nat) :=
  s.arraysBySeat.flatMap fun i => (s.arr.jobs.filter (fun j => j.array == i && p j)).flatMap fun j =>
    ((List.range j.slices.length).filter (fun k => (nth j.slices k {}).phase == .ready && (nth j.slices k {}).rerun == again)).map (fun k => (j.id, k))

def dealAll (host : Bool) (l : List (Nat × Nat)) (acc : Ledger × State) : Ledger × State := l.foldl (fun acc x => dealSlice host x.1 x.2 acc) acc

/-- Host kiln work (R38): closes and degraded reads. -/
def isHostJob (j : Job) : Bool := isClose j.kind || j.kind == .hostRead
/-- Background kinds in the order of R206. -/
def bgKinds : List (Job → Bool) :=
  [fun j => j.kind == .mend, fun j => j.kind == .rebuild || j.kind == .direct, fun j => j.kind == .copyback, fun j => j.kind == .migrate,
   fun j => j.kind == .scrub true || j.kind == .scrub false]

/-- Slices left by a faulty kiln run ahead of new pieces (R23). -/
def dealAgain (acc : Ledger × State) : Ledger × State :=
  let acc := dealAll true (acc.2.readySlices isHostJob true) acc
  dealAll false (acc.2.readySlices (fun j => !isHostJob j) true) acc
def dealHost (acc : Ledger × State) : Ledger × State := dealAll true (acc.2.readySlices isHostJob false) acc
def dealBackground (acc : Ledger × State) : Ledger × State := bgKinds.foldl (fun acc p => dealAll false (acc.2.readySlices p false) acc) acc

/-- A job has got a piece of its work: a kiln piece, a member read, or what waits for a burst. -/
def startedJob (j : Job) : Bool := j.slices.any (fun x => x.phase == .granted || x.phase == .reading || x.phase == .encoded)

/-- The close of one ready stripe is granted if its first piece is (R144). A stripe that holds no line of its record any more is not
open. -/
def tryClose (o : OpenStripe) (acc : Ledger × State) : Ledger × State :=
  let s := acc.2
  match s.array o.array with
  | none => acc
  | some a =>
    let d := a.descOf o.dg
    match s.openRec (arrayKey a.body.uid) o.stripe o.dg with
    | none => acc
    | some r =>
      if ¬ s.sag.lines.any (fun l => l.st == .dirty && l.array == a.id && l.intentGen == r.intentGen) then
        (acc.1, s.onSag fun g => { g with openStripes := g.openStripes.filter (fun x => x != o) })
      else if ¬ s.mayClose a d o.stripe then acc
      else
        let id := s.arr.nextJob
        let t := grantClose a d o.stripe r s
        let res := match t.job id with
          | some j => (List.range j.slices.length).foldl (fun u k => dealSlice true id k u) (acc.1, t)
          | none => (acc.1, t)
        if ((res.2.job id).map startedJob).getD true then res else acc

/-- Ready closes: arrays by the seat, then in the order in which they became ready (R39, R140). -/
def State.readyCloses (s : State) : List OpenStripe :=
  s.arraysBySeat.flatMap fun i => (s.sag.openStripes.filter (fun o => o.ready && o.array == i)).mergeSort (fun x y => x.order ≤ y.order)
def grantCloses (acc : Ledger × State) : Ledger × State := acc.2.readyCloses.foldl (fun acc o => tryClose o acc) acc

/-! ### Saggar pieces and kiln car bursts (R33, R38, R155, R424, R425) -/

/-- MIRROR lines that have come in are charged first (R38, R155). -/
def chargeMirror (acc : Ledger × State) : Ledger × State :=
  let new := acc.2.sag.lines.filter (fun l => l.st == .mirror && !l.granted)
  let (n, l) := chargeAny false new.length acc.1
  (l, onLines (fun x => (new.take n).any (fun y => y.no == x.no)) (fun x => { x with granted := true }) acc.2)

/-- The landing of one line: 4 KiB on each of its two channels. -/
def landLine (n : Nat) (acc : Ledger × State) : Ledger × State :=
  let c := acc.2.primChan n
  match chargeChan true ([c, acc.2.pairOf c].filter acc.2.chanUp |>.map (fun x => (x, 4096))) acc.1 with
  | some l => (l, onLines (fun x => x.no == n) (fun x => { x with granted := true }) acc.2)
  | none => acc

/-- A sector that a read has ready moves to the host: a hit is charged 4 KiB. -/
def sendSector (c : Cmd) (i : Nat) (acc : Ledger × State) : Ledger × State :=
  let hit := (acc.2.array c.array).bind (fun a => acc.2.version a.id (c.lba a i) c.seq)
  let ch := match hit with
    | some x => if acc.2.chanUp (acc.2.primChan x.no) then [(acc.2.primChan x.no, 4096)] else [(acc.2.pairOf (acc.2.primChan x.no), 4096)]
    | none => []
  match chargeChan true ch acc.1 with
  | some l => (l, onCmd c.sqid c.e.cid (fun x => { x with granted := addOnce i x.granted }) acc.2)
  | none => acc

/-- Four sectors at most share a burst of 16 KiB. -/
def fours (k : Nat) (l : List Nat) : List (List Nat) :=
  match k with
  | 0 => []
  | k + 1 => if l = [] then [] else l.take 4 :: fours k (l.drop 4)

/-- The bursts of one host command. -/
def cmdBursts (c : Cmd) (acc : Ledger × State) : Ledger × State :=
  let lines := (acc.2.sag.lines.filter (fun l => l.st == .pending && l.sqid == c.sqid && l.cid == c.e.cid && !l.written && !l.granted)).map (·.no)
  let secs := (c.arrived.map (·.1)).filter (fun i => !c.granted.contains i)
  let acc := (fours lines.length lines).foldl (fun u g => match takeBurst true 1 u.1 with
    | some l => g.foldl (fun v n => landLine n v) (l, u.2)
    | none => u) acc
  (fours secs.length secs).foldl (fun u g => match takeBurst true 1 u.1 with
    | some l => g.foldl (fun v i => sendSector c i v) (l, u.2)
    | none => u) acc
/-- Host commands move their data in admission order (R33). -/
def hostBursts (acc : Ledger × State) : Ledger × State := acc.2.nvme.admitted.foldl (fun u c => if c.sqid = 0 ∨ c.e.opc = 0x0C then u else cmdBursts c u) acc

/-- The outputs of one slice of a job move to the port buffers; a mirror's close takes its sector from the saggar then (R57, R141). -/
def sliceBurst (host : Bool) (id k : Nat) (acc : Ledger × State) : Ledger × State :=
  match acc.2.job id with
  | none => acc
  | some j =>
    let x := nth j.slices k {}
    if x.phase ≠ .encoded ∨ x.burst then acc
    else
      let sag := match acc.2.array j.array with
        | some a => if isMirror (jobDesc a j) then sagCharge acc.2 j (jobDesc a j) x 4096 else []
        | none => []
      match (takeBurst host (max 1 (cdiv (x.outs.length * 4096) 16384)) acc.1).bind (chargeChan true sag) with
      | some l => (l, onSlice id k (fun y => { y with burst := true }) acc.2)
      | none => acc
def jobBursts (host : Bool) (acc : Ledger × State) : Ledger × State :=
  (acc.2.arr.jobs.filter (fun j => isHostJob j == host)).foldl (fun u j =>
    (List.range j.slices.length).foldl (fun v k => sliceBurst host j.id k v) u) acc

/-- The request line of a channel's descriptor, if it has one. -/
def Chan.line (c : Chan) : Option Nat := match c.desc with | some d => if d.reqLine = 0xFF then none else some d.reqLine | none => none
/-- A channel waits for a burst. -/
def State.wantsBurst (s : State) (i : Nat) : Bool :=
  let c := s.chan i
  match c.desc with
  | none => false
  | some d => c.active? && !c.granted && !s.kc.halted && decide (c.bytesDone < d.byteCount) && (s.cfg.busMaster || !c.touchesHost) &&
      match c.line with | some r => decide (0 < nth s.kc.reqs r 0) | none => true
/-- Requesters from the seat on. -/
def fromSeat (seat n : Nat) : List Nat := (List.range n).map (fun i => (seat + i) % n)
/-- A channel gets a burst, and uses up a request of its line. -/
def chanBurst (host : Bool) (i : Nat) (acc : Ledger × State) : Ledger × State :=
  if ¬ acc.2.wantsBurst i then acc
  else match takeBurst host 1 acc.1 with
    | none => acc
    | some l =>
      let t := onChan i (fun c => { c with granted := true }) acc.2
      (l, match (acc.2.chan i).line with | some r => t.onKc fun k => { k with reqs := nthMod k.reqs r (· - 1) } | none => t)
/-- Channels by their seat, then those that wait for request lines by the lines' seat. Maintenance channels are background. -/
def chanBursts (host : Bool) (acc : Ledger × State) : Ledger × State :=
  let t := acc.2.planTurn
  let mine := (fromSeat (t % 64) 64).filter (fun i => isMaint i != host)
  let acc := (mine.filter (fun i => (acc.2.chan i).line.isNone)).foldl (fun u i => chanBurst host i u) acc
  (fromSeat (t % 96) 96).foldl (fun u r => (mine.filter (fun i => (u.2.chan i).line == some r)).foldl (fun v i => chanBurst host i v) u) acc

/-- Lines to be rewritten: background work of 8 KiB each (R127, R155). -/
def grantRewrites (acc : Ledger × State) : Ledger × State :=
  acc.2.sag.rewrites.foldl (fun u n => match u.2.lineAt n with
    | none => u
    | some x =>
      if x.granted then u
      else match (chargeChan false [(u.2.pairOf (u.2.primChan n), 4096)] u.1).bind (chargeChan false [(roomiest u.1, 4096)]) with
        | some l => (l, onLines (fun y => y.no == n) (fun y => { y with granted := true }) u.2)
        | none => u) acc

/-- Coil payload that waits in the receive buffers moves into the saggar, 4 KiB a granule (R292). -/
def chargeRx (acc : Ledger × State) : Ledger × State :=
  let (n, _) := drainRx 4096 acc.2
  let (m, l) := chargeAny true n acc.1
  (l, (drainRx m acc.2).2)

/-! ### Member commands (R30, R38, R166, R173) -/

/-- The array that a member command works for. -/
def State.cmdArray (s : State) (c : MCmd) : Nat :=
  match s.job c.job with
  | some j => j.array
  | none => ((s.ns c.ns).bind (fun n => (s.arr.arrays.find? (fun a => a.body.uid == n.arrayUid)).map (·.id))).getD 0

/-- The saggar and burst charge of a dump's group: one read of each line, with the first copy set's Write (R155, R173). -/
def dumpCharge (s : State) (c : MCmd) (l : Ledger) : Option Ledger :=
  match s.job c.job with
  | some j =>
    let first := (s.arr.jobs.filter (fun x => x.kind == .dump)).all (fun x => decide (j.stripe ≤ x.stripe))
    if j.kind ≠ .dump ∨ c.count = 1 ∨ ¬ first then some l
    else
      let (n, u) := chargeAny false (c.count - 1) l
      if n = c.count - 1 then takeBurst false (cdiv (n * 4096) 16384) u else none
  | none => some l

/-- One waiting command is sent when its port's budget has room; commands to remote members go by the Coil engine. -/
def sendOne (id : Nat) (acc : Ledger × State) : Ledger × State :=
  match acc.2.arr.cmds.find? (fun c => c.id == id) with
  | none => acc
  | some c =>
    if ¬ acc.2.maySend c then acc
    else match acc.2.ns c.ns with
      | none => acc
      | some n =>
        match (if c.cls = 0 then dumpCharge acc.2 c acc.1 else some acc.1) with
        | none => acc
        | some l =>
          if n.loc.remote then (l, sendCmd id acc.2)
          else
            let p := n.loc.port
            if nth l.port p 0 = 0 ∨ (c.cls = 1 ∧ nth l.portHost p 0 = 0) then acc
            else ({ l with port := nthMod l.port p (· - 1), portHost := if c.cls = 1 then nthMod l.portHost p (· - 1) else l.portHost }, sendCmd id acc.2)

/-- Waiting commands of a class, arrays by the seat; the dump's in their order (R38, R39). -/
def sendClass (cls : Nat) (acc : Ledger × State) : Ledger × State :=
  let seat := acc.2.planTurn % 64
  let mine := acc.2.arr.cmds.filter (fun c => c.cls == cls && !c.sent)
  let order := if cls = 0 then mine else mine.mergeSort (fun x y => (acc.2.cmdArray x + 64 - seat) % 64 ≤ (acc.2.cmdArray y + 64 - seat) % 64)
  order.foldl (fun u c => sendOne c.id u) acc

/-! ### The window (R32, R33, R38) -/

/-- At most four ring sectors per half, arrays by the seat (R166). -/
def ringWrites (s : State) : State := s.arraysBySeat.foldl (fun t i => ringSectors i 4 t) s

/-- Jobs whose slices are delivered issue their Writes. -/
def issueAll (s : State) : State := (s.arr.jobs.map (·.id)).foldl (fun t i => issueWrites i t) s

/-- Reads that waited for a close go on (R145). -/
def resumeReads (s : State) : State :=
  (s.arr.jobs.filter (fun j => (j.kind == .hostRead || j.kind == .migrate) && (s.jobCmds j.id) == [])).foldl (fun t j => sliceGo j.id 0 8 t) s

/-- Granting, class by class. -/
def planGrants (s : State) : Ledger × State :=
  let acc : Ledger × State := (s.ledger, s)
  let acc := chargeMirror (sendClass 0 acc)
  let acc := dealHost (dealAgain acc)
  let acc := chanBursts true (jobBursts true (hostBursts (grantCloses acc)))
  let acc : Ledger × State := chargeRx acc
  let acc := sendClass 1 (acc.1, ringWrites (issueAll acc.2))
  let acc := dealBackground (acc.1, background acc.2)
  sendClass 2 (chanBursts false (jobBursts false (grantRewrites acc)))

/-- What the window leaves for the boundary: grants, kilns in service, and charge still carried (R35, R36, R44). -/
def planned (s0 : State) (l : Ledger) (s : State) : State :=
  let whole := s0.kilnBudget * s0.kilns.length
  let t := s.onSched fun c => { c with
    serviceNext := c.servicePending, kilnPlanned := l.kilnUsed, kilnBgPlanned := if whole = 0 then 0 else l.kilnBg * 100 / whole,
    saggarPlanned := l.chanUsed,
    carryKiln := (List.range 4).map (fun n => nth c.carryKiln n 0 - (if s0.kilns.contains n then s0.kilnBudget else 0)),
    carryChan := (List.range 8).map (fun n => nth c.carryChan n 0 - (if s0.chanUp n then s0.chanShare else 0)) }
  t.onKc fun k => { k with burstsPlanned := s0.burstBudget - l.bursts }

/-- Fine time in the window: at its first cycle, or later (R32). -/
def windowHw (s : State) : Hw := { s.hw with cycle := max s.hw.cycle (s.cycles / 16 * 15) }

/-- PLANNING_WINDOW: admission first, then the grants, then the twin and Coil links. A failed trial admits nothing (R466). -/
def planningWindow (s0 : State) : State :=
  let s := { s0 with hw := windowHw s0 }
  let t := if s.sec.trialFailed then s else admitAll s
  let (l, t) := planGrants (resumeReads t)
  (sendCoil (sendSlip (planned s l t))).onSched fun c => { c with planned := true }
def execPlanningWindow (s : State) : Out :=
  if s.sched.running ∧ ¬ s.sched.planned then doneHw (windowHw s) s (planningWindow s) else done s s

/-- BURST_COMPLETE (R57, R146, R424). -/
def execBurstComplete (ref : BurstRef) (s : State) : Out :=
  done s (match ref with
    | .channel ch data index => if ch < 64 then channelBurst ch data index s else s
    | .job id k => jobBurst id k s
    | .hostRead q cid i => hostBurst q cid i s)

end Sys2Proof.Machine
end

