-- ==== Sys2Proof/Machine/TurnSched.lean ====
section
/-! DEFINITION. The turn boundary: everything the spec lets take effect there (R36, R42 to R44 and the rules named below). -/
namespace Sys2Proof.Machine

/-! ### Time (R42, R43, R525) -/

/-- The turn advances; a rollover is recorded, and the keeper follows every 1,024 turns. -/
def advanceTurn (s : State) : State :=
  let h := s.hw.nextTurn
  let t := { s with hw := h }
  let t := if h.powerCycle = s.hw.powerCycle then t else record { kind := 3, sev := 1, detail := [s.hw.powerCycle, h.powerCycle] } t
  if h.turn % 1024 = 0 then t.onClk fun c => { c with keeper := h.turn } else t

/-! ### Policy that takes effect (R41, R139, R160, R227, R264, R448) -/

/-- A source's severity and AUTO_ACK as they were set. -/
def srcBoundary (x : Src) : Src := { x with configured := x.next.getD x.configured, next := none, autoAck := x.autoAckNext.getD x.autoAck, autoAckNext := none }

def policyBoundary (s : State) : State :=
  let p := Policy.inForce s.pol s.polNext
  let t := { s with pol := p, tpol := s.tpolNext }
  let t := t.onSched fun c => { c with floor := p.floor }
  let t := t.onSag fun g => { g with gatherTurns := gatherTurnsOf g.gatherAge s.turnNs, highWater := g.highWaterNext, dirtyBudget := g.dirtyBudgetNext }
  let t := t.onFc fun f => { f with srcs := f.srcs.map srcBoundary }
  t.onArr fun a => { a with rateDebt := a.rateDebt - p.rateCap * s.turnNs / 1000 }

/-! ### Write-through and high water (R128, R150 to R152, R178) -/

/-- Saggar ECC is degraded (R128). -/
def State.eccDegraded (s : State) : Bool := s.sag.ueSeen != 0 || (List.range 8).any (fun c => s.ddrPresent c && s.sag.chanOut.getLsbD c)

/-- Arming and the causes as they are at the boundary; the stripes of volumes that run write-through close, and those that lines
gone CLEAN have made complete (R140). -/
def causesBoundary (s : State) : State :=
  let t := s.onVault fun v => { v with armed := s.mayArm }
  let t := t.onSag fun g => { g with causeVault := !s.mayArm, causeEcc := s.eccDegraded, causeTwin := s.twin.st != .mirroring }
  t.sag.openStripes.foldl (fun u o => match u.array o.array with
    | some a =>
      let d := a.descOf o.dg
      let through := match a.volume (ownerOf a.body.extents (o.stripe * descDsec d)) with
        | some v => u.writeThrough a v
        | none => false
      if !o.ready && (through || u.stripeWhole a d o.stripe) then readyClose o.array o.stripe o.dg u else u
    | none => u) t

/-- DIRTY lines of an open stripe. -/
def State.dirtyIn (s : State) (o : OpenStripe) : Nat :=
  match s.array o.array with
  | some a => (s.dirtyOf a (a.descOf o.dg) o.stripe).length
  | none => 0

/-- While high water is active the oldest open stripes are treated as expired, until the rest lies below it (R150). -/
def highWaterBoundary (s : State) : State :=
  let limit := s.sag.highWater * s.budgetLines
  let active := decide (s.sag.poolLines ≠ 0 ∧ limit ≤ s.dirtyTotal * 100)
  let t := s.onSag fun g => { g with highWaterActive := active }
  if ¬ active then t
  else
    let older (x y : OpenStripe) : Bool := decide (x.start < y.start ∨ x.start = y.start ∧ (x.array < y.array ∨ x.array = y.array ∧ x.stripe ≤ y.stripe))
    ((s.sag.openStripes.mergeSort older).foldl (fun (acc : Nat × State) o =>
      if acc.1 * 100 < limit then acc else (acc.1 - s.dirtyIn o, readyClose o.array o.stripe o.dg acc.2)) (s.dirtyTotal, t)).2

/-! ### Hold and dump (R172, R175 to R177, R466) -/

/-- Writes that are not committed end, and fetched commands with them: with Command Interrupted while the host endpoint is up. -/
def interruptCommands (s : State) : State :=
  let cs := s.nvme.admitted.filter Cmd.uncommitted
  let t := if s.ep.up then cs.foldl (fun u c => cmdFail c.sqid c.e.cid scInterrupted u) s
    else cs.foldl (fun u c => dropWrite c (u.onNvme fun n => { n with admitted := n.admitted.filter (fun x => x.seq != c.seq || x.admittedAt == none) })) s
  if t.ep.up then t.nvme.fetched.foldl (fun u c => completeEarly c scInterrupted u) t else t

/-- A dump or a hold that is due begins: commands end, then the device holds. -/
def holdBoundary (s : State) : State :=
  if s.vault.dumpPending ∨ s.vault.holdPending ∨ s.vault.emergency then (boundaryPower (interruptCommands s)).onDev fun d => { d with holding := true }
  else if s.dev.holding ∧ s.vault.phase = .idle ∧ ¬ s.fc.fatal then s.onDev fun d => { d with holding := false }
  else s

/-- A failed trial admits nothing from the boundary on; with no line left its dump is not needed (R466). -/
def trialBoundary (s : State) : State :=
  if ¬ s.sec.trialFailed then s
  else
    let lines := s.sag.lines.any (fun l => l.st == .dirty || l.st == .closing)
    let t := if lines then s else s.onVault fun v => { v with dumpPending := false }
    if t.ep.up then t.nvme.fetched.foldl (fun u c => completeEarly c scInterrupted u) t else t

/-! ### Overruns (R36) -/

/-- One unit's unfinished work: its fault, the counts, and the charge it carries. -/
def overrun (o : Overrun) (s : State) : State :=
  let t := s.onSched fun c => { c with overrunCount := bump c.overrunCount, overrunLast := o.loc }
  let t := match o.kiln with | some n => t.onSched fun c => { c with carryKiln := nthMod c.carryKiln n (· + o.charge) } | none => t
  let t := match o.channel with | some n => t.onSched fun c => { c with carryChan := nthMod c.carryChan n (· + o.charge) } | none => t
  raise { source := 0x001, loc := some o.loc } t

/-! ### The array engine (R66, R143, R195, R315) -/

/-- Progress committed in the turn is in force. -/
def exactBoundary (s : State) : State :=
  s.onArr fun x => { x with arrays := x.arrays.map (fun a => { a with exact := a.exactNext.foldl (fun l p => insert p.1 p.2 l) a.exact, exactNext := [] }) }

/-- Closes whose acknowledgement waited: for a failure to be persisted, or for the journal. -/
def retryCloses (s : State) : State := (s.arr.jobs.filter (fun j => isClose j.kind && j.stage == 9)).foldl (fun t j => closeWritten j t) s

/-- Decode matrices of an array go when its erasure set changes (R58). -/
def dropMatrices (s : State) : State :=
  let ids := s.arr.ns.filterMap (fun n => if n.declare.isSome then (s.arr.arrays.find? (fun a => a.body.uid == n.arrayUid)).map (·.id) else none)
  s.onArr fun x => { x with matrices := x.matrices.filter (fun m => !ids.contains m.2.1) }

/-! ### Registers and status (R21, R44, R571, R572) -/

/-- Registers of the previous turn, and the grants that are now in force. -/
def turnRegisters (s : State) : State :=
  let on := s.sched.planned
  let t := s.onSched fun c => { c with
    planned := false, admitLast := c.admitCur, bgShareLast := c.bgCur, kilnUse := c.kilnCur, saggarUse := c.saggarCur,
    admitCur := if on then c.admitPlanned else 0, bgCur := if on then c.kilnBgPlanned else 0,
    kilnCur := if on then c.kilnPlanned else [0, 0, 0, 0], saggarCur := if on then c.saggarPlanned else 0, admitPlanned := 0 }
  t.onKc fun k => { k with burstsLast := k.burstsCur, burstsCur := if on then k.burstsPlanned else 0 }

/-- UNIT_SERVICE takes the changes: kilns as the turn was planned, other units as they are wanted (R21, R23, R35). -/
def serviceAt (s : State) : W32 :=
  let k : W32 := if s.sched.planned then s.sched.serviceNext else s.sched.servicePending
  ((k &&& 0xF#32) ||| (s.sched.servicePending &&& 0xFFFFFFF0#32)) &&& s.hw.present

/-- Each change is recorded, and a waiting fence or return completes (R21, R387). -/
def serviceBoundary (s : State) : State :=
  let new := serviceAt s
  let old := s.sched.service
  if new = old then s
  else
    let t := globalEvent 0 (s.onSched fun c => { c with service := new })
    let t := ((List.range 32).filter (fun b => new.getLsbD b != old.getLsbD b)).foldl (fun u b =>
      record { kind := 2, keyA := b, keyB := if new.getLsbD b then 1 else 2, sev := 1, detail := [new.toNat] } u) t
    ((List.range 4).filter (fun b => new.getLsbD b != old.getLsbD b)).foldl (fun u n => finishUnit 1 n (u.unitResult 1 n) u) t

/-- DEVICE_STATUS and GLOBAL_EVENT (R572). -/
def statusBoundary (s : State) : State :=
  let d := s.dev
  let busy := d.activating || d.restarting
  let t := s.onDev fun d => { d with shownHolding := d.holding, shownRecovering := d.recovering, shownBusy := busy }
  let t := if d.holding = d.shownHolding then t else globalEvent 1 t
  let t := if d.shownRecovering ∧ ¬ d.recovering then globalEvent 2 t else t
  if d.shownBusy ∧ ¬ busy then globalEvent 3 t else t

/-! ### The boundary -/

/-- What ends with the old turn and takes effect in the data path, in this order: policy and causes, commits, a dump or a hold. -/
def dataBoundary (s : State) : State :=
  let t := flushAll (commitAll (causesBoundary (policyBoundary s)))
  serveReads (holdBoundary (trialBoundary t))

/-- Metadata, members, recovery, volumes, twin and Coil. -/
def arrayBoundary (s : State) : State :=
  let t := declareAll (dropMatrices (marksBoundary (exactBoundary s)))
  let t := recoveryBoundary (retryCloses t)
  coilBoundary (twinBoundary (volumeBoundary (exportBoundary t)))

/-- The host side. -/
def hostBoundary (s : State) : State :=
  let t := irqModeBoundary s
  let t := if t.ep.atcFlush then t.onEp fun e => { e with atc := [], atcFlush := false } else t
  let t := surpriseDown (pwBoundary t)
  let t := t.onEp fun e => { e with d3Stop := e.d3hot }
  let t := t.onNvme fun n => { n with fetchStop := n.shst != 0 }
  healthEvents (signalCoalesced (carRestart t))

/-- LED of a port is on while the port's member is FAILED (R548). -/
def ledBoundary (s : State) : State :=
  s.onArr fun a => { a with ports := (List.range a.ports.length).map (fun p =>
    { nth a.ports p {} with led := s.arr.ns.any (fun n => n.onPort p && (n.failing.isSome || n.stale)) }) }

/-- Units, tests, activation and the Kiln Log. -/
def unitBoundary (s : State) : State := klogBoundary (startActivation (serviceBoundary (d2dBoundary (testBoundary (ledBoundary s)))))

/-- Everything that happens at the boundary. `unfinished` is what the units report. The new turn starts at cycle 0 (R42). -/
def turnBoundary (unfinished : List Overrun) (s : State) : State :=
  let t := advanceTurn s
  let t := unfinished.foldl (fun u o => overrun o u) t
  let t := highWaterBoundary (arrayBoundary (dataBoundary t))
  let t := statusBoundary (turnRegisters (unitBoundary (hostBoundary t)))
  { t with hw := s.hw.nextTurn }
/-- TURN_BOUNDARY. A failed trial with nothing left restarts (R466). -/
def execTurnBoundary (unfinished : List Overrun) (s : State) : Out :=
  if s.sched.running then
    let t := turnBoundary unfinished s
    if t.trialReady then doneHw (restartHw t) s (trialRestart t) else doneHw s.hw.nextTurn s t
  else done s s

end Sys2Proof.Machine
end

