-- ==== Sys2Proof/Machine/Dispatch.lean ====
section
/-! DEFINITION. The dispatch of every command to its meaning, one arm per row of spec/opcode_table.json. -/
namespace Sys2Proof.Machine

/-- The effect of a command on everything but the queue. -/
def exec (i : Instr) (s : State) : Host.Outcome State Fault Refusal :=
  match i with
  | .auxPowerOn straps torn => Sys2Proof.Machine.execAuxPowerOn straps torn s
  | .auxPowerRemoved => Sys2Proof.Machine.execAuxPowerRemoved s
  | .mainPwrokAsserted failedLanes failedKilns => Sys2Proof.Machine.execMainPwrokAsserted failedLanes failedKilns s
  | .mainPwrokDeasserted => Sys2Proof.Machine.execMainPwrokDeasserted s
  | .pfailFall => Sys2Proof.Machine.execPfailFall s
  | .pfailRise => Sys2Proof.Machine.execPfailRise s
  | .filteredAssertion => Sys2Proof.Machine.execFilteredAssertion s
  | .resumeCountExpired => Sys2Proof.Machine.execResumeCountExpired s
  | .arrayRecoveryStart inputs => Sys2Proof.Machine.execArrayRecoveryStart inputs s
  | .perstAsserted => Sys2Proof.Machine.execPerstAsserted s
  | .perstDeasserted => Sys2Proof.Machine.execPerstDeasserted s
  | .hostLinkTrained speed width flit => Sys2Proof.Machine.execHostLinkTrained speed width flit s
  | .hostLinkDown => Sys2Proof.Machine.execHostLinkDown s
  | .configRequest write reg value => Sys2Proof.Machine.execConfigRequest write reg value s
  | .flr => Sys2Proof.Machine.execFlr s
  | .flrComplete => Sys2Proof.Machine.execFlrComplete s
  | .d3hotEntry => Sys2Proof.Machine.execD3hotEntry s
  | .d3hotToD0 => Sys2Proof.Machine.execD3hotToD0 s
  | .barSizeWrite log2 => Sys2Proof.Machine.execBarSizeWrite log2 s
  | .expansionRomRead off len => Sys2Proof.Machine.execExpansionRomRead off len s
  | .peerWindowRequest write off len poisoned data => Sys2Proof.Machine.execPeerWindowRequest write off len poisoned data s
  | .pwCommit value => Sys2Proof.Machine.execPwCommit value s
  | .msixTableWrite off data => Sys2Proof.Machine.execMsixTableWrite off data s
  | .translationCompletion sqid cid page needWrite res => Sys2Proof.Machine.execTranslationCompletion sqid cid page needWrite res s
  | .atsInvalidateRequest itag page pages => Sys2Proof.Machine.execAtsInvalidateRequest itag page pages s
  | .invalidationComplete itag => Sys2Proof.Machine.execInvalidationComplete itag s
  | .hostCompletionReceived tag st addr => Sys2Proof.Machine.execHostCompletionReceived tag st addr s
  | .completionTimeout tag addr => Sys2Proof.Machine.execCompletionTimeout tag addr s
  | .tagQuarantineExpired tag => Sys2Proof.Machine.execTagQuarantineExpired tag s
  | .turnBoundary unfinished => Sys2Proof.Machine.execTurnBoundary unfinished s
  | .planningWindow => Sys2Proof.Machine.execPlanningWindow s
  | .gatherAgeExpired array stripe => Sys2Proof.Machine.execGatherAgeExpired array stripe s
  | .ftSnap0Read => Sys2Proof.Machine.execFtSnap0Read s
  | .rcRegisterRead off => Sys2Proof.Machine.execRcRegisterRead off s
  | .loRegisterRead off => Sys2Proof.Machine.execLoRegisterRead off s
  | .hiRegisterRead off => Sys2Proof.Machine.execHiRegisterRead off s
  | .registerWrite off value => Sys2Proof.Machine.execRegisterWrite off value s
  | .reservedAccess off write => Sys2Proof.Machine.execReservedAccess off write s
  | .absentUnitAccess off write => Sys2Proof.Machine.execAbsentUnitAccess off write s
  | .globalEventWrite value coincident => Sys2Proof.Machine.execGlobalEventWrite value coincident s
  | .kilnPieceComplete job slice => Sys2Proof.Machine.execKilnPieceComplete job slice s
  | .decodeMatrixDerived kiln array erased => Sys2Proof.Machine.execDecodeMatrixDerived kiln array erased s
  | .permutationComputed array descGen round => Sys2Proof.Machine.execPermutationComputed array descGen round s
  | .kilnMemError kiln engine lane macroNo cell correctable => Sys2Proof.Machine.execKilnMemError kiln engine lane macroNo cell correctable s
  | .saggarPieceComplete line => Sys2Proof.Machine.execSaggarPieceComplete line s
  | .ddrEccError channel line pairedCopy correctable => Sys2Proof.Machine.execDdrEccError channel line pairedCopy correctable s
  | .burstComplete ref => Sys2Proof.Machine.execBurstComplete ref s
  | .hostDataLanded sqid cid sector data pi => Sys2Proof.Machine.execHostDataLanded sqid cid sector data pi s
  | .completionPost sqid cid => Sys2Proof.Machine.execCompletionPost sqid cid s
  | .commandFetch sqid entry => Sys2Proof.Machine.execCommandFetch sqid entry s
  | .coalescingTimer vector => Sys2Proof.Machine.execCoalescingTimer vector s
  | .controllerReady => Sys2Proof.Machine.execControllerReady s
  | .ccEnable value => Sys2Proof.Machine.execCcEnable value s
  | .ccDisable value => Sys2Proof.Machine.execCcDisable value s
  | .shutdownNotification value => Sys2Proof.Machine.execShutdownNotification value s
  | .intmsWrite value => Sys2Proof.Machine.execIntmsWrite value s
  | .intmcWrite value => Sys2Proof.Machine.execIntmcWrite value s
  | .sqTailDoorbell qid value => Sys2Proof.Machine.execSqTailDoorbell qid value s
  | .cqHeadDoorbell qid value => Sys2Proof.Machine.execCqHeadDoorbell qid value s
  | .deleteIoSubmissionQueue cid => Sys2Proof.Machine.execDeleteIoSubmissionQueue cid s
  | .createIoSubmissionQueue cid => Sys2Proof.Machine.execCreateIoSubmissionQueue cid s
  | .getLogPage cid => Sys2Proof.Machine.execGetLogPage cid s
  | .deleteIoCompletionQueue cid => Sys2Proof.Machine.execDeleteIoCompletionQueue cid s
  | .createIoCompletionQueue cid => Sys2Proof.Machine.execCreateIoCompletionQueue cid s
  | .identify cid => Sys2Proof.Machine.execIdentify cid s
  | .abortCmd cid => Sys2Proof.Machine.execAbortCmd cid s
  | .setFeatures cid data => Sys2Proof.Machine.execSetFeatures cid data s
  | .getFeatures cid => Sys2Proof.Machine.execGetFeatures cid s
  | .asynchronousEventRequest cid => Sys2Proof.Machine.execAsynchronousEventRequest cid s
  | .flush sqid cid => Sys2Proof.Machine.execFlush sqid cid s
  | .write sqid cid => Sys2Proof.Machine.execWrite sqid cid s
  | .read sqid cid => Sys2Proof.Machine.execRead sqid cid s
  | .writeZeroes sqid cid => Sys2Proof.Machine.execWriteZeroes sqid cid s
  | .datasetManagement sqid cid => Sys2Proof.Machine.execDatasetManagement sqid cid s
  | .verify sqid cid => Sys2Proof.Machine.execVerify sqid cid s
  | .memberCommandComplete mcid st data => Sys2Proof.Machine.execMemberCommandComplete mcid st data s
  | .doneRoundPersistTimer => Sys2Proof.Machine.execDoneRoundPersistTimer s
  | .memberLinkDown port => Sys2Proof.Machine.execMemberLinkDown port s
  | .linkErrorThreshold link => Sys2Proof.Machine.execLinkErrorThreshold link s
  | .portTrainingComplete link ok lanes => Sys2Proof.Machine.execPortTrainingComplete link ok lanes s
  | .memberIdentityRead ns ident => Sys2Proof.Machine.execMemberIdentityRead ns ident s
  | .unavailLimitExpired ns => Sys2Proof.Machine.execUnavailLimitExpired ns s
  | .controllerFatal ns => Sys2Proof.Machine.execControllerFatal ns s
  | .memberTimeoutExpired mcid => Sys2Proof.Machine.execMemberTimeoutExpired mcid s
  | .memberAbortTimeout mcid => Sys2Proof.Machine.execMemberAbortTimeout mcid s
  | .memberControllerResetDone port ok => Sys2Proof.Machine.execMemberControllerResetDone port ok s
  | .memberLateCompletion mcid => Sys2Proof.Machine.execMemberLateCompletion mcid s
  | .cidQuarantineExpired mcid => Sys2Proof.Machine.execCidQuarantineExpired mcid s
  | .slowReadExpired mcid => Sys2Proof.Machine.execSlowReadExpired mcid s
  | .patrolScrubDue array => Sys2Proof.Machine.execPatrolScrubDue array s
  | .prsntChange port present => Sys2Proof.Machine.execPrsntChange port present s
  | .prsntDebounceExpired port => Sys2Proof.Machine.execPrsntDebounceExpired port s
  | .memberPerstDelayExpired port => Sys2Proof.Machine.execMemberPerstDelayExpired port s
  | .slipFlitReceived f => Sys2Proof.Machine.execSlipFlitReceived f s
  | .slipSilenceTimeout => Sys2Proof.Machine.execSlipSilenceTimeout s
  | .slipLinkUp => Sys2Proof.Machine.execSlipLinkUp s
  | .hello seq device bound powerCycle mode lenSel part => Sys2Proof.Machine.execHello seq device bound powerCycle mode lenSel part s
  | .records seq side recs => Sys2Proof.Machine.execRecords seq side recs s
  | .line seq side twinSeq l => Sys2Proof.Machine.execLine seq side twinSeq l s
  | .endMsg seq side key seqs => Sys2Proof.Machine.execEndMsg seq side key seqs s
  | .progress seq key markGen directRound entries => Sys2Proof.Machine.execProgress seq key markGen directRound entries s
  | .snapshotBegin seq => Sys2Proof.Machine.execSnapshotBegin seq s
  | .snapshotEnd seq => Sys2Proof.Machine.execSnapshotEnd seq s
  | .handover seq key done lastAdmit => Sys2Proof.Machine.execHandover seq key done lastAdmit s
  | .statePage seq side pageSeq lines recs ends => Sys2Proof.Machine.execStatePage seq side pageSeq lines recs ends s
  | .partnerLost => Sys2Proof.Machine.execPartnerLost s
  | .side1DelayExpired registered => Sys2Proof.Machine.execSide1DelayExpired registered s
  | .reservationCheckDue => Sys2Proof.Machine.execReservationCheckDue s
  | .reservationReportDone array registered => Sys2Proof.Machine.execReservationReportDone array registered s
  | .fenceWaitExpired array input => Sys2Proof.Machine.execFenceWaitExpired array input s
  | .moveDrainComplete array => Sys2Proof.Machine.execMoveDrainComplete array s
  | .drillHoldExpired array => Sys2Proof.Machine.execDrillHoldExpired array s
  | .openReq h openerBase => Sys2Proof.Machine.execOpenReq h openerBase s
  | .challenge h openerBase cookie => Sys2Proof.Machine.execChallenge h openerBase cookie s
  | .confirm h openerBase cookie => Sys2Proof.Machine.execConfirm h openerBase cookie s
  | .accept h openerBase responderBase => Sys2Proof.Machine.execAccept h openerBase responderBase s
  | .ack h sack => Sys2Proof.Machine.execAck h sack s
  | .nak h reason refIndex => Sys2Proof.Machine.execNak h reason refIndex s
  | .close h endSeq => Sys2Proof.Machine.execClose h endSeq s
  | .closeAck h endSeq => Sys2Proof.Machine.execCloseAck h endSeq s
  | .send h data => Sys2Proof.Machine.execSend h data s
  | .coilWrite h data => Sys2Proof.Machine.execCoilWrite h data s
  | .readReq h => Sys2Proof.Machine.execReadReq h s
  | .readResp h data => Sys2Proof.Machine.execReadResp h data s
  | .nonCoilPacket kind port => Sys2Proof.Machine.execNonCoilPacket kind port s
  | .pauseFrame port => Sys2Proof.Machine.execPauseFrame port s
  | .openRetryTimer entry => Sys2Proof.Machine.execOpenRetryTimer entry s
  | .busyBackoffExpired entry => Sys2Proof.Machine.execBusyBackoffExpired entry s
  | .ackTimer entry => Sys2Proof.Machine.execAckTimer entry s
  | .rtoExpired entry index => Sys2Proof.Machine.execRtoExpired entry index s
  | .giveUp entry index => Sys2Proof.Machine.execGiveUp entry index s
  | .closeTimeout entry => Sys2Proof.Machine.execCloseTimeout entry s
  | .remoteKeepaliveTimer node => Sys2Proof.Machine.execRemoteKeepaliveTimer node s
  | .remoteSilenceTimeout node => Sys2Proof.Machine.execRemoteSilenceTimeout node s
  | .coilPortLinkDown port => Sys2Proof.Machine.execCoilPortLinkDown port s
  | .mbLockWrite mb value => Sys2Proof.Machine.execMbLockWrite mb value s
  | .mbRing mb withCancel => Sys2Proof.Machine.execMbRing mb withCancel s
  | .mbCancel mb => Sys2Proof.Machine.execMbCancel mb s
  | .sidebandMailboxHostAccess mb off write => Sys2Proof.Machine.execSidebandMailboxHostAccess mb off write s
  | .mailboxTake => Sys2Proof.Machine.execMailboxTake s
  | .mciInputReadDone mb input listsOk => Sys2Proof.Machine.execMciInputReadDone mb input listsOk s
  | .mciComplete mb outputWritten => Sys2Proof.Machine.execMciComplete mb outputWritten s
  | .sidebandWrite mb off data => Sys2Proof.Machine.execSidebandWrite mb off data s
  | .sidebandRead mb off len => Sys2Proof.Machine.execSidebandRead mb off len s
  | .sidebandRing mb => Sys2Proof.Machine.execSidebandRing mb s
  | .sidebandCancel mb => Sys2Proof.Machine.execSidebandCancel mb s
  | .getState mb => Sys2Proof.Machine.execGetState mb s
  | .wakeHost mb => Sys2Proof.Machine.execWakeHost mb s
  | .setEndpointId eid => Sys2Proof.Machine.execSetEndpointId eid s
  | .getEndpointId => Sys2Proof.Machine.execGetEndpointId s
  | .getMctpVersionSupport msgType => Sys2Proof.Machine.execGetMctpVersionSupport msgType s
  | .getMessageTypeSupport => Sys2Proof.Machine.execGetMessageTypeSupport s
  | .getVendorDefinedMessageSupport selector => Sys2Proof.Machine.execGetVendorDefinedMessageSupport selector s
  | .identifyDevice mb => Sys2Proof.Machine.execIdentifyDevice mb s
  | .getLimits mb => Sys2Proof.Machine.execGetLimits mb s
  | .deviceSetConfig mb => Sys2Proof.Machine.execDeviceSetConfig mb s
  | .deviceRestart mb => Sys2Proof.Machine.execDeviceRestart mb s
  | .unitControl mb selfTestPasses => Sys2Proof.Machine.execUnitControl mb selfTestPasses s
  | .memberList mb => Sys2Proof.Machine.execMemberList mb s
  | .memberAdopt mb => Sys2Proof.Machine.execMemberAdopt mb s
  | .memberRelease mb => Sys2Proof.Machine.execMemberRelease mb s
  | .memberFail mb => Sys2Proof.Machine.execMemberFail mb s
  | .memberReplace mb => Sys2Proof.Machine.execMemberReplace mb s
  | .arrayCreate mb => Sys2Proof.Machine.execArrayCreate mb s
  | .arrayDelete mb => Sys2Proof.Machine.execArrayDelete mb s
  | .arrayImport mb scans => Sys2Proof.Machine.execArrayImport mb scans s
  | .arrayExpand mb => Sys2Proof.Machine.execArrayExpand mb s
  | .arrayMigrate mb => Sys2Proof.Machine.execArrayMigrate mb s
  | .arrayGet mb => Sys2Proof.Machine.execArrayGet mb s
  | .arrayExport mb => Sys2Proof.Machine.execArrayExport mb s
  | .volumeCreate mb => Sys2Proof.Machine.execVolumeCreate mb s
  | .volumeDelete mb => Sys2Proof.Machine.execVolumeDelete mb s
  | .volumeResize mb => Sys2Proof.Machine.execVolumeResize mb s
  | .volumeSetPolicy mb => Sys2Proof.Machine.execVolumeSetPolicy mb s
  | .volumeList mb => Sys2Proof.Machine.execVolumeList mb s
  | .rebuildGetStatus mb => Sys2Proof.Machine.execRebuildGetStatus mb s
  | .rebuildSetPolicy mb => Sys2Proof.Machine.execRebuildSetPolicy mb s
  | .rebuildStart mb => Sys2Proof.Machine.execRebuildStart mb s
  | .scrubStart mb => Sys2Proof.Machine.execScrubStart mb s
  | .scrubStop mb => Sys2Proof.Machine.execScrubStop mb s
  | .lostExtentsGet mb => Sys2Proof.Machine.execLostExtentsGet mb s
  | .twinPair mb => Sys2Proof.Machine.execTwinPair mb s
  | .twinUnpair mb => Sys2Proof.Machine.execTwinUnpair mb s
  | .twinGetStatus mb => Sys2Proof.Machine.execTwinGetStatus mb s
  | .twinSetPolicy mb => Sys2Proof.Machine.execTwinSetPolicy mb s
  | .twinMoveArray mb => Sys2Proof.Machine.execTwinMoveArray mb s
  | .twinSwapDrill mb lines records members => Sys2Proof.Machine.execTwinSwapDrill mb lines records members s
  | .twinTakeover mb => Sys2Proof.Machine.execTwinTakeover mb s
  | .coilGetStatus mb => Sys2Proof.Machine.execCoilGetStatus mb s
  | .coilConfig mb => Sys2Proof.Machine.execCoilConfig mb s
  | .coilSetTrust mb => Sys2Proof.Machine.execCoilSetTrust mb s
  | .coilRegionRegister mb => Sys2Proof.Machine.execCoilRegionRegister mb s
  | .coilRegionDeregister mb => Sys2Proof.Machine.execCoilRegionDeregister mb s
  | .coilRecvPost mb => Sys2Proof.Machine.execCoilRecvPost mb s
  | .coilExportMember mb => Sys2Proof.Machine.execCoilExportMember mb s
  | .ownershipGet mb => Sys2Proof.Machine.execOwnershipGet mb s
  | .ownershipClaim mb => Sys2Proof.Machine.execOwnershipClaim mb s
  | .ownershipTransfer mb => Sys2Proof.Machine.execOwnershipTransfer mb s
  | .policySet mb => Sys2Proof.Machine.execPolicySet mb s
  | .debugUnlock mb => Sys2Proof.Machine.execDebugUnlock mb s
  | .decommission mb => Sys2Proof.Machine.execDecommission mb s
  | .firingRecordGet mb => Sys2Proof.Machine.execFiringRecordGet mb s
  | .attestQuote mb => Sys2Proof.Machine.execAttestQuote mb s
  | .certGet mb => Sys2Proof.Machine.execCertGet mb s
  | .kilnLogGet mb => Sys2Proof.Machine.execKilnLogGet mb s
  | .kilnLogClear mb => Sys2Proof.Machine.execKilnLogClear mb s
  | .hostTimeHint mb => Sys2Proof.Machine.execHostTimeHint mb s
  | .fwDownload mb manifest badPartition => Sys2Proof.Machine.execFwDownload mb manifest badPartition s
  | .fwActivate mb => Sys2Proof.Machine.execFwActivate mb s
  | .fwGetStatus mb => Sys2Proof.Machine.execFwGetStatus mb s
  | .faultGet mb => Sys2Proof.Machine.execFaultGet mb s
  | .faultAck mb coincident => Sys2Proof.Machine.execFaultAck mb coincident s
  | .faultSetSeverity mb => Sys2Proof.Machine.execFaultSetSeverity mb s
  | .faultInject mb => Sys2Proof.Machine.execFaultInject mb s
  | .diagPattern mb => Sys2Proof.Machine.execDiagPattern mb s
  | .diagMbist mb => Sys2Proof.Machine.execDiagMbist mb s
  | .diagMargin mb => Sys2Proof.Machine.execDiagMargin mb s
  | .saggarGetStatus mb => Sys2Proof.Machine.execSaggarGetStatus mb s
  | .saggarSetPolicy mb => Sys2Proof.Machine.execSaggarSetPolicy mb s
  | .vaultConfig mb => Sys2Proof.Machine.execVaultConfig mb s
  | .vaultTest mb => Sys2Proof.Machine.execVaultTest mb s
  | .vaultTestEnd rates memberError => Sys2Proof.Machine.execVaultTestEnd rates memberError s
  | .vaultGetStatus mb => Sys2Proof.Machine.execVaultGetStatus mb s
  | .peerWindowConfig mb => Sys2Proof.Machine.execPeerWindowConfig mb s
  | .kcCommit ch => Sys2Proof.Machine.execKcCommit ch s
  | .kcStart ch => Sys2Proof.Machine.execKcStart ch s
  | .kcStop ch => Sys2Proof.Machine.execKcStop ch s
  | .reqSet mask => Sys2Proof.Machine.execReqSet mask s
  | .requestLinePulse line => Sys2Proof.Machine.execRequestLinePulse line s
  | .descriptorFetched ch d => Sys2Proof.Machine.execDescriptorFetched ch d s
  | .descriptorBoundary ch commitNow => Sys2Proof.Machine.execDescriptorBoundary ch commitNow s
  | .kcMemError ch macroNo cell correctable => Sys2Proof.Machine.execKcMemError ch macroNo cell correctable s
  | .faultArrival faults => Sys2Proof.Machine.execFaultArrival faults s
  | .pendingWrite index value coincident => Sys2Proof.Machine.execPendingWrite index value coincident s
  | .clearFirst coincident => Sys2Proof.Machine.execClearFirst coincident s
  | .autoAck source => Sys2Proof.Machine.execAutoAck source s
  | .injectionApply source coincident => Sys2Proof.Machine.execInjectionApply source coincident s
  | .kilnLogHappening h => Sys2Proof.Machine.execKilnLogHappening h s
  | .opMinuteTick linkErrors => Sys2Proof.Machine.execOpMinuteTick linkErrors s
  | .temperatureSample t0 t1 t2 t3 => Sys2Proof.Machine.execTemperatureSample t0 t1 t2 t3 s
  | .dirtyLinesSample => Sys2Proof.Machine.execDirtyLinesSample s
  | .thermalTrip sensor => Sys2Proof.Machine.execThermalTrip sensor s
  | .partitionVerified partition slotB manifest digestOk ddrFailed ddrGiB ddrSpeed => Sys2Proof.Machine.execPartitionVerified partition slotB manifest digestOk ddrFailed ddrGiB ddrSpeed s
  | .firingRecordSigned => Sys2Proof.Machine.execFiringRecordSigned s
  | .bootOk => Sys2Proof.Machine.execBootOk s
  | .recoveryProgressReport arrays stripes => Sys2Proof.Machine.execRecoveryProgressReport arrays stripes s
  | .bootOkDeadlineExpired => Sys2Proof.Machine.execBootOkDeadlineExpired s
  | .newImageReady => Sys2Proof.Machine.execNewImageReady s
  | .activationReadyTimeout => Sys2Proof.Machine.execActivationReadyTimeout s
  | .pllUnlock pll => Sys2Proof.Machine.execPllUnlock pll s
  | .resetNotification n => Sys2Proof.Machine.execResetNotification n s
  | .crossingHandshake unit => Sys2Proof.Machine.execCrossingHandshake unit s
  | .wakeRequest domain index => Sys2Proof.Machine.execWakeRequest domain index s
  | .clockStop domain index => Sys2Proof.Machine.execClockStop domain index s
  | .d2dLaneFailed bundle lane => Sys2Proof.Machine.execD2dLaneFailed bundle lane s
  | .d2dSpareFailed bundle lane => Sys2Proof.Machine.execD2dSpareFailed bundle lane s
  | .testDurationExpired mb results => Sys2Proof.Machine.execTestDurationExpired mb results s
  | .marginDwellExpired mb errors => Sys2Proof.Machine.execMarginDwellExpired mb errors s
  | .mbistComplete mb failing corrected loc cell => Sys2Proof.Machine.execMbistComplete mb failing corrected loc cell s
  | .jtagInstruction instr => Sys2Proof.Machine.execJtagInstruction instr s
  | .trst => Sys2Proof.Machine.execTrst s
  | .prsntHoldoffExpired port => Sys2Proof.Machine.execPrsntHoldoffExpired port s
  | .restartWaitExpired => Sys2Proof.Machine.execRestartWaitExpired s
  | .controlComplexRestarted => Sys2Proof.Machine.execControlComplexRestarted s
  | .trialDirtyWaitExpired => Sys2Proof.Machine.execTrialDirtyWaitExpired s
  | .checkerLockChange mb lane locked => Sys2Proof.Machine.execCheckerLockChange mb lane locked s

end Sys2Proof.Machine
end

