-- ==== Sys2Proof/Safety.lean ====
section
/-! DEFINITION. What statements call a well-kept state of the block: relations between fields that every step keeps. -/
namespace Sys2Proof.Machine

/-- Addresses of a sparse memory rise strictly. -/
def rising : List (Nat × BitVec 8) → Bool
  | [] => true
  | [_] => true
  | p :: q :: l => p.1 < q.1 && rising (q :: l)

/-- The canonical form of peer window staging (R319): addresses rise strictly; an unlisted byte has no value of its own. -/
def Memory.wf (m : List (Nat × BitVec 8)) : Bool := rising m

/-- A host access to register `off` is taken by that register (R305, R328, R329, R360, R569, R570). -/
def State.hostReaches (s : State) (off : Nat) : Bool :=
  s.reachable && !s.ep.d3hot && s.memReachable && !(decide (0x3C000 ≤ off) && decide (off < 0x40000)) && !absentReg off s && (regAt off s).isSome

/-- A command of mailbox `mb` has succeeded (R374, R375): its response is staged, with the inline response and output given. -/
def Succeeds (mb : Nat) (inline out : Bytes) (t : State) : Prop :=
  (∃ r, (t.mb mb).staged = some r ∧ r.status ≤ 1) ∧ (t.mb mb).stagedInline = inline ∧ (t.mb mb).stagedOut = out

/-- A command of mailbox `mb` runs on: it has been taken up and has no response yet (R365). -/
def InProgress (mb : Nat) (t : State) : Prop := (t.mb mb).started = true ∧ (t.mb mb).staged = none

/-- A mark update of an array is under way, or waits for the one before it (R85). -/
def MarkDue (aid : Nat) (t : State) : Prop := (t.markJob aid).isSome ∨ ∃ x, t.array aid = some x ∧ x.markWaiting.isSome

/-- A job of a kind works for the command of mailbox `mb`. -/
def JobFor (k : JobKind) (mb : Nat) (t : State) : Prop := ∃ j ∈ t.arr.jobs, j.kind = k ∧ j.mb = some mb

/-- A sequenced packet of `n` payload bytes passes steps 4 to 8 of R281 on the association `e`: the window takes it, no copy of it
came before, and the port's receive buffer has room. -/
def State.coilTakes (h : CoilHdr) (n : Nat) (e : Assoc) (s : State) : Prop :=
  s.coilPasses h = true ∧ (coilSeen h s).assocOf h = some e ∧ e.st = .established ∧ h.index ≤ (if e.anyRx then e.highest + 1024 else 1023) ∧
  ¬ (e.anyRx = true ∧ h.index + 2048 ≤ e.highest) ∧ h.index ∉ e.bitmap ∧ nth s.coil.rxBuffer h.port 0 + n ≤ rxLimit

/-- The bitmap of association `e` holds index `i` (R282). -/
def HeldIndex (e : Assoc) (i : Nat) (t : State) : Prop := ∀ x ∈ t.coil.assocs, x.no = e.no → i ∈ x.bitmap

/-- The fuses stay within what the chip holds (R231, R455, R458), and turn numbers within their 48 bits (R43). -/
def FuseLimits (s : State) : Prop :=
  s.hw.epoch ≤ 15 ∧ s.hw.svFloor ≤ 255 ∧ s.hw.debugUnlocks ≤ 4 ∧ s.hw.twinBinds ≤ 8 ∧ s.hw.turn < 2 ^ 48 ∧
  (s.hw.lifecycle.code ≤ 1 → s.hw.epoch = 0)

/-- Log slots rise strictly and are entry slots (R489). -/
def SlotsRise (k : Klog) : Prop := k.entries.Pairwise (fun x y => x.slot < y.slot) ∧ ∀ x ∈ k.entries, 257 ≤ x.slot ∧ x.slot ≤ 65535

/-- Entry `e` is the one that R500 takes for a happening of severity `sev`: lowest severity, then lowest LAST_FT, then lowest slot. -/
def TakenFirst (sev : Nat) (k : Klog) (e : LogEntry) : Prop :=
  e ∈ k.entries ∧ e.sev ≤ sev ∧ ∀ x ∈ k.entries, x.sev ≤ sev → e.sev < x.sev ∨ (e.sev = x.sev ∧ (ftBefore e.lastFt x.lastFt = true ∨
    (ftBefore x.lastFt e.lastFt = false ∧ e.slot ≤ x.slot)))

end Sys2Proof.Machine
end

