-- ==== Sys2Proof/Certificates/Slice0/Obligations.lean ====
section
/-! DEFINITION. The statements for the provers. `exec c s = .next t` says that command `c` completes in state `s` with next
state `t`; an equation with a record update states the frame too: what the update does not name is unchanged. -/
section
open Sys2Proof Sys2Proof.Machine

/-! ### The queue -/

/-- A step takes the command at the front of the queue, and does to the rest of the state what `exec` does (log entry 1). -/
def Obligations.StepRunsFrontCommand : Prop :=
  ∀ (c : Instr) (l : List Instr) (s : State), step { s with pending := c :: l } = exec c { s with pending := l }

/-! ### Power, PFAIL# and resets (chapters 06, 10, 18, 20) -/

/-- PFAIL# falls and rises (R171, R175): the filter starts only when no filtered assertion is in force; a rise inside the filter
is a glitch and is counted; the 10 ms count starts. An assertion that passes the filter is in force and counted; it stops a
recovery, and otherwise a dump of an armed vault or a hold is due at the next boundary (R172, R176, R180). After 10 ms
deasserted the count is over.
Aux and main power (R8, R10, R324, R325, R525, R549, R560): AUX_POWER_ON starts a power cycle with the straps it samples
and with no main power; a loss of main power keeps fuses, time and the aux supply; a command outside the supply order stops the
model (log entry 101). -/
def Obligations.PowerEffects : Prop :=
  (∀ s, exec .pfailFall s = .next { s with pins := { s.pins with pfailRaw := true, pfailFilter := !s.pins.pfailFiltered } }) ∧
  (∀ s, exec .pfailRise s = .next { s with
    pins := { s.pins with pfailRaw := false, pfailFilter := false, pfailFiltered := false,
                          resumeCounting := s.pins.resumeCounting || !s.pins.resumeDone }
    vault := { s.vault with pfailGlitches := if s.pins.pfailFilter then bump s.vault.pfailGlitches else s.vault.pfailGlitches } }) ∧
  (∀ s, ¬ (s.pins.pfailRaw ∧ s.pins.pfailFilter) → exec .filteredAssertion s = .next s) ∧
  (∀ s, s.pins.pfailRaw → s.pins.pfailFilter → ∃ t, exec .filteredAssertion s = .next t ∧
    t.pins = { s.pins with pfailFilter := false, pfailFiltered := true, resumeCounting := false, resumeDone := false } ∧
    t.vault.pfailEvents = bump s.vault.pfailEvents ∧
    (s.sched.running → s.dev.recovering → t.vault.stopped = true ∧ t.vault.phase = .holding) ∧
    (s.sched.running → ¬ s.dev.recovering → ¬ s.dev.holding →
      if s.vault.armed then t.vault.dumpPending = true else t.vault.holdPending = true)) ∧
  (∀ s, ¬ s.pins.resumeCounting ∨ s.pins.pfailRaw → exec .resumeCountExpired s = .next s) ∧
  (∀ s, s.pins.resumeCounting → ¬ s.pins.pfailRaw → s.vault.phase ≠ .holding →
    exec .resumeCountExpired s = .next { s with pins := { s.pins with resumeCounting := false, resumeDone := true } }) ∧
  (∀ st torn s, ¬ s.pins.main → ∃ t, exec (.auxPowerOn st torn) s = .next t ∧
    t.hw = { s.hw with powerCycle := s.hw.powerCycle + 1, turn := 0, cycle := 0, straps := st } ∧
    t.pins.aux = true ∧ t.pins.main = false ∧ t.pins.perst = true ∧ t.clk.startCause = 0 ∧ t.sched.running = false ∧ t.sec.bootStep = 0) ∧
  (∀ st torn s, s.pins.main → exec (.auxPowerOn st torn) s = .next s) ∧
  (∀ s, s.pins.aux → s.pins.main → exec .auxPowerRemoved s = .fault .auxRemovedWithMain) ∧
  (∀ s, ¬ s.pins.aux → exec .auxPowerRemoved s = .next s) ∧
  (∀ s, s.pins.aux → ¬ s.pins.main → ∃ t, exec .auxPowerRemoved s = .next t ∧ t.hw = s.hw ∧ t.pins.aux = false ∧
    t.fc.fatal = false ∧ t.pins.thermtrip = false ∧ t.pins.faultPin = false) ∧
  (∀ lanes kilns s, ¬ s.pins.aux → exec (.mainPwrokAsserted lanes kilns) s = .fault .mainWithoutAux) ∧
  (∀ lanes kilns s, s.pins.aux → s.pins.main → exec (.mainPwrokAsserted lanes kilns) s = .next s) ∧
  (∀ lanes kilns s, s.pins.aux → ¬ s.pins.main → ∃ t, exec (.mainPwrokAsserted lanes kilns) s = .next t ∧
    t.pins.main = true ∧ t.sched.running = true ∧ t.clk.started = true ∧ t.clk.startCause = (if s.clk.started then 1 else 0) ∧
    (¬ s.clk.started → t.hw = { s.hw with turn := 0, cycle := 0 }) ∧ t.sec.bootAttempts = s.sec.bootAttempts + 1 ∧
    t.dev.recovering = true ∧ t.dev.recoveryBoot = s.hw.straps.recovery) ∧
  (∀ s, ¬ s.pins.main → exec .mainPwrokDeasserted s = .next s) ∧
  (∀ s, s.pins.main → ∃ t, exec .mainPwrokDeasserted s = .next t ∧ t.hw = s.hw ∧ t.pins.main = false ∧ t.pins.aux = s.pins.aux ∧
    t.sched.running = false ∧ t.vault.own = s.vault.own ∧ t.vault.partner = s.vault.partner ∧ t.vault.recCounter = s.vault.recCounter ∧
    t.sag.lines = [] ∧ t.pw.mem = [] ∧ t.sec.records = s.sec.records)


/-! ### The host endpoint (chapter 10) -/

/-- PERST#, the host link, FLR and D3hot (R300, R324, R326 to R329): PERST# and an FLR leave the function reset, with no queue, no
cached translation and every configuration enable clear; a link that goes down without PERST# is dealt with at the next boundary;
a link below x8 or 8.0 GT/s is DEGRADED. -/
def Obligations.HostLinkEffects : Prop :=
  (∀ s, s.pins.perst → exec .perstAsserted s = .next s) ∧
  (∀ s, ¬ s.pins.perst → ∃ t, exec .perstAsserted s = .next t ∧ t.pins.perst = true ∧ t.ep.up = false ∧ t.ep.speed = 0 ∧ t.ep.width = 0 ∧
    t.ep.d3hot = false ∧ t.ep.flrActive = false ∧ t.ep.atc = [] ∧ t.ep.invalidations = [] ∧ t.cfg.mse = false ∧ t.cfg.msiEn = false ∧
    t.cfg.msixEn = false ∧ t.cfg.atsEn = false ∧ t.msix = [] ∧ t.nvme.cc = 0 ∧ t.nvme.rdy = false ∧ t.nvme.sqs = [] ∧ t.nvme.cqs = [] ∧
    t.nvme.admitted = [] ∧ t.nvme.feat = {} ∧ t.sched.globalEventEn = 0) ∧
  (∀ s, exec .perstDeasserted s = .next { s with pins := { s.pins with perst := false, wake := s.pins.wake && !s.pins.main } }) ∧
  (∀ sp w f s, ¬ (s.pins.main ∧ ¬ s.pins.perst) → exec (.hostLinkTrained sp w f) s = .next s) ∧
  (∀ sp w f s, s.pins.main → ¬ s.pins.perst → ∃ t, exec (.hostLinkTrained sp w f) s = .next t ∧
    t.ep = { s.ep with speed := sp, width := w, flit := f || sp == 6, up := true, degraded := decide (w < 8) || decide (sp < 3) } ∧
    (8 ≤ w → 3 ≤ sp → t = { s with ep := t.ep })) ∧
  (∀ s, exec .hostLinkDown s = .next { s with
    ep := if s.ep.up then { s.ep with up := false, speed := 0, width := 0, flit := false, degraded := false, downPending := true } else s.ep }) ∧
  (∀ s, ¬ s.memReachable → exec .flr s = .next s) ∧
  (∀ s, s.memReachable → ∃ t, exec .flr s = .next t ∧ t.ep.flrActive = true ∧ t.ep.d3hot = false ∧ t.ep.atc = [] ∧ t.cfg.mse = false ∧
    t.cfg.msiEn = false ∧ t.cfg.msixEn = false ∧ t.msix = [] ∧ t.nvme.cc = 0 ∧ t.nvme.rdy = false ∧ t.nvme.sqs = [] ∧ t.nvme.cqs = [] ∧
    t.sched.globalEventEn = 0) ∧
  (∀ s, exec .flrComplete s = .next { s with ep := { s.ep with flrActive := false } }) ∧
  (∀ s, exec .d3hotEntry s = .next { s with ep := if s.memReachable then { s.ep with d3hot := true } else s.ep }) ∧
  (∀ s, ¬ s.reachable ∨ ¬ s.ep.d3hot → exec .d3hotToD0 s = .next s) ∧
  (∀ s, s.reachable → s.ep.d3hot → ∃ t, exec .d3hotToD0 s = .next t ∧ t.ep.d3hot = false ∧ t.ep.atc = [] ∧ t.cfg.mse = false ∧
    t.msix = [] ∧ t.nvme.cc = 0 ∧ t.nvme.rdy = false ∧ t.nvme.sqs = [] ∧ t.nvme.cqs = [])

/-- Configuration requests, BAR4's size, the option ROM and the MSI-X table (R302 to R305, R308, R309, R311, R328): until the boot
has released configuration space, and during an FLR, a request is answered with a retry; a read answers the register's value and
changes nothing; a BAR4 size is taken only while Memory Space Enable is clear and from 2^30 to 2^36. -/
def Obligations.ConfigSpaceEffects : Prop :=
  (∀ w reg v s, ¬ s.reachable → exec (.configRequest w reg v) s = .next s) ∧
  (∀ w reg v s, s.reachable → ¬ s.bootReleased ∨ s.ep.flrActive → exec (.configRequest w reg v) s = .next { s with out := .cfgRetry :: s.out }) ∧
  (∀ reg v s, s.reachable → s.bootReleased → ¬ s.ep.flrActive →
    exec (.configRequest false reg v) s = .next { s with out := .cfgCompletion (cfgRead reg s) :: s.out }) ∧
  (∀ s, cfgRead 0 s = 0x74801E7B) ∧
  (∀ v s, s.reachable → s.bootReleased → ¬ s.ep.flrActive → exec (.configRequest true 4 v) s = .next { s with
    cfg := { s.cfg with mse := bit (u32 v) 1, busMaster := bit (u32 v) 2, intDisable := bit (u32 v) 10 }, out := .cfgCompletion 0 :: s.out }) ∧
  (∀ n s, exec (.barSizeWrite n) s = .next { s with
    cfg := if s.memReachable ∧ ¬ s.cfg.mse ∧ 30 ≤ n ∧ n ≤ 36 then { s.cfg with barSize := n } else s.cfg }) ∧
  (∀ off len s, s.memReachable → off + len ≤ 0x80000 → exec (.expansionRomRead off len) s = .next { s with
    out := .memCompletion ((List.range len).map (fun i => Config.flashByte (if s.sec.bootedB then 1 else 0) 5 (off + i))) :: s.out }) ∧
  (∀ off len s, ¬ (s.memReachable ∧ off + len ≤ 0x80000) → exec (.expansionRomRead off len) s = .next s) ∧
  (∀ off data s, ¬ (s.memReachable ∧ off < 32768 ∧ off % 16 + data.length ≤ 16) → exec (.msixTableWrite off data) s = .next s) ∧
  (∀ off data s, s.memReachable → off < 32768 → off % 16 + data.length ≤ 16 → s.cfg.irqMode ≠ 3 → exec (.msixTableWrite off data) s = .next { s with
    msix := Sys2Proof.Machine.insert (off / 16) ((s.msixAt (off / 16)).write (off % 16) data) s.msix }) ∧
  (∀ off data s, s.memReachable → off < 32768 → off % 16 + data.length ≤ 16 → ∃ t, exec (.msixTableWrite off data) s = .next t ∧
    t = { s with cfg := t.cfg, msix := t.msix, out := t.out })

/-- The peer window (R319 to R323): a write lands in staging and nowhere else, a read answers the staging bytes and changes
nothing, a poisoned write is dropped and counted, and a request that no active segment takes is counted and leaves staging as it
is. COMMIT sets PENDING. -/
def Obligations.PeerWindowEffects : Prop :=
  (∀ w off len p data s, ¬ s.memReachable → exec (.peerWindowRequest w off len p data) s = .next s) ∧
  (∀ off len data s a, s.memReachable → pwTranslate s true off len = some a → exec (.peerWindowRequest true off len false data) s = .next { s with
    pw := { s.pw with mem := memWrite a (data.take len) s.pw.mem } }) ∧
  (∀ off len data s a, s.memReachable → pwTranslate s false off len = some a → exec (.peerWindowRequest false off len false data) s = .next { s with
    out := .memCompletion (stagingBytes s a len) :: s.out }) ∧
  (∀ off len data s, s.memReachable → exec (.peerWindowRequest true off len true data) s = .next { s with
    ep := { s.ep with poisoned := bump s.ep.poisoned } }) ∧
  (∀ w off len data s, s.memReachable → pwTranslate s w off len = none → ∃ t, exec (.peerWindowRequest w off len false data) s = .next t ∧
    t.pw = s.pw ∧ t.ep.urReceived = bump s.ep.urReceived ∧ t.fc.first.isSome) ∧
  (∀ v s, exec (.pwCommit v) s = .next { s with pw := { s.pw with pending := s.pw.pending || bit v 0 } })

/-- A peer write is read back: where a window takes both, the bytes written are the bytes that a later read of the same place
answers (R319, R320).
A peer write changes no byte of staging outside the bytes it stores to, which are the request's bytes at the address that the
segment gives (R320). -/
def Obligations.PeerWriteReadsBack : Prop :=
  (∀ (off len : Nat) (data : Bytes) (s t : State), s.memReachable → data.length = len → (pwTranslate s true off len).isSome →
    (pwTranslate s false off len).isSome → exec (.peerWindowRequest true off len false data) s = .next t →
    exec (.peerWindowRequest false off len false []) t = .next { t with out := .memCompletion data :: t.out }) ∧
  (∀ (off len : Nat) (data : Bytes) (s t : State) (a : Nat), s.memReachable → data.length = len → pwTranslate s true off len = some a →
    exec (.peerWindowRequest true off len false data) s = .next t → ∀ b, b < a ∨ a + len ≤ b → stagingByte t b = stagingByte s b)


/-- The canonical form of staging memory is kept by every peer window request and by PW_COMMIT, in every state (log entry 103). -/
def Obligations.StagingStaysCanonical : Prop :=
  (∀ w off len p data s t, Memory.wf s.pw.mem → exec (.peerWindowRequest w off len p data) s = .next t → Memory.wf t.pw.mem) ∧
  (∀ v s t, Memory.wf s.pw.mem → exec (.pwCommit v) s = .next t → Memory.wf t.pw.mem) ∧
  Memory.wf State.reset.pw.mem

/-- Address translation, completions and tags (R314 to R318): a granted translation is cached, and with enough permission nothing
else happens; an invalidation drops the covered translations and waits for the requests issued before it; a completion with a
quarantined tag is late and counted; a timeout quarantines its tag. -/
def Obligations.TranslationAndTagEffects : Prop :=
  (∀ q c p w r s, ¬ s.cfg.atsEn → exec (.translationCompletion q c p w r) s = .next s) ∧
  (∀ q c p w pg rd wr s, s.cfg.atsEn → (if w then wr else rd) = true → ∃ t, exec (.translationCompletion q c p w (.granted pg rd wr)) s = .next t ∧
    t = { s with ep := { s.ep with atc := t.ep.atc } } ∧ (pg, rd, wr) ∈ t.ep.atc ∧ ∀ x ∈ t.ep.atc, x.1 = pg → x = (pg, rd, wr)) ∧
  (∀ q c p w s, s.cfg.atsEn → exec (.translationCompletion q c p w .untranslatedOnly) s = .next s) ∧
  (∀ q c p w s, s.cfg.atsEn → ∃ t, exec (.translationCompletion q c p w .denied) s = .next t ∧ t.fc.first.isSome) ∧
  (∀ i p n s, exec (.atsInvalidateRequest i p n) s = .next { s with ep := if s.reachable then { s.ep with
    atc := s.ep.atc.filter (fun x => !(decide (p ≤ x.1) && decide (x.1 < p + n)))
    invalidations := s.ep.invalidations ++ [(i, p, n, s.ep.reqs.map (·.1))] } else s.ep }) ∧
  (∀ i x s, s.ep.invalidations.find? (fun y => y.1 == i) = some x → ¬ s.ep.reqs.any (fun r => x.2.2.2.contains r.1) →
    exec (.invalidationComplete i) s = .next { s with
      ep := { s.ep with invalidations := s.ep.invalidations.filter (fun y => y.1 != i), atsInvalidations := bump s.ep.atsInvalidations }
      out := .invalidationCompletion i :: s.out }) ∧
  (∀ g st a s, s.ep.quarantined.contains g → ∃ t, exec (.hostCompletionReceived g st a) s = .next t ∧
    t.ep = { s.ep with lateCompletions := bump s.ep.lateCompletions } ∧ t.fc.first.isSome) ∧
  (∀ g st a s, ¬ s.ep.quarantined.contains g → s.hostReq g = none → exec (.hostCompletionReceived g st a) s = .next { s with
    ep := { s.ep with aer := s.ep.aer ||| 0x10000 } }) ∧
  (∀ g ch p a s, ¬ s.ep.quarantined.contains g → s.hostReq g = some (.channel ch p) → exec (.hostCompletionReceived g .ok a) s = .next { s with
    ep := { s.ep with reqs := s.ep.reqs.filter (fun r => r.1 != g) } }) ∧
  (∀ g a s, s.hostReq g = none → exec (.completionTimeout g a) s = .next s) ∧
  (∀ g a s, (s.hostReq g).isSome → ∃ t, exec (.completionTimeout g a) s = .next t ∧ t.fc.first.isSome ∧ t.kc.halted = true) ∧
  (∀ g s, exec (.tagQuarantineExpired g) s = .next { s with ep := { s.ep with quarantined := s.ep.quarantined.filter (· != g) } })

/-- Turn time (R29, R32, R42, R43): a boundary starts the next turn at cycle 0, with power_cycle stepping where the turn field rolls
over, unless a failed trial restarts the data path there (R466); a planning window opens once per turn, at the last sixteenth of it. -/
def Obligations.TurnTime : Prop :=
  (∀ l s, ¬ s.sched.running → exec (.turnBoundary l) s = .next s) ∧
  (∀ l s, s.sched.running → ∃ t, exec (.turnBoundary l) s = .next t ∧ (¬ (turnBoundary l s).trialReady → t.hw.cycle = 0 ∧
    (s.hw.turn + 1 < 2 ^ 48 → t.hw.turn = s.hw.turn + 1 ∧ t.hw.powerCycle = s.hw.powerCycle) ∧
    (s.hw.turn + 1 = 2 ^ 48 → t.hw.turn = 0 ∧ t.hw.powerCycle = s.hw.powerCycle + 1))) ∧
  (∀ s, ¬ s.sched.running ∨ s.sched.planned → exec .planningWindow s = .next s) ∧
  (∀ s, s.sched.running → ¬ s.sched.planned → ∃ t, exec .planningWindow s = .next t ∧ t.sched.planned = true ∧
    t.hw = { s.hw with cycle := max s.hw.cycle (s.cycles / 16 * 15) }) ∧
  (∀ l s, ∃ t, exec (.opMinuteTick l) s = .next t ∧ t.hw = { s.hw with opMinutes := s.hw.opMinutes + 1 } ∧ t.klog.samples = [] ∧
    t = { s with hw := t.hw, klog := t.klog }) ∧
  (∀ s, s.hostReaches 0x1008 → exec .ftSnap0Read s = .next { s with
    sched := { s.sched with snap := ⟨s.hw.powerCycle, s.hw.opMinutes, s.hw.turn, s.hw.cycle⟩ }, out := .regRead 0x1008 (u32 s.hw.powerCycle) :: s.out })

/-- Register accesses (R2, R6, R329, R518, R569, R570, R572): a read answers the value from before any clear; a LO read latches its HI register, whose
read then answers the latched value and releases it; an unreachable function reads as all ones; reserved space and absent units
read zero and are counted; a one written to GLOBAL_EVENT clears its bit unless the event comes again in that cycle. -/
def Obligations.RegisterAccessEffects : Prop :=
  (∀ off s, s.hostReaches off → ∃ t, exec (.rcRegisterRead off) s = .next t ∧ t.out = .regRead off ((regAt off s).getD 0) :: s.out) ∧
  (∀ s, s.hostReaches 0x44 → exec (.rcRegisterRead 0x44) s = .next { s with
    sched := { s.sched with reservedAccesses := 0 }, out := .regRead 0x44 s.sched.reservedAccesses :: s.out }) ∧
  (∀ off s, ¬ s.reachable ∨ s.ep.d3hot → exec (.rcRegisterRead off) s = .next { s with out := .regRead off 0xFFFFFFFF :: s.out }) ∧
  (∀ off s, s.hostReaches off → isLo off → exec (.loRegisterRead off) s = .next { s with
    clk := { s.clk with latches := Sys2Proof.Machine.insert (off + 4) ((regAt (off + 4) s).getD 0) s.clk.latches }
    out := .regRead off ((regAt off s).getD 0) :: s.out }) ∧
  (∀ off v s, s.hostReaches off → lookup s.clk.latches off = some v → exec (.hiRegisterRead off) s = .next { s with
    clk := { s.clk with latches := Sys2Proof.Machine.erase off s.clk.latches }, out := .regRead off v :: s.out }) ∧
  (∀ off s, s.hostReaches off → lookup s.clk.latches off = none → exec (.hiRegisterRead off) s = .next { s with
    out := .regRead off ((regAt off s).getD 0) :: s.out }) ∧
  (∀ v s, s.hostReaches 0x3004 → exec (.registerWrite 0x3004 v) s = .next { s with
    fc := { s.fc with irqMinSev := u32 v % 8, irqEnable := bit (u32 v) 3 } }) ∧
  (∀ v s, s.hostReaches 0x34 → exec (.registerWrite 0x34 v) s = .next { s with sched := { s.sched with globalEventEn := BitVec.ofNat 4 (u32 v) } }) ∧
  (∀ off s, s.reachable → ¬ s.ep.d3hot → s.memReachable → ¬ (0x3C000 ≤ off ∧ off < 0x40000) → ¬ absentReg off s → regAt off s = none →
    exec (.reservedAccess off false) s = .next { s with
      sched := { s.sched with reservedAccesses := bump s.sched.reservedAccesses }, out := .regRead off 0 :: s.out } ∧
    exec (.reservedAccess off true) s = .next { s with sched := { s.sched with reservedAccesses := bump s.sched.reservedAccesses } }) ∧
  (∀ off w s, s.reachable → ¬ s.ep.d3hot → s.memReachable → ¬ (0x3C000 ≤ off ∧ off < 0x40000) → absentReg off s →
    ∃ t, exec (.absentUnitAccess off w) s = .next t ∧ t.sched.absentAccesses = bump s.sched.absentAccesses ∧ t.fc.first.isSome) ∧
  (∀ v co s, s.hostReaches 0x30 → ∃ t, exec (.globalEventWrite v co) s = .next t ∧
    t.sched.globalEvent = (s.sched.globalEvent &&& ~~~(BitVec.ofNat 4 v)) ||| co)

/-! ### The queue engine (chapter 11) -/

/-- The controller (R312, R333 to R336): EN starts the controller with its two admin queues when CSS, AMS and MPS are valid; RDY comes
only once the control complex runs and while CFS is clear; clearing EN deletes every queue and keeps AQA, ASQ and ACQ; a shutdown
is over when no admitted command is left; INTMS and INTMC set and clear mask bits outside MSI-X mode. -/
def Obligations.ControllerEffects : Prop :=
  (∀ v s, ¬ ccEn s.nvme.cc → bit v 0 → v / 16 % 8 = 0 → v / 2048 % 8 = 0 → v / 128 % 16 ≤ 4 → exec (.ccEnable v) s = .next { s with
    nvme := { s.nvme with cc := BitVec.ofNat 32 (v &&& 0x00FFFFF1), readying := true
                          sqs := [{ qid := 0, size := s.nvme.aqa.toNat % 4096 + 1, base := s.nvme.asq, cqid := 0 }]
                          cqs := [{ qid := 0, size := s.nvme.aqa.toNat / 65536 % 4096 + 1, base := s.nvme.acq, iv := 0, ien := true }] } }) ∧
  (∀ v s, ¬ ccEn s.nvme.cc → bit v 0 → ¬ (v / 16 % 8 = 0 ∧ v / 2048 % 8 = 0 ∧ v / 128 % 16 ≤ 4) → exec (.ccEnable v) s = .next { s with
    nvme := { s.nvme with cc := BitVec.ofNat 32 (v &&& 0x00FFFFF1), readying := false } }) ∧
  (∀ s, exec .controllerReady s = .next { s with nvme := if s.nvme.readying ∧ ¬ s.nvme.cfs ∧ s.sec.bootStep = 6 then
    { s.nvme with rdy := true, readying := false } else s.nvme }) ∧
  (∀ v s, ccEn s.nvme.cc → ¬ bit v 0 → ∃ t, exec (.ccDisable v) s = .next t ∧ t.nvme.cc = BitVec.ofNat 32 (v &&& 0x00FFFFF1) ∧
    t.nvme.rdy = false ∧ t.nvme.readying = false ∧ t.nvme.sqs = [] ∧ t.nvme.cqs = [] ∧ t.nvme.fetched = [] ∧ t.nvme.admitted = [] ∧ t.nvme.shst = 0) ∧
  (∀ v s, v / 16384 % 4 = 1 ∨ v / 16384 % 4 = 2 → exec (.shutdownNotification v) s = .next { s with
    nvme := { s.nvme with cc := BitVec.ofNat 32 (v &&& 0x00FFFFF1), shst := if s.nvme.admitted = [] then 2 else 1 } }) ∧
  (∀ v s, exec (.intmsWrite v) s = .next { s with
    nvme := { s.nvme with intMask := if s.cfg.irqMode = 3 then s.nvme.intMask else s.nvme.intMask ||| BitVec.ofNat 32 v } }) ∧
  (∀ v s, ∃ t, exec (.intmcWrite v) s = .next t ∧ t = { s with cfg := t.cfg, msix := t.msix, out := t.out, nvme := { s.nvme with
    intMask := if s.cfg.irqMode = 3 then s.nvme.intMask else s.nvme.intMask &&& ~~~(BitVec.ofNat 32 v) } })

/-- Doorbells, fetching, posting and coalescing (R337, R339, R343 to R345): a valid tail or head is taken and nothing else changes; an
ignored one is counted; a fetched command enters the holding area and its queue's head moves on; a posted completion leaves the
list of admitted commands, its entry is sent, and the completion queue's tail moves on. -/
def Obligations.QueueEffects : Prop :=
  (∀ q v x s, s.nvme.rdy → q < 4096 → s.sq q = some x → v < x.size → exec (.sqTailDoorbell q v) s = .next { s with
    nvme := { s.nvme with sqs := mapIf s.nvme.sqs (fun y => y.qid == q) (fun y => { y with tail := v }) } }) ∧
  (∀ q v x s, s.nvme.rdy → q < 4096 → s.sq q = some x → x.size ≤ v → ∃ t, exec (.sqTailDoorbell q v) s = .next t ∧
    t.ncnt.doorbellErrors = bump s.ncnt.doorbellErrors ∧ t.nvme.sqs = s.nvme.sqs) ∧
  (∀ q v x s, s.nvme.rdy → q < 4096 → s.cq q = some x → v < x.size → (v + x.size - x.head) % max x.size 1 ≤ x.used →
    exec (.cqHeadDoorbell q v) s = .next { s with nvme := { s.nvme with
      cqs := mapIf s.nvme.cqs (fun y => y.qid == q) (fun y => { y with head := v, used := y.used - (v + x.size - x.head) % max x.size 1 }) } }) ∧
  (∀ q v x s, s.nvme.rdy → q < 4096 → s.cq q = some x → x.size ≤ v → ∃ t, exec (.cqHeadDoorbell q v) s = .next t ∧
    t.ncnt.doorbellErrors = bump s.ncnt.doorbellErrors ∧ t.nvme.cqs = s.nvme.cqs) ∧
  (∀ q e x s, s.sq q = some x → s.nvme.rdy → ¬ s.nvme.fetchStop → ¬ s.ep.d3Stop → s.cfg.busMaster → x.waiting ≠ 0 →
    (s.nvme.fetched.filter (fun c => c.sqid == q)).length < 16 → s.nvme.fetched.length < 8192 →
    ¬ (s.nvme.fetched ++ s.nvme.admitted).any (fun y => y.sqid == q && y.e.cid == e.cid) → exec (.commandFetch q e) s = .next { s with nvme := { s.nvme with
      sqs := mapIf s.nvme.sqs (fun y => y.qid == q) (fun y => { y with head := (y.head + 1) % max y.size 1 })
      fetched := s.nvme.fetched ++ [{ sqid := q, e := e }] } }) ∧
  (∀ q e x s, s.sq q = some x → s.nvme.rdy → ¬ s.nvme.fetchStop → ¬ s.ep.d3Stop → s.cfg.busMaster → x.waiting ≠ 0 →
    (s.nvme.fetched.filter (fun c => c.sqid == q)).length < 16 → s.nvme.fetched.length < 8192 →
    (s.nvme.fetched ++ s.nvme.admitted).any (fun y => y.sqid == q && y.e.cid == e.cid) → ∃ t, exec (.commandFetch q e) s = .next t ∧
      t.ncnt.cidConflicts = bump s.ncnt.cidConflicts ∧ ∃ c ∈ t.nvme.admitted, c.sqid = q ∧ c.e = e ∧ c.stage = .ready 0 scCidConflict) ∧
  (∀ q cid c x k dw0 st s, s.nvme.admitted.find? (fun c => c.sqid == q && c.e.cid == cid && match c.stage with | .ready _ _ => true | _ => false) = some c →
    s.sq q = some x → s.cq x.cqid = some k → c.stage = .ready dw0 st → s.nvme.rdy → s.cfg.busMaster → ¬ s.ep.d3hot → c.admittedAt ≠ none → ¬ k.ien →
    (∀ y ∈ s.nvme.sqs, ¬ y.deleting) → ∃ t, exec (.completionPost q cid) s = .next t ∧
      t.out = .cqe k.qid q cid dw0 (statusField st) x.head k.phase :: s.out ∧ t.nvme.admitted = s.nvme.admitted.erase c ∧
      t.nvme.cqs = mapIf s.nvme.cqs (fun y => y.qid == k.qid) (fun y => { y with
        tail := (y.tail + 1) % max y.size 1, phase := if y.tail + 1 = y.size then !y.phase else y.phase, used := y.used + 1, reserved := y.reserved - 1 })) ∧
  (∀ v s, exec (.coalescingTimer v) s = .next { s with nvme := { s.nvme with
    coalDue := if s.nvme.unannounced.any (fun x => x.1 == v) then addOnce v s.nvme.coalDue else s.nvme.coalDue } })

/-- Admin commands that change queues and events (R338, R341, R342, R350, R356). `cmdReady 0 cid dw0 st` makes the command ready to
complete with Dword 0 and a status.
Admin commands that read and set values (R350, R353 to R355): Set Features stores what the feature table takes and answers its Dword 0, a
Set that asks to save is refused; Get Features, Identify and Get Log Page answer and change no feature. -/
def Obligations.AdminCommandEffects : Prop :=
  (∀ cid c s, s.freshAdmin cid 0x05 = some c → qidOk s.nvme.feat.ncq (s.cq (newQid c.e)).isSome (newQid c.e) → 2 ≤ newSize c.e →
    bit c.e.cdw11 0 → s.nvme.cc.toNat / 2 ^ 20 % 16 = 4 → ivOk s (c.e.cdw11 / 65536) → exec (.createIoCompletionQueue cid) s =
      .next (cmdReady 0 c.e.cid 0 0 { s with nvme := { s.nvme with cqs := s.nvme.cqs ++ [{
        qid := newQid c.e, size := newSize c.e, base := match c.e.dptr with | .prp p _ => p | _ => 0, iv := c.e.cdw11 / 65536, ien := bit c.e.cdw11 1 }] } })) ∧
  (∀ cid c s, s.freshAdmin cid 0x01 = some c → qidOk s.nvme.feat.nsq (s.sq (newQid c.e)).isSome (newQid c.e) → 2 ≤ newSize c.e →
    bit c.e.cdw11 0 → s.nvme.cc.toNat / 2 ^ 16 % 16 = 6 → c.e.cdw11 / 65536 ≠ 0 → (s.cq (c.e.cdw11 / 65536)).isSome → exec (.createIoSubmissionQueue cid) s =
      .next (cmdReady 0 c.e.cid 0 0 { s with nvme := { s.nvme with sqs := s.nvme.sqs ++ [{
        qid := newQid c.e, size := newSize c.e, base := match c.e.dptr with | .prp p _ => p | _ => 0, cqid := c.e.cdw11 / 65536 }] } })) ∧
  (∀ cid c s, s.freshAdmin cid 0x04 = some c → newQid c.e ≠ 0 → (s.cq (newQid c.e)).isSome → ¬ s.nvme.sqs.any (fun x => x.cqid == newQid c.e) →
    exec (.deleteIoCompletionQueue cid) s = .next (cmdReady 0 c.e.cid 0 0 { s with nvme := { s.nvme with
      cqs := s.nvme.cqs.filter (fun x => x.qid != newQid c.e) } })) ∧
  (∀ cid c s, s.freshAdmin cid 0x00 = some c → newQid c.e ≠ 0 → (s.sq (newQid c.e)).isSome → ¬ s.nvme.sqs.any (·.deleting) →
    (∀ x ∈ s.nvme.admitted ++ s.nvme.fetched, x.sqid ≠ newQid c.e) → ∃ t, exec (.deleteIoSubmissionQueue cid) s = .next t ∧
      t.nvme.sqs = s.nvme.sqs.filter (fun x => x.qid != newQid c.e)) ∧
  (∀ cid c s, s.freshAdmin cid 0x08 = some c → c.error = none →
    exec (.abortCmd cid) s = .next (cmdReady 0 c.e.cid (if c.todo = [] then 0 else 1) 0 s)) ∧
  (∀ cid c s, s.freshAdmin cid 0x0C = some c → s.nvme.aers.length < 4 → s.nvme.events = [] → ∃ t, exec (.asynchronousEventRequest cid) s = .next t ∧
    t.nvme.aers = s.nvme.aers ++ [c.e.cid] ∧ t.nvme.events = []) ∧
  (∀ cid c e es s, s.freshAdmin cid 0x0C = some c → s.nvme.aers.length < 4 → s.nvme.events = e :: es → ∃ t,
    exec (.asynchronousEventRequest cid) s = .next t ∧ t.nvme.events = es ∧ t.nvme.aers = s.nvme.aers) ∧
  (∀ cid d c s, s.freshAdmin cid 0x09 = some c → featureIds.contains (c.e.cdw10 % 256) → ¬ bit c.e.cdw10 31 →
    (setFeature (c.e.cdw10 % 256) c.e.cdw11 s.nvme.feat).2.2 = 0 → exec (.setFeatures cid d) s =
      .next (cmdReady 0 c.e.cid (setFeature (c.e.cdw10 % 256) c.e.cdw11 s.nvme.feat).2.1 0
        { s with nvme := { s.nvme with feat := (setFeature (c.e.cdw10 % 256) c.e.cdw11 s.nvme.feat).1 } })) ∧
  (∀ cid d c s, s.freshAdmin cid 0x09 = some c → featureIds.contains (c.e.cdw10 % 256) → bit c.e.cdw10 31 → ∃ t,
    exec (.setFeatures cid d) s = .next t ∧ t.nvme.feat = s.nvme.feat) ∧
  (∀ cid c s, s.freshAdmin cid 0x0A = some c → featureIds.contains (c.e.cdw10 % 256) → c.e.cdw10 / 256 % 8 = 0 →
    ¬ (c.e.cdw10 % 256 = 9 ∧ 2047 < c.e.cdw11 % 65536) → exec (.getFeatures cid) s =
      .next (cmdReady 0 c.e.cid (featureValue (c.e.cdw10 % 256) c.e.cdw11 s.nvme.feat) 0 s)) ∧
  (∀ cid c s, s.freshAdmin cid 0x06 = some c → c.e.cdw10 % 256 = 1 → exec (.identify cid) s =
    .next (cmdReady 0 c.e.cid 0 0 { s with out := .adminData c.e.cid (identifyController s) :: s.out })) ∧
  (∀ cid c s, s.freshAdmin cid 0x06 = some c → c.e.cdw10 % 256 = 0 → c.e.nsid ≠ 0xFFFFFFFF → s.volumeOf c.e.nsid = none → exec (.identify cid) s =
    .next (cmdReady 0 c.e.cid 0 0 { s with out := .adminData c.e.cid (List.replicate 4096 0) :: s.out })) ∧
  (∀ cid c b s, s.freshAdmin cid 0x02 = some c → c.e.cdw10 % 256 ≠ 4 → logPage s (c.e.cdw10 % 256) (c.e.cdw10 / 256 % 128) = some b →
    (u32 c.e.cdw12 + u32 c.e.cdw13 * 2 ^ 32) % 4 = 0 → u32 c.e.cdw12 + u32 c.e.cdw13 * 2 ^ 32 ≤ b.length → exec (.getLogPage cid) s =
      .next (cmdReady 0 c.e.cid 0 0 { s with out := .adminData c.e.cid (Sys2Proof.Machine.slice b (u32 c.e.cdw12 + u32 c.e.cdw13 * 2 ^ 32)
        (4 * (c.e.cdw10 / 65536 + c.e.cdw11 % 65536 * 65536 + 1))) :: s.out }))


/-- I/O commands start (R133, R146, R147, R346, R349, R351): one whose checks failed ends with their status and no effect on the
medium; a Write asks for the data of each of its sectors; Dataset Management and a Flush with nothing before it complete; a Write Zeroes takes
no host data; Read and Verify run on. -/
def Obligations.IoCommandEffects : Prop :=
  (∀ q cid c s, s.fresh q cid 1 = some c → c.error = none → c.nlb = 1 → exec (.write q cid) s =
    .next (hostRead 0 (.writeData c.sqid c.e.cid 0) (onCmd c.sqid c.e.cid (fun x => { x with stage := .running }) s))) ∧
  (∀ q cid c s, s.fresh q cid 1 = some c → c.error = none → ∃ t, exec (.write q cid) s = .next t ∧
    t.ep.reqs.map (·.2) = s.ep.reqs.map (·.2) ++ (List.range c.nlb).map (fun i => .writeData c.sqid c.e.cid i)) ∧
  (∀ q cid c st s, s.fresh q cid 2 = some c → c.error = some st → st ≠ scNotReady → exec (.read q cid) s = .next (cmdFail c.sqid c.e.cid st s)) ∧
  (∀ q cid c i a v l s, s.fresh q cid 2 = some c → s.cmd q cid = some c → (∀ x ∈ s.nvme.admitted, Cmd.named q cid x → x = c) → c.error = none → c.todo = [i] → c.fetching = [] → c.arrived = [] →
    s.array c.array = some a → a.volume c.volume = some v → ¬ s.nvme.admitted.any (·.uncommitted) → s.version a.id (c.lba a i) c.seq = some l → l.prim →
    ∃ t, exec (.read q cid) s = .next t ∧ t.sag.hitSectors = bump s.sag.hitSectors ∧ t.sag.missSectors = s.sag.missSectors ∧ t.arr = s.arr) ∧
  (∀ q cid c i a v l s, s.fresh q cid 0x0C = some c → s.cmd q cid = some c → (∀ x ∈ s.nvme.admitted, Cmd.named q cid x → x = c) → c.error = none → c.todo = [i] → c.fetching = [] → c.arrived = [] →
    s.array c.array = some a → a.volume c.volume = some v → ¬ s.nvme.admitted.any (·.uncommitted) → s.version a.id (c.lba a i) c.seq = some l → l.prim →
    ∃ t, exec (.verify q cid) s = .next t ∧ t.sag.hitSectors = bump s.sag.hitSectors ∧ t.sag.missSectors = s.sag.missSectors ∧ t.arr = s.arr) ∧
  (∀ q cid c s, s.fresh q cid 8 = some c → c.error = none → ∃ t, exec (.writeZeroes q cid) s = .next t ∧ t.ep = s.ep ∧ t.out = s.out) ∧
  (∀ q cid c s, s.fresh q cid 9 = some c → c.error = none → exec (.datasetManagement q cid) s =
    .next (cmdReady c.sqid c.e.cid 0 0 (onCmd c.sqid c.e.cid (fun x => { x with stage := .running }) s))) ∧
  (∀ q cid c s, s.fresh q cid 0 = some c → c.error = none → s.sag.lines = [] → ¬ s.nvme.admitted.any (fun w => w.isWrite && decide (w.seq < c.seq)) →
    exec (.flush q cid) s = .next (cmdReady c.sqid c.e.cid 0 0 (onCmd c.sqid c.e.cid (fun x => { x with stage := .running }) s))) ∧
  (∀ q cid i d p s, s.ep.reqs.any (fun r => r.2 == .writeData q cid i) → ∃ t, exec (.hostDataLanded q cid i d p) s = .next t ∧
    ¬ t.ep.reqs.any (fun r => r.2 == .writeData q cid i)) ∧
  (∀ q cid i d p s, ¬ s.ep.reqs.any (fun r => r.2 == .writeData q cid i) → exec (.hostDataLanded q cid i d p) s = .next s)

/-! ### Kilns, the saggar and the kiln car (chapters 02, 03, 05, 14) -/

/-- Kiln work (R57, R58, R68, R22): a piece that leaves bytes of its slice undone puts the slice back; a derived decode matrix and a computed
permutation become resident while there is room; a kiln memory error of a present kiln is captured, of an absent one is not. -/
def Obligations.KilnEffects : Prop :=
  (∀ j k job a s, s.job j = some job → s.array job.array = some a → (nth job.slices k {}).phase = .granted →
    (nth job.slices k {}).pos + (nth job.slices k {}).width < 4096 → exec (.kilnPieceComplete j k) s = .next
      (onSlice j k (fun y => { y with pos := y.pos + (nth job.slices k {}).width, phase := .ready }) s)) ∧
  (∀ j k s, s.job j = none → exec (.kilnPieceComplete j k) s = .next s) ∧
  (∀ n aid er s, s.kilnPresent n → (s.array aid).isSome → ((s.arr.matrices.filter (fun m => m != (n, aid, er))).filter (fun m => m.1 == n)).length < 32 →
    exec (.decodeMatrixDerived n aid er) s = .next { s with arr := { s.arr with
      matrices := s.arr.matrices.filter (fun m => m != (n, aid, er)) ++ [(n, aid, er)] } }) ∧
  (∀ aid dg r s, (s.array aid).isSome → (s.arr.perms.filter (fun p => p != (aid, dg, r))).length < 4096 →
    exec (.permutationComputed aid dg r) s = .next { s with arr := { s.arr with perms := s.arr.perms.filter (fun p => p != (aid, dg, r)) ++ [(aid, dg, r)] } }) ∧
  (∀ n e l m c k s, ¬ s.kilnPresent n → exec (.kilnMemError n e l m c k) s = .next s) ∧
  (∀ n e l m c k s, s.kilnPresent n → ∃ t, exec (.kilnMemError n e l m c k) s = .next t ∧ t.fc.first.isSome ∧ t.sag = s.sag ∧ t.klog = s.klog)

/-- The saggar (R126 to R128, R134, R139): a corrected error is counted and captured; a granted PENDING line whose copies are
written is marked so; a gathered stripe whose age is out becomes ready; one sample of the dirty level is taken. -/
def Obligations.SaggarEffects : Prop :=
  (∀ c n p k s, ¬ s.ddrPresent c → exec (.ddrEccError c n p k) s = .next s) ∧
  (∀ c n p s, s.ddrPresent c → ∃ t, exec (.ddrEccError c n p true) s = .next t ∧
    t.sag = { s.sag with eccCorrected := bump s.sag.eccCorrected } ∧ t.fc.first.isSome) ∧
  (∀ c n p s, s.ddrPresent c → ∃ t, exec (.ddrEccError c n p false) s = .next t ∧ t.fc.first.isSome) ∧
  (∀ n s, s.lineAt n = none → exec (.saggarPieceComplete n) s = .next s) ∧
  (∀ n l s, s.lineAt n = some l → ¬ l.granted → exec (.saggarPieceComplete n) s = .next s) ∧
  (∀ n l s, s.lineAt n = some l → l.granted → l.st = .pending → ¬ l.written → ¬ s.sag.rewrites.contains n → s.array l.array = none →
    exec (.saggarPieceComplete n) s = .next (onCmd l.sqid l.cid (fun c => { c with landed := addOnce l.idx c.landed })
      (onLines (fun x => x.no == n) (fun x => { x with written := true, granted := false }) s))) ∧
  (∀ aid n o s, s.sag.openStripes = [o] → o.array = aid → o.stripe = n → ¬ o.ready → o.start + s.sag.gatherTurns ≤ s.hw.turn →
    exec (.gatherAgeExpired aid n) s = .next { s with sag := { s.sag with
      openStripes := [{ o with ready := true, order := s.sag.nextOrder }], nextOrder := s.sag.nextOrder + 1 } }) ∧
  (∀ s, exec .dirtyLinesSample s = .next { s with klog := { s.klog with samples := s.klog.samples ++ [(0x0105, 0, 0, s.dirtyLines, s.now)] } })

/-- A kiln car channel (R414 to R418, R421, R425, R428): COMMIT on a running channel makes the shadow set the pending copy under the
next COMMIT_SEQ; STOP and START act on the states that R417 and R418 name; requests count on their line; a fetched descriptor that
is valid and within the hop limit becomes the current one; a granted burst moves the stream on. -/
def Obligations.KilnCarEffects : Prop :=
  (∀ ch s, ch < 64 → (s.chan ch).st = .running → (s.chan ch).committed = none → exec (.kcCommit ch) s = .next
    (onChan ch (fun c => { c with commitSeq := ((s.chan ch).commitSeq + 1) % 256
                                  committed := some { (s.chan ch).shadow with seq := ((s.chan ch).commitSeq + 1) % 256 } }) s)) ∧
  (∀ ch p s, ch < 64 → (s.chan ch).st = .running → (s.chan ch).committed = some p → ∃ t, exec (.kcCommit ch) s = .next t ∧
    t.kc.superseded = bump s.kc.superseded) ∧
  (∀ ch s, ch < 48 → ch < s.kc.chans.length → (s.chan ch).st = .idle → ∃ t, exec (.kcCommit ch) s = .next t ∧ (t.chan ch).st = .running ∧
    (t.chan ch).active = { (s.chan ch).shadow with seq := ((s.chan ch).commitSeq + 1) % 256 }) ∧
  (∀ ch s, ch < 64 → (s.chan ch).st = .running → exec (.kcStop ch) s = .next (onChan ch (fun c => { c with st := .stopping, stopWanted := true }) s)) ∧
  (∀ ch s, ch < 64 → (s.chan ch).st = .idle → exec (.kcStop ch) s = .next s ∧ exec (.kcStart ch) s = .next s) ∧
  (∀ ch s, ch < 64 → (s.chan ch).st = .stopped → (s.chan ch).committed = none → ¬ (s.chan ch).ended → exec (.kcStart ch) s = .next
    (onChan ch (fun c => { c with st := .running, cause := .none, hops := 0 }) s)) ∧
  (∀ s, exec (.reqSet 0) s = .next s) ∧
  (∀ s, nth s.kc.reqs 88 0 < 255 → exec (.reqSet 1) s = .next { s with kc := { s.kc with reqs := nthMod s.kc.reqs 88 (· + 1) } }) ∧
  (∀ n s, n < 96 → nth s.kc.reqs n 0 < 255 → exec (.requestLinePulse n) s = .next { s with kc := { s.kc with reqs := nthMod s.kc.reqs n (· + 1) } }) ∧
  (∀ n s, n < 96 → 255 ≤ nth s.kc.reqs n 0 → ∃ t, exec (.requestLinePulse n) s = .next t ∧ t.kc = { s.kc with reqOverflow := bump s.kc.reqOverflow } ∧ t.fc.first.isSome) ∧
  (∀ ch d s, ch < 64 → (s.chan ch).active? → (s.chan ch).desc = none → ¬ descInvalid d (isMaint ch) (s.pw.stagingMib * 1048576) → d.last → ¬ d.crcContinue →
    exec (.descriptorFetched ch d) s = .next (onChan ch (fun c => { c with hops := (s.chan ch).hops + 1, desc := some d, bytesDone := 0
                                                                           running := some (crcInit d.crc), startRunning := some (crcInit d.crc) }) s)) ∧
  (∀ ch d s, ch < 64 → (s.chan ch).active? → (s.chan ch).desc = none → descInvalid d (isMaint ch) (s.pw.stagingMib * 1048576) → ∃ t,
    exec (.descriptorFetched ch d) s = .next t ∧ t.kc.descErrors = bump s.kc.descErrors ∧ t.fc.first.isSome) ∧
  (∀ ch d c s, ch < 48 → ch < s.kc.chans.length → s.chan ch = c → c.st = .running → c.desc = some d → c.committed = none → ¬ s.kc.halted → d.byteCount ≤ c.bytesDone →
    d.last → ∃ t, exec (.descriptorBoundary ch false) s = .next t ∧ (t.chan ch).st = .finished ∧ (t.chan ch).cause = .endOfCount ∧ (t.chan ch).desc = none) ∧
  (∀ ch m c k s, ch < 64 → ∃ t, exec (.kcMemError ch m c k) s = .next t ∧ t.fc.first.isSome ∧ (k → t.kc = s.kc)) ∧
  (∀ ch d data ix s, ch < 64 → (s.chan ch).desc = some d → (s.chan ch).st = .running → (s.chan ch).granted → ¬ s.kc.halted → d.op = 3 → d.crc = 0 →
    exec (.burstComplete (.channel ch data ix)) s = .next (onChan ch (fun c => { c with
      bytesDone := c.bytesDone + (burstStream (s.chan ch) d (data.take (min 16384 (d.byteCount - (s.chan ch).bytesDone))) s).length
      granted := false, running := c.running.map (fun r => r) }) s)) ∧
  (∀ ch data ix s, ch < 64 → (s.chan ch).desc = none → exec (.burstComplete (.channel ch data ix)) s = .next s)

/-! ### Members (chapters 06, 07, 20) -/

/-- Hot-plug (R547, R548, R551): a present change starts the debounce; a debounced level outside the hold-off powers the port, and after
the PERST# delay the link trains; a change that goes back before its debounce ends has no effect; a link that goes down retrains.
A debounced removal stops the port and takes its members out of reach at once (R193, R194, R548). -/
def Obligations.HotPlugEffects : Prop :=
  (∀ p b s, ¬ s.portExists p → exec (.prsntChange p b) s = .next s) ∧
  (∀ p b s, s.portExists p → exec (.prsntChange p b) s = .next
    (interruptTests (fun x => x.unit == 2 && x.index == p) (onPort p (fun q => { q with debounce := if b = q.level then none else some b }) s))) ∧
  (∀ p s, s.portExists p → (s.port p).debounce = none → exec (.prsntDebounceExpired p) s = .next s) ∧
  (∀ p b s, s.portExists p → (s.port p).debounce = some b → (s.port p).holdoff → exec (.prsntDebounceExpired p) s = .next
    (onPort p (fun q => { q with level := b, debounce := none }) s)) ∧
  (∀ p s, s.portExists p → p < s.arr.ports.length → (s.port p).debounce = some true → ¬ (s.port p).holdoff → ¬ (s.port p).present → exec (.prsntDebounceExpired p) s = .next
    (onPort p (fun q => { q with level := true, debounce := none, present := true, power := true, refclk := true, holdoff := true }) s)) ∧
  (∀ p s, s.portExists p → ¬ (s.port p).holdoff → exec (.prsntHoldoffExpired p) s = .next s) ∧
  (∀ p s, s.portExists p → (s.port p).holdoff → (s.port p).level = (s.port p).present → exec (.prsntHoldoffExpired p) s = .next
    (onPort p (fun q => { q with holdoff := false }) s)) ∧
  (∀ p s, s.portExists p → (s.port p).power → (s.port p).perst → exec (.memberPerstDelayExpired p) s = .next
    (onPort p (fun q => { q with perst := false, training := true }) s)) ∧
  (∀ p s, ¬ (s.portExists p ∧ (s.port p).up) → exec (.memberLinkDown p) s = .next s) ∧
  (∀ p s, s.portExists p → p < s.arr.ports.length → (s.port p).up → ∃ t, exec (.memberLinkDown p) s = .next t ∧ (t.port p).up = false ∧ (t.port p).training = true ∧
    t.arr.ns = mapIf s.arr.ns (Ns.onPort p) (fun n => { n with cond := if n.cond = .healthy then .unavailable 2 else n.cond, reread := n.reread || true }) ∧ t.fc = s.fc) ∧
  (∀ p s, s.portExists p → p < s.arr.ports.length → (s.port p).debounce = some false → ¬ (s.port p).holdoff → (s.port p).present → ∃ t,
    exec (.prsntDebounceExpired p) s = .next t ∧ (∀ n ∈ t.arr.ns, n.onPort p → n.cond ≠ .healthy))


/-- Conditions of members (R193, R194): an identity read for a namespace in reach that is not known yet adds it; an UNAVAILABLE member
that has not come back is to be declared FAILED with the cause it has; a controller that is fatal is declared FAILED with cause 4. -/
def Obligations.MemberConditionEffects : Prop :=
  (∀ id i s, i.mark = none → s.ns id = none → ¬ (nsLoc id).remote → (s.port (nsLoc id).port).up → s.arr.releases = [] → exec (.memberIdentityRead id i) s = .next { s with
    arr := { s.arr with ns := s.arr.ns ++ [{ id := id, loc := nsLoc id, ident := i }] } }) ∧
  (∀ id i s, i.mark = none → s.ns id = none → ¬ (nsLoc id).remote → ¬ (s.port (nsLoc id).port).up → exec (.memberIdentityRead id i) s = .next s) ∧
  (∀ id n s, s.ns id = some n → n.cond = .healthy → exec (.unavailLimitExpired id) s = .next s) ∧
  (∀ id n c s, s.ns id = some n → n.cond = .unavailable c → n.arrayUid ≠ 0 → ¬ n.stale → n.declare = none → n.failing = none → ∃ t,
    exec (.unavailLimitExpired id) s = .next t ∧ t.fc.first.isSome ∧ (∃ x, t.ns id = some x ∧ x.declare = some c)) ∧
  (∀ id n s, s.ns id = some n → n.arrayUid ≠ 0 → ¬ n.stale → n.declare = none → n.failing = none → ∃ t, exec (.controllerFatal id) s = .next t ∧
    t.fc.first.isSome ∧ (∃ x, t.ns id = some x ∧ x.declare = some 4)) ∧
  (∀ aid a s, s.array aid = some a → s.pol.scrubPeriod ≠ 255 → a.service = 2 → a.owner → ¬ s.arr.scrubs.any (fun x => x.array == aid) →
    exec (.patrolScrubDue aid) s = .next { s with arr := { s.arr with scrubs := s.arr.scrubs.filter (fun x => x.array != aid) ++
      [{ array := aid, repair := true, next := 0, stop := a.body.desc.rounds * descS a.body.desc, patrol := true }] } }) ∧
  (∀ s, ¬ s.arr.arrays.any (fun a => a.owner && a.unpersisted) → exec .doneRoundPersistTimer s = .next s) ∧
  (∀ a s, s.arr.arrays.filter (fun a => a.owner && a.unpersisted) = [a] → s.array a.id = some a → ∃ t, exec .doneRoundPersistTimer s = .next t ∧ MarkDue a.id t)

/-- Member commands (R197 to R200): a timeout sends an Abort and takes the member out of reach; a late completion is counted and its
identifier quarantined; an Abort that times out resets the member; a command whose result is not wanted leaves the list. -/
def Obligations.MemberCommandEffects : Prop :=
  (∀ id st d s, s.mcmd id = none → exec (.memberCommandComplete id st d) s = .next s) ∧
  (∀ id c st d s, s.mcmd id = some c → c.sent → ¬ c.timedOut → c.job = 0 → c.op = .format → exec (.memberCommandComplete id st d) s = .next { s with
    arr := { s.arr with cmds := s.arr.cmds.filter (fun x => x.id != id) } }) ∧
  (∀ id c s, s.mcmd id = some c → ¬ c.timedOut → s.job c.job = none → c.op = .write → ∃ t, exec (.memberTimeoutExpired id) s = .next t ∧
    t.out = .memberAbort c.id :: s.out ∧ (∀ n ∈ t.arr.ns, n.id = c.ns → n.cond ≠ .healthy) ∧ (∃ x ∈ t.arr.cmds, x.id = c.id ∧ x.timedOut ∧ x.abortSent)) ∧
  (∀ id c s, s.mcmd id = some c → c.timedOut → c.abortSent → exec (.memberAbortTimeout id) s = .next { s with
    out := .memberReset (((s.ns c.ns).map (·.loc.port)).getD 0) :: s.out }) ∧
  (∀ p s, ¬ s.arr.cmds.any (fun c => c.sent) → exec (.memberControllerResetDone p true) s = .next (makeUnavailable (Ns.onPort p) 3 s)) ∧
  (∀ id c s, s.mcmd id = some c → c.timedOut → ∃ t, exec (.memberLateCompletion id) s = .next t ∧ t.fc.first.isSome) ∧
  (∀ id s, exec (.cidQuarantineExpired id) s = .next { s with arr := { s.arr with quarantine := s.arr.quarantine.filter (· != id) } }) ∧
  (∀ id c s, s.mcmd id = some c → s.job c.job = none → exec (.slowReadExpired id) s = .next s) ∧
  (∀ id c j s, s.mcmd id = some c → s.job c.job = some j → j.kind = .hostRead → c.op = .read → c.role = j.intentGen → ∃ t,
    exec (.slowReadExpired id) s = .next t ∧ t.arr.slowReads = bump s.arr.slowReads)

/-! ### Twin operation (chapter 08) -/

/-- Slip flits (R239 to R241): a flit in sequence is taken, one with an error or out of sequence is answered with NAK, MIRROR_ACK ends the
wait of the messages it covers, and a silent link retrains.
The session of the Slip link (R233, R251): a HELLO that agrees is kept, one that does not is captured as a fault; a link-up clears what
is held for the other side and makes a snapshot due. -/
def Obligations.SlipLinkEffects : Prop :=
  (∀ f s, ¬ s.twin.trained → exec (.slipFlitReceived f) s = .next s) ∧
  (∀ f s, s.twin.trained → (¬ f.crcOk ∨ 1 < f.kind ∨ f.linkSeq ≠ s.twin.expected) → s.twin.nakSent < 3 → exec (.slipFlitReceived f) s = .next { s with
    twin := { s.twin with crcErrors := bump s.twin.crcErrors, nakSent := s.twin.nakSent + 1 }, out := .slipNak s.twin.expected :: s.out }) ∧
  (∀ f s, s.twin.trained → (¬ f.crcOk ∨ 1 < f.kind ∨ f.linkSeq ≠ s.twin.expected) → 3 ≤ s.twin.nakSent → ∃ t, exec (.slipFlitReceived f) s = .next t ∧
    t.twin.training = true ∧ t.twin.up = false) ∧
  (∀ f s, s.twin.trained → f.crcOk → f.kind ≤ 1 → f.linkSeq = s.twin.expected → ¬ f.nak → f.mirrorAck ≤ s.twin.mirrorAckRx → exec (.slipFlitReceived f) s = .next { s with
    twin := replayTrim f.linkAck { s.twin with nakSent := 0, expected := (s.twin.expected + f.kind) % 65536, nakCount := 0 } }) ∧
  (∀ f s m, s.twin.trained → f.crcOk → f.kind ≤ 1 → f.linkSeq = s.twin.expected → ¬ f.nak → s.twin.mirrorAckRx < f.mirrorAck → f.mirrorAck ≤ s.twin.msgSeqTx →
    m ∈ s.twin.sent → m.seq ≤ f.mirrorAck → ∃ t, exec (.slipFlitReceived f) s = .next t ∧ t.twin.mirrorAckRx = f.mirrorAck ∧ ∀ x ∈ t.twin.sent, f.mirrorAck < x.seq) ∧
  (∀ s, s.twin.trained → ∃ t, exec .slipSilenceTimeout s = .next t ∧ t.twin.training = true ∧ t.twin.trained = false ∧ t.twin.up = false) ∧
  (∀ q d b pc md ls p s, s.twin.trained → s.twin.partner = some d → b = Config.deviceId → md = 1 → s.twin.mode = 1 → exec (.hello q d b pc md ls p) s = .next
    (heldMsg q { s with twin := { s.twin with helloGot := true, helloOk := true } })) ∧
  (∀ q d b pc md ls p s, s.twin.trained → s.twin.partner ≠ some d → ∃ t, exec (.hello q d b pc md ls p) s = .next t ∧ t.fc.first.isSome) ∧
  (∀ q d b pc md ls p s, ¬ s.twin.trained → exec (.hello q d b pc md ls p) s = .next s) ∧
  (∀ s, s.twin.trained → s.twin.helloGot → ¬ s.twin.up → s.twin.helloOk → s.twin.areaReady → ∃ t, exec .slipLinkUp s = .next t ∧ t.twin.up = true ∧
    t.twin.snapshotDue = true ∧ t.vault.partner = [] ∧ ∀ l ∈ t.sag.lines, l.st ≠ .mirror) ∧
  (∀ s, s.twin.trained → s.twin.helloGot → ¬ s.twin.up → ¬ s.twin.helloOk → s.twin.partner ≠ none → ∃ t, exec .slipLinkUp s = .next t ∧ t.twin.up = true ∧
    t.twin.st = .mismatch ∧ t.vault = s.vault ∧ t.sag = s.sag ∧ t.arr = s.arr)


/-- Messages of the mirror (R247 to R249): the next MSG_SEQ moves MIRROR_ACK on, one that leaves a gap is held; a record or line is held
under its TWIN_SEQ and a second copy is only counted; a line finds no room in a full receive area; END frees the lines of its writes. -/
def Obligations.SlipMessageEffects : Prop :=
  (∀ q s, s.slipRx → q = s.twin.msgSeqRx + 1 → s.twin.heldRx = [] → exec (.snapshotBegin q) s = .next { s with twin := { s.twin with msgSeqRx := q } }) ∧
  (∀ q s, s.slipRx → q = s.twin.msgSeqRx + 1 → s.twin.heldRx = [] → exec (.snapshotEnd q) s = .next { s with twin := { s.twin with msgSeqRx := q } }) ∧
  (∀ q s, s.slipRx → s.twin.msgSeqRx + 1 < q → s.twin.heldRx = [] → exec (.snapshotEnd q) s = .next { s with twin := { s.twin with heldRx := [q] } }) ∧
  (∀ q sd rs s, s.slipRx → ∃ t, exec (.records q sd rs) s = .next t ∧ ∀ r ∈ rs, r.twinSeq ∈ t.twin.heldTwinSeq) ∧
  (∀ q sd r s, s.slipRx → r.twinSeq ∈ s.twin.heldTwinSeq → exec (.records q sd [r]) s = .next (heldMsg q { s with twin := { s.twin with duplicates := bump s.twin.duplicates } })) ∧
  (∀ q sd ts l s, s.slipRx → ts ∈ s.twin.heldTwinSeq → exec (.line q sd ts l) s = .next (heldMsg q { s with twin := { s.twin with duplicates := bump s.twin.duplicates } })) ∧
  (∀ q sd ts l s, s.slipRx → ts ∉ s.twin.heldTwinSeq → l.admitSeq ∉ s.twin.ended → s.freeMirror ≠ none → ∃ t, exec (.line q sd ts l) s = .next t ∧ ts ∈ t.twin.heldTwinSeq) ∧
  (∀ q sd ts l s, s.slipRx → ts ∉ s.twin.heldTwinSeq → l.admitSeq ∉ s.twin.ended → s.freeMirror = none → exec (.line q sd ts l) s = .next s) ∧
  (∀ q sd key seqs s, s.slipRx → ∃ t, exec (.endMsg q sd key seqs) s = .next t ∧ t.twin.ended = s.twin.ended ++ seqs ∧
    t.sag.lines = s.sag.lines.filter (fun l => !(l.st == .mirror && l.key == key && seqs.contains l.seq)) ∧ t.arr = s.arr ∧ t.vault = s.vault) ∧
  (∀ q key g dr es a s, s.slipRx → s.arrayOfKey key = some a → s.array a.id = some a → ¬ a.owner → ∃ t, exec (.progress q key g dr es) s = .next t ∧
    ∃ x, t.array a.id = some x ∧ x.markGen = max a.markGen g ∧ x.exact = es) ∧
  (∀ q key g dr es a s, s.slipRx → s.arrayOfKey key = some a → a.owner → exec (.progress q key g dr es) s = .next (heldMsg q s)) ∧
  (∀ q sd ps ls rs es s, s.slipRx → s.twin.mode = 2 → ∃ t, exec (.statePage q sd ps ls rs es) s = .next t ∧ t.twin.ended = s.twin.ended ++ es ∧
    ∀ r ∈ rs, r.twinSeq ∈ t.twin.heldTwinSeq) ∧
  (∀ q sd ps ls rs es s, s.twin.mode ≠ 2 → exec (.statePage q sd ps ls rs es) s = .next s)

/-- Planned moves (R258, R259): RELEASE makes the receiver the owner with its admission sequences above those of the old one; DONE leaves
the old owner without records or open stripes of the array; a drained move stops writing and queues RELEASE; a drill moves back. -/
def Obligations.HandoverEffects : Prop :=
  (∀ q key la a s, s.slipRx → s.arrayOfKey key = some a → ¬ a.owner → a.shared → a.takeover = 0 → ∃ t, exec (.handover q key false la) s = .next t ∧
    la < t.nvme.admitSeq ∧ ∀ x ∈ t.arr.arrays, x.id = a.id → x.owner) ∧
  (∀ q key la a s, s.slipRx → s.arrayOfKey key = some a → a.moving = 3 → ∃ t, exec (.handover q key true la) s = .next t ∧
    (∀ x ∈ t.arr.arrays, x.id = a.id → x.moving = 0 ∧ x.anaNext = some .inaccessible) ∧ (∀ r ∈ t.vault.own, r.key ≠ arrayKey a.body.uid)) ∧
  (∀ q key la a s, s.slipRx → s.arrayOfKey key = some a → a.moving ≠ 3 → exec (.handover q key true la) s = .next (heldMsg q s)) ∧
  (∀ aid a s, s.array aid = some a → a.moving = 2 → s.twin.up → s.drained a → ∃ t, exec (.moveDrainComplete aid) s = .next t ∧
    t.twin.queueMeta = s.twin.queueMeta ++ [(arrayKey a.body.uid, 0, 0, .handover false (s.nvme.admitSeq - 1))] ∧
    ∀ x ∈ t.arr.arrays, x.id = aid → x.moving = 3 ∧ x.owner = false) ∧
  (∀ aid a s, s.array aid = some a → ¬ s.drained a → exec (.moveDrainComplete aid) s = .next s) ∧
  (∀ aid a s, s.array aid = some a → a.shared → a.owner → a.moving = 0 → s.slipRx → exec (.drillHoldExpired aid) s = .next
    (onArray aid (fun x => { x with moving := 1 }) s)) ∧
  (∀ aid a s, s.array aid = some a → ¬ a.owner → exec (.drillHoldExpired aid) s = .next s)

/-- Takeover (R252 to R255): a reservation check goes to the array's journal member; a lost registration stands the array down; a lost
partner is captured; side 1 takes over the eligible arrays after its delay; the fence wait ends with the array in recovery. -/
def Obligations.TakeoverEffects : Prop :=
  (∀ s, s.twin.up → exec .reservationCheckDue s = .next s) ∧
  (∀ a n s, ¬ s.twin.up → s.twin.partner ≠ none → s.ownShared = [a] → s.checkNs a = some n → exec .reservationCheckDue s = .next
    (addCmd { ns := n.id, op := .reservationReport, cls := 1 } (onArray a.id (fun x => { x with checkIssued := s.hw.turn }) s))) ∧
  (∀ aid a s, s.array aid = some a → ¬ s.twin.up → a.shared → a.owner → ∃ t, exec (.reservationReportDone aid true) s = .next t ∧
    (∀ x ∈ t.arr.arrays, x.id = aid → x.checkGood = some a.checkIssued) ∧ t.twin = s.twin) ∧
  (∀ aid a s, s.array aid = some a → ¬ s.twin.up → a.shared → a.owner → ∃ t, exec (.reservationReportDone aid false) s = .next t ∧
    (∀ x ∈ t.arr.arrays, x.id = aid → x.stoodDown ∧ ¬ x.owner) ∧ t.twin.st = .stoodDown) ∧
  (∀ s, ¬ s.twin.up → s.twin.partner ≠ none → s.twin.st ≠ .partnerLost → ∃ t, exec .partnerLost s = .next t ∧ t.fc.first.isSome ∧
    (t.twin.st = .stoodDown ∨ t.twin.st = .partnerLost)) ∧
  (∀ s, s.twin.up ∨ s.twin.partner = none ∨ s.twin.st = .partnerLost → exec .partnerLost s = .next s) ∧
  (∀ s, s.twin.st = .partnerLost → ¬ s.twin.up → ∃ t, exec (.side1DelayExpired true) s = .next t ∧ (s.twinSide = 0 → t = s) ∧
    (s.twinSide = 1 → ∀ a ∈ s.eligible, ∀ x ∈ t.arr.arrays, x.id = a.id → x.takeover = 1 ∨ x.takeover = 2)) ∧
  (∀ s, exec (.side1DelayExpired false) s = .next s) ∧
  (∀ aid inp a s, s.array aid = some a → a.takeover = 2 → ∃ t, exec (.fenceWaitExpired aid inp) s = .next t ∧ ∀ x ∈ t.arr.arrays, x.id = aid → x.takeover = 3) ∧
  (∀ aid inp a s, s.array aid = some a → a.takeover ≠ 2 → exec (.fenceWaitExpired aid inp) s = .next s)

/-- The twin commands (R231, R253, R258, R259, R262 to R265), where the steps before their effect pass (R366). -/
def Obligations.TwinCommandEffects : Prop :=
  (∀ mb s, planRuns mb 0x0501 s (pairPlan s) = true → s.twin.bound ≠ some (BitVec.ofNat 128 (pairFields s (s.mb mb)).1) → ∃ t, exec (.twinPair mb) s = .next t ∧
    Succeeds mb [] [] t ∧ t.twin.bound = some (BitVec.ofNat 128 (pairFields s (s.mb mb)).1) ∧ t.hw = { s.hw with twinBinds := s.hw.twinBinds + 1 }) ∧
  (∀ mb s, planRuns mb 0x0501 s (pairPlan s) = true → s.twin.bound = some (BitVec.ofNat 128 (pairFields s (s.mb mb)).1) → ∃ t, exec (.twinPair mb) s = .next t ∧
    Succeeds mb [] [] t ∧ t.twin.bound = s.twin.bound ∧ t.hw = s.hw) ∧
  (∀ mb s, planRuns mb 0x0502 s (twinUnpairPlan s) = true → ∃ t, exec (.twinUnpair mb) s = .next t ∧ t.twin.bound = none ∧ t.twin.partner = none ∧
    t.twin.st = .unpaired) ∧
  (∀ mb s, planRuns mb 0x0503 s (twinGetStatusPlan s) = true → ∃ t, exec (.twinGetStatus mb) s = .next t ∧ t = { s with mci := t.mci } ∧
    Succeeds mb (((List.range 16).map (fun i => leBytes 4 ((twinReg (4 * i) s).getD 0))).flatten) ((s.liveArrays.map (twinArrayEntry s)).flatten) t) ∧
  (∀ mb s, planRuns mb 0x0504 s (twinSetPolicyPlan s) = true → ∃ t, exec (.twinSetPolicy mb) s = .next t ∧ t.tpolNext = (twinPolicyFields (s.mb mb)).1 ∧
    t.tpol = s.tpol ∧ Succeeds mb [] [] t) ∧
  (∀ mb s, planRuns mb 0x0505 s (twinMoveArrayPlan s) = true → (s.mb mb).staged = none → movable s (moveFields s (s.mb mb)).1 ≠ [] → ∃ t,
    exec (.twinMoveArray mb) s = .next t ∧ InProgress mb t ∧
    ∀ a ∈ movable s (moveFields s (s.mb mb)).1, ∀ x ∈ t.arr.arrays, x.id = a.id → x.moving = 1 ∧ x.moveMb = some mb) ∧
  (∀ mb ls rs ms a l s, planRuns mb 0x0506 s (twinSwapDrillPlan s) = true → movable s (drillFields s (s.mb mb)).1 = a :: l → (drillFields s (s.mb mb)).2.1 = true →
    (ls ≠ [] ∨ rs ≠ [] ∨ ms ≠ 0) → ∃ t, exec (.twinSwapDrill mb ls rs ms) s = .next t ∧ t.fc.first.isSome ∧
    Succeeds mb (drillBytes (if ls = [] ∧ rs = [] then 2 else 1) ls.length rs.length ms 0) [] t) ∧
  (∀ mb a l s, planRuns mb 0x0506 s (twinSwapDrillPlan s) = true → (s.mb mb).staged = none → movable s (drillFields s (s.mb mb)).1 = a :: l → ∃ t,
    exec (.twinSwapDrill mb [] [] 0) s = .next t ∧ InProgress mb t ∧ ∀ x ∈ t.arr.arrays, x.id = a.id → x.moving = 1 ∧ x.moveMb = some mb) ∧
  (∀ mb a fc p s, planRuns mb 0x0507 s (twinTakeoverPlan s) = true → (s.mb mb).staged = none → takeoverFields s (s.mb mb) = (some a, fc, p) → ∃ t,
    exec (.twinTakeover mb) s = .next t ∧ InProgress mb t ∧ ∀ x ∈ t.arr.arrays, x.id = a.id → x.takeover = 1 ∨ x.takeover = 2)

/-! ### Coil transport (chapter 09) -/

/-- What every Coil packet meets first (R281): a port that carries no traffic, a header that is not for this node, a slot that is not
valid, an authentication failure, which is captured.
Ports of the Coil engine (R22, R266, R267, R292): ARP, Neighbor Discovery and ICMP echo are answered, PAUSE is discarded and
counted, a link that goes down retrains. -/
def Obligations.CoilPacketGate : Prop :=
  (∀ h b s, ¬ (s.coilPresent h.port ∧ s.coil.linkUp.getLsbD h.port) → exec (.openReq h b) s = .next s) ∧
  (∀ h e s, s.coilPresent h.port → s.coil.linkUp.getLsbD h.port → (h.version ≠ 1 ∨ h.dst ≠ s.coil.cfg.nodeId ∨ ¬ h.sizeOk) → exec (.close h e) s = .next
    { s with ccnt := { s.ccnt with rxDrops := bump s.ccnt.rxDrops } }) ∧
  (∀ h l s, s.coilPresent h.port → s.coil.linkUp.getLsbD h.port → h.version = 1 → h.dst = s.coil.cfg.nodeId → h.sizeOk → ¬ (s.coil.slot h.keySlot).valid →
    exec (.ack h l) s = .next { s with ccnt := { s.ccnt with authFailures := bump s.ccnt.authFailures } }) ∧
  (∀ h d s, s.coilPresent h.port → s.coil.linkUp.getLsbD h.port → h.version = 1 → h.dst = s.coil.cfg.nodeId → h.sizeOk → (s.coil.slot h.keySlot).valid →
    ¬ s.dev.debugActive → ¬ h.authentic → ∃ t, exec (.send h d) s = .next t ∧ t.ccnt.authFailures = bump s.ccnt.authFailures ∧ t.fc.first.isSome ∧ t.pw = s.pw) ∧
  (∀ k p s, s.coilPresent p → s.coil.linkUp.getLsbD p → 1 ≤ k → k ≤ 3 → exec (.nonCoilPacket k p) s = .next { s with out := .netReply p k :: s.out }) ∧
  (∀ k p s, k = 0 ∨ 3 < k → exec (.nonCoilPacket k p) s = .next s) ∧
  (∀ p s, s.coilPresent p → s.coil.linkUp.getLsbD p → exec (.pauseFrame p) s = .next { s with ccnt := { s.ccnt with rxDrops := bump s.ccnt.rxDrops } }) ∧
  (∀ p s, s.coilPresent p → s.coil.linkUp.getLsbD p → ∃ t, exec (.coilPortLinkDown p) s = .next t ∧ t.coil.linkUp.getLsbD p = false ∧ t.coil.training.getLsbD p = true) ∧
  (∀ p s, ¬ (s.coilPresent p ∧ s.coil.linkUp.getLsbD p) → exec (.pauseFrame p) s = .next s ∧ exec (.coilPortLinkDown p) s = .next s)

/-- The handshake (R277 to R279). OPEN allocates nothing and is answered by a CHALLENGE with a cookie, or by NAK BUSY; CHALLENGE makes the
opener confirm; CONFIRM takes an entry when its cookie is right; ACCEPT establishes; the retry interval doubles up to 64 ms. -/
def Obligations.CoilHandshakeEffects : Prop :=
  (∀ h b s, s.coilPasses h → baseOk b → ¬ ((coilSeen h s).coil.slot h.keySlot).exhausted → (coilSeen h s).freeEntry ≠ none → ∃ t, exec (.openReq h b) s = .next t ∧
    t.out = .coil 0xFFFF 2 h.src ((coilSeen h s).coil.slot h.keySlot).statelessCtr 0xFFFF
      [b, cookieFor (coilSeen h s) h.src h.epoch (b / 2 ^ 32) (coilSeen h s).bucket, flag s.coil.cfg.payload8k 3] [] :: s.out ∧
    t.coil.assocs = (coilSeen h s).coil.assocs) ∧
  (∀ h b s, s.coilPasses h → baseOk b → ¬ ((coilSeen h s).coil.slot h.keySlot).exhausted → (coilSeen h s).freeEntry = none → ∃ t, exec (.openReq h b) s = .next t ∧
    t.ccnt.busySent = bump s.ccnt.busySent ∧ t.coil.assocs = (coilSeen h s).coil.assocs) ∧
  (∀ h b s, s.coilPasses h → ¬ baseOk b → exec (.openReq h b) s = .next (drop (coilSeen h s))) ∧
  (∀ h b c e s, s.coilPasses h → (coilSeen h s).coil.assocs.find? (fun e => e.opener && e.peer == h.src && e.block * 2 ^ 32 == b && (e.st == .opening || e.st == .confirming)) = some e →
    ∃ t, exec (.challenge h b c) s = .next t ∧ ∀ x ∈ t.coil.assocs, x.no = e.no → x.st = .confirming ∧ x.cookie = c ∧ x.retryUs = 100) ∧
  (∀ h b c no s, s.coilPasses h → baseOk b → (coilSeen h s).coil.assocs.find? (fun e => e.peer == h.src && e.peerEpoch == h.epoch && e.peerBlock == b / 2 ^ 32 && !e.opener) = none →
    c = cookieFor (coilSeen h s) h.src h.epoch (b / 2 ^ 32) (coilSeen h s).bucket → (coilSeen h s).freeEntry = some no → ¬ ((coilSeen h s).coil.slot h.keySlot).exhausted →
    ∃ t, exec (.confirm h b c) s = .next t ∧ ∃ x ∈ t.coil.assocs, x.no = no ∧ x.peer = h.src ∧ x.st = .confirming ∧ x.opener = false ∧ x.peerBlock = b / 2 ^ 32) ∧
  (∀ h b c s, s.coilPasses h → baseOk b → (coilSeen h s).coil.assocs.find? (fun e => e.peer == h.src && e.peerEpoch == h.epoch && e.peerBlock == b / 2 ^ 32 && !e.opener) = none →
    c ≠ cookieFor (coilSeen h s) h.src h.epoch (b / 2 ^ 32) (coilSeen h s).bucket →
    c ≠ cookieFor (coilSeen h s) h.src h.epoch (b / 2 ^ 32) (u32 ((coilSeen h s).bucket + 2 ^ 32 - 1)) → exec (.confirm h b c) s = .next (coilSeen h s)) ∧
  (∀ h ob rb e s, s.coilPasses h → (coilSeen h s).coil.assocs.find? (fun e => e.opener && e.st == .confirming && e.peer == h.src && e.block * 2 ^ 32 == ob) = some e →
    ¬ s.arr.cmds.any (fun c => c.sent && c.timedOut) → exec (.accept h ob rb) s = .next (onAssoc e.no (fun x => { x with
      st := .established, peerEpoch := h.epoch, peerBlock := rb / 2 ^ 32, peerPmax := h.pmax, lastRx := s.hw.turn }) (coilSeen h s))) ∧
  (∀ n e s, s.assoc n = some e → e.opener → ¬ e.busy → (e.st = .opening ∨ e.st = .confirming) → ∃ t, exec (.openRetryTimer n) s = .next t ∧
    ∃ x, t.assoc n = some x ∧ x.retryUs = min 64000 (2 * e.retryUs)) ∧
  (∀ n e s, s.assoc n = some e → e.st = .established → exec (.openRetryTimer n) s = .next s) ∧
  (∀ n e s, s.assoc n = some e → e.busy → ∃ t, exec (.busyBackoffExpired n) s = .next t ∧ ∃ x, t.assoc n = some x ∧ x.busy = false ∧ x.st = .opening ∧ x.retryUs = 100) ∧
  (∀ n e s, s.assoc n = some e → ¬ e.busy → exec (.busyBackoffExpired n) s = .next s)

/-- The end of an association (R284, R291): CLOSE and CLOSE_ACK make the entry CLOSED, a CLOSE that is not answered does too; a packet given
up is captured and takes the node's members out of reach; NAK BUSY backs off, NAK STALE closes, another NAK ends its message.
Acknowledgement and retransmission (R283, R286): what ACK_SEQ covers leaves the list of unacknowledged packets; the ACK timer sends the
ACK that is owed; an expired retransmission timeout sends the packet again and sets W to 1. -/
def Obligations.CoilCloseEffects : Prop :=
  (∀ h n e s, s.coilPasses h → (coilSeen h s).assocOf h = some e → ∃ t, exec (.close h n) s = .next t ∧ ∀ x ∈ t.coil.assocs, x.no = e.no → x.st = .closed) ∧
  (∀ h n e s, s.coilPasses h → (coilSeen h s).assocOf h = some e → e.st = .closing → ∃ t, exec (.closeAck h n) s = .next t ∧
    ∀ x ∈ t.coil.assocs, x.no = e.no → x.st = .closed ∧ x.unacked = []) ∧
  (∀ h n e s, s.coilPasses h → (coilSeen h s).assocOf h = some e → e.st ≠ .closing → exec (.closeAck h n) s = .next (coilSeen h s)) ∧
  (∀ n e s, s.assoc n = some e → e.st = .closing → ∃ t, exec (.closeTimeout n) s = .next t ∧ ∀ x ∈ t.coil.assocs, x.no = n → x.st = .closed ∧ x.unacked = []) ∧
  (∀ n e s, s.assoc n = some e → e.st ≠ .closing → exec (.closeTimeout n) s = .next s) ∧
  (∀ n i e s, s.assoc n = some e → e.unacked.any (fun u => u.index == i) → ∃ t, exec (.giveUp n i) s = .next t ∧ t.fc.first.isSome ∧
    t.ccnt.giveUps = bump s.ccnt.giveUps ∧ ∀ x ∈ t.arr.ns, x.loc.remote → x.loc.node = e.peer → x.cond ≠ .healthy) ∧
  (∀ n s, s.remoteBusy n → ∃ t, exec (.remoteSilenceTimeout n) s = .next t ∧ ∀ x ∈ t.arr.ns, x.loc.remote → x.loc.node = n → x.cond ≠ .healthy) ∧
  (∀ n e s, s.remoteBusy n → s.assocTo n = some e → ∃ t, exec (.remoteKeepaliveTimer n) s = .next t ∧ ∀ x ∈ t.coil.assocs, x.no = e.no → x.sinceAck = 0) ∧
  (∀ n s, ¬ s.remoteBusy n → exec (.remoteKeepaliveTimer n) s = .next s ∧ exec (.remoteSilenceTimeout n) s = .next s) ∧
  (∀ h r e s, s.coilPasses h → (coilSeen h s).coil.assocs.find? (fun e => e.opener && e.peer == h.src && (e.st == .opening || e.st == .confirming)) = some e → ∃ t,
    exec (.nak h 1 r) s = .next t ∧ ∀ x ∈ t.coil.assocs, x.no = e.no → x.busy = true ∧ x.st = .opening) ∧
  (∀ h r e s, s.coilPasses h → (coilSeen h s).coil.assocs.find? (fun e => e.peer == h.src && e.unacked.any (fun u => u.index == r % 2 ^ 32) && e.block == r / 2 ^ 32) = some e → ∃ t,
    exec (.nak h 2 r) s = .next t ∧ ∀ x ∈ t.coil.assocs, x.no = e.no → x.st = .closed) ∧
  (∀ h n r e s, n ≠ 1 → n ≠ 2 → s.coilPasses h → (coilSeen h s).coil.assocs.find? (fun e => e.peer == h.src && e.unacked.any (fun u => u.index == r % 2 ^ 32) && e.block == r / 2 ^ 32) = some e →
    ∃ t, exec (.nak h n r) s = .next t ∧ ∀ m ∈ t.coil.outbox, m.entry = some e.no → ∀ u ∈ e.unacked, u.index = r % 2 ^ 32 → m.msgId ≠ u.msgId) ∧
  (∀ h l e s, s.coilPasses h → (coilSeen h s).assocOf h = some e → e.st = .established → ∃ t, exec (.ack h l) s = .next t ∧
    ∀ x ∈ t.coil.assocs, x.no = e.no → ∀ u ∈ x.unacked, h.ackIndex ≤ u.index) ∧
  (∀ h l e s, s.coilPasses h → (coilSeen h s).assocOf h = some e → e.st = .closed → exec (.ack h l) s = .next (coilSeen h s)) ∧
  (∀ n e s, s.assoc n = some e → e.sinceAck ≠ 0 → e.st = .established → ∃ t, exec (.ackTimer n) s = .next t ∧ ∀ x ∈ t.coil.assocs, x.no = n → x.sinceAck = 0) ∧
  (∀ n e s, s.assoc n = some e → e.sinceAck = 0 → exec (.ackTimer n) s = .next s) ∧
  (∀ n i e u s, s.assoc n = some e → e.unacked.find? (fun u => u.index == i) = some u → ∃ t, exec (.rtoExpired n i) s = .next t ∧
    t.coil.retransmits = bump s.coil.retransmits ∧ ∀ x ∈ t.coil.assocs, x.no = n → x.wNum = 1 ∧ x.wFrac = 0) ∧
  (∀ n i e s, s.assoc n = some e → e.unacked.find? (fun u => u.index == i) = none → exec (.rtoExpired n i) s = .next s)


/-- Messages received (R281, R282, R287, R288, R291): a packet that passes the checks and finds its message, its receive or its region is
held in the bitmap; SEND without a receive or room in the unexpected area is dropped and captured; WRITE outside its region stores
nothing; READ_REQ queues the READ_RESP message with the bytes asked for. -/
def Obligations.CoilMessageEffects : Prop :=
  (∀ h d e s, s.coilTakes h d.length e → granulesOk h d → s.context e.no h.msgId = none → (s.coil.reasm.filter (fun r => !r.complete)).length < 4096 →
    (h.tag.testBit 63 = true ∨ s.coil.posted.any (fun p => p.takes h.tag && s.postedOk p) = true ∨ s.unexpectedUsed + h.msgLen ≤ s.coil.cfg.unexpectedMib * 2 ^ 20) →
    ∃ t, exec (.send h d) s = .next t ∧ HeldIndex e h.index t) ∧
  (∀ h d e s, s.coilTakes h d.length e → granulesOk h d → s.context e.no h.msgId = none → h.tag.testBit 63 = false →
    s.coil.posted.any (fun p => p.takes h.tag && s.postedOk p) = false → s.coil.cfg.unexpectedMib * 2 ^ 20 < s.unexpectedUsed + h.msgLen →
    ∃ t, exec (.send h d) s = .next t ∧ t.fc.first.isSome ∧ t.ccnt.rxDrops = bump s.ccnt.rxDrops) ∧
  (∀ h d e r s, s.coilTakes h d.length e → granulesOk h d → s.context e.no h.msgId = some r → r.msgLen = h.msgLen → r.tag = h.tag →
    ∃ t, exec (.send h d) s = .next t ∧ HeldIndex e h.index t) ∧
  (∀ h d e r s, s.coilTakes h d.length e → granulesOk h d → regionCheck h true s = .ok r → s.context e.no h.msgId = none → (s.coil.reasm.filter (fun r => !r.complete)).length < 4096 →
    ∃ t, exec (.coilWrite h d) s = .next t ∧ HeldIndex e h.index t) ∧
  (∀ h d e n s, s.coilTakes h d.length e → granulesOk h d → regionCheck h true s = .error n → ∃ t, exec (.coilWrite h d) s = .next t ∧ HeldIndex e h.index t ∧ t.pw = s.pw) ∧
  (∀ h e r s, s.coilTakes h 0 e → regionCheck h false s = .ok r → ∃ t, exec (.readReq h) s = .next t ∧ HeldIndex e h.index t ∧
    { node := h.src, typ := 12, tag := h.msgId % 2 ^ 32, data := stagingBytes s (regionAddr s r (h.tag % 2 ^ 32) 0) h.msgLen } ∈ t.coil.outbox) ∧
  (∀ h d e x s, s.coilTakes h d.length e → granulesOk h d → s.context e.no h.msgId = none → (s.coil.reasm.filter (fun r => !r.complete)).length < 4096 →
    s.coil.reads.find? (fun x => x.1 == e.no && x.2.1 == h.tag % 2 ^ 32) = some x → ∃ t, exec (.readResp h d) s = .next t ∧ HeldIndex e h.index t)


/-- The Coil commands (R2, R276, R290, R296 to R299), where the steps before their effect pass (R366). -/
def Obligations.CoilCommandEffects : Prop :=
  (∀ mb s, planRuns mb 0x0601 s (coilPlan s (coilGetStatusPlan s)) = true → ∃ t, exec (.coilGetStatus mb) s = .next t ∧ t = { s with mci := t.mci } ∧
    Succeeds mb (((List.range 16).map (fun i => leBytes 4 ((coilReg (4 * i) s).getD 0))).flatten) ((s.coil.assocs.map (assocBytes s)).flatten) t) ∧
  (∀ mb s, planRuns mb 0x0602 s (coilPlan s (coilConfigPlan s)) = true → ∃ t, exec (.coilConfig mb) s = .next t ∧ Succeeds mb [] [] t ∧
    t.coil = { s.coil with cfgNext := (coilCfgFields s (s.mb mb)).1, directoryNext := if (s.mb mb).payload = [] then s.coil.directoryNext else some (directoryOf (s.mb mb).payload) }) ∧
  (∀ mb one sec p s, planRuns mb 0x0603 s (coilPlan s (coilSetTrustPlan s)) = true → trustFields (s.mb mb) = (one, 1, sec, p) → ∃ t, exec (.coilSetTrust mb) s = .next t ∧
    Succeeds mb [] [] t ∧ (t.coil.slot one).valid = true ∧ (t.coil.slot one).secret = BitVec.ofNat 256 (leNat sec) ∧ fingerprintOf sec ∈ t.coil.fingerprints) ∧
  (∀ mb one sec p s, planRuns mb 0x0603 s (coilPlan s (coilSetTrustPlan s)) = true → trustFields (s.mb mb) = (one, 2, sec, p) → ∃ t, exec (.coilSetTrust mb) s = .next t ∧
    Succeeds mb [] [] t ∧ t.coil = { s.coil with txSlot := one, txChanged := s.coil.txChanged || s.coil.txSlot != one }) ∧
  (∀ mb one sec p s, planRuns mb 0x0603 s (coilPlan s (coilSetTrustPlan s)) = true → trustFields (s.mb mb) = (one, 3, sec, p) → ∃ t, exec (.coilSetTrust mb) s = .next t ∧
    Succeeds mb [] [] t ∧ t.coil.slot one = {}) ∧
  (∀ mb r s, planRuns mb 0x0604 s (coilPlan s (coilRegionRegisterPlan s)) = true → s.freeRegion = some r → ∃ t, exec (.coilRegionRegister mb) s = .next t ∧
    Succeeds mb (leBytes 4 (r.idx * 2 ^ 22 + (r.gen + 1))) [] t ∧ ∃ x ∈ t.coil.regions, x.idx = r.idx ∧ x.live = true ∧ x.gen = r.gen + 1) ∧
  (∀ mb s, planRuns mb 0x0605 s (coilPlan s (coilRegionDeregisterPlan s)) = true → ∃ t, exec (.coilRegionDeregister mb) s = .next t ∧ Succeeds mb [] [] t ∧
    t.coil = { s.coil with regions := mapIf s.coil.regions (fun r => r.live && r.idx == (s.mb mb).parse.raw 0 4 / 2 ^ 22) (fun r => { r with leaving := true }) }) ∧
  (∀ mb s, planRuns mb 0x0606 s (coilPlan s (coilRecvPostPlan s)) = true → ∃ t, exec (.coilRecvPost mb) s = .next t ∧ Succeeds mb [] [] t) ∧
  (∀ mb s, planRuns mb 0x0606 s (coilPlan s (coilRecvPostPlan s)) = true → (∀ r ∈ s.coil.reasm, r.dest ≠ .unexpected) → ∃ t, exec (.coilRecvPost mb) s = .next t ∧
    t.coil.posted = s.coil.posted ++ (List.range (postedCount (s.mb mb))).map (postedAt (s.mb mb).payload)) ∧
  (∀ mb x s, planRuns mb 0x0607 s (coilPlan s (coilExportMemberPlan s)) = true → exportTarget s (s.mb mb) = .ok x → ∃ t, exec (.coilExportMember mb) s = .next t ∧
    Succeeds mb (leBytes 2 (x.exported.getD (freeTag (s.coil.exports.map (·.1)) 48 1))) [] t ∧
    ∀ y ∈ t.arr.ns, y.id = x.id → y.exported = some (x.exported.getD (freeTag (s.coil.exports.map (·.1)) 48 1)))

/-! ### Mailboxes, restarts and the sideband (chapter 12) -/

/-- Claiming, ringing and cancelling (R360, R363, R364): MB_LOCK is claimed when it is free and released when no command runs; an accepted
RING queues the command at the present time, another is ignored and noted; CANCEL ends a queued command; the sideband's mailboxes
read zero to the host, which is counted. -/
def Obligations.MailboxHostEffects : Prop :=
  (∀ mb v s, mb < 14 → (s.mb mb).lock = 0 → v ≠ 0 → v ≠ 0xFFFFFFFF → exec (.mbLockWrite mb v) s = .next (onMb mb (fun m => { m with lock := v }) s)) ∧
  (∀ mb s, mb < 14 → ((s.mb mb).st = .idle ∨ (s.mb mb).st = .finished) → exec (.mbLockWrite mb 0) s = .next (onMb mb (fun m => { m with lock := 0, st := .idle }) s)) ∧
  (∀ mb v s, mb < 14 → (s.mb mb).lock ≠ 0 → v ≠ 0 → ∃ t, exec (.mbLockWrite mb v) s = .next t ∧ t.mb mb = s.mb mb) ∧
  (∀ mb v s, 14 ≤ mb → exec (.mbLockWrite mb v) s = .next s) ∧
  (∀ mb c s, mb < 14 → (s.mb mb).lock ≠ 0 → ((s.mb mb).st = .idle ∨ (s.mb mb).st = .finished) → ∃ t, exec (.mbRing mb c) s = .next t ∧
    (t.mb mb).st = .queued ∧ (t.mb mb).ringFt = s.now ∧ (t.mb mb).resp = {} ∧ t.mci.rings = bump s.mci.rings) ∧
  (∀ mb s, mb < 14 → ¬ ((s.mb mb).lock ≠ 0 ∧ ((s.mb mb).st = .idle ∨ (s.mb mb).st = .finished)) → exec (.mbRing mb false) s = .next
    (onMb mb (fun m => { m with ringIgnored := true }) s)) ∧
  (∀ mb s, mb < 14 → (s.mb mb).st = .queued → ∃ t, exec (.mbCancel mb) s = .next t ∧ (t.mb mb).st = .finished ∧ (t.mb mb).resp.status = stCancelled) ∧
  (∀ mb s, mb < 14 → (s.mb mb).st = .queued → ∃ t, exec (.mbRing mb true) s = .next t ∧ (t.mb mb).st = .finished ∧ (t.mb mb).resp.status = stCancelled) ∧
  (∀ mb s, mb < 14 → (s.mb mb).st ≠ .queued → exec (.mbCancel mb) s = .next s) ∧
  (∀ mb off s, exec (.sidebandMailboxHostAccess mb off false) s = .next { s with
    mci := { s.mci with sbHostAccess := bump s.mci.sbHostAccess }, out := .regRead (0x20000 + mb * 0x2000 + off) 0 :: s.out }) ∧
  (∀ mb off s, exec (.sidebandMailboxHostAccess mb off true) s = .next { s with mci := { s.mci with sbHostAccess := bump s.mci.sbHostAccess } })

/-- Taking and completing (R365, R366, R374, R376): the first mailbox in ring order fetches its input; an unknown opcode and an authority
that fails end with their status; a command that passes is EXECUTING; a staged response ends it as DONE. -/
def Obligations.MailboxTakeEffects : Prop :=
  (∀ i s, ¬ s.dev.activating → s.mci.restart = 0 → s.released → nextQueued s = some i → ∃ t, exec .mailboxTake s = .next t ∧ (t.mb i).st = .fetching ∧
    ∀ j, j ≠ i → t.mb j = s.mb j) ∧
  (∀ s, nextQueued s = none → exec .mailboxTake s = .next s) ∧
  (∀ mb inp ok s, mb < 16 → (s.mb mb).st = .fetching → ¬ (s.mb mb).started → ¬ inCatalogue (s.mb mb).opcode → ∃ t, exec (.mciInputReadDone mb inp ok) s = .next t ∧
    ∃ r, (t.mb mb).staged = some r ∧ r.status = stOpcode) ∧
  (∀ mb inp ok s, mb < 16 → (s.mb mb).st = .fetching → ¬ (s.mb mb).started → inCatalogue (s.mb mb).opcode → ¬ s.dev.recoveryBoot →
    inputRead mb (s.mb mb) inp ok = none → ∃ t, exec (.mciInputReadDone mb inp ok) s = .next t ∧ ∃ r, (t.mb mb).staged = some r ∧ r.status = stBuffer) ∧
  (∀ mb inp ok b s, mb < 16 → (s.mb mb).st = .fetching → ¬ (s.mb mb).started → inCatalogue (s.mb mb).opcode → ¬ s.dev.recoveryBoot →
    inputRead mb (s.mb mb) inp ok = some b → authorityOf (s.mb mb).opcode = 1 → bit (s.mb mb).flags 0 = false → ∃ t, exec (.mciInputReadDone mb inp ok) s = .next t ∧
    (t.mb mb).st = .executing ∧ (t.mb mb).payload = b ∧ (t.mb mb).submitFt = s.now) ∧
  (∀ mb inp ok b s, mb < 16 → (s.mb mb).st = .fetching → ¬ (s.mb mb).started → inCatalogue (s.mb mb).opcode → ¬ s.dev.recoveryBoot →
    inputRead mb (s.mb mb) inp ok = some b → authorityOf (s.mb mb).opcode ≠ 1 → envelopeStep s (s.mb mb).opcode (flag (bit (s.mb mb).flags 0) 0) (s.mb mb).params b
      (envelopeKey s (s.mb mb).opcode (s.mb mb).params).1 (envelopeKey s (s.mb mb).opcode (s.mb mb).params).2 ≠ 0 → ∃ t, exec (.mciInputReadDone mb inp ok) s = .next t ∧
    t.mci.counter = s.mci.counter ∧ t.mci.authFails = bump s.mci.authFails ∧ ∃ r, (t.mb mb).staged = some r ∧ r.status = stAuthority) ∧
  (∀ mb inp ok b s, mb < 16 → (s.mb mb).st = .fetching → ¬ (s.mb mb).started → inCatalogue (s.mb mb).opcode → ¬ s.dev.recoveryBoot →
    inputRead mb (s.mb mb) inp ok = some b → authorityOf (s.mb mb).opcode ≠ 1 → envelopeStep s (s.mb mb).opcode (flag (bit (s.mb mb).flags 0) 0) (s.mb mb).params b
      (envelopeKey s (s.mb mb).opcode (s.mb mb).params).1 (envelopeKey s (s.mb mb).opcode (s.mb mb).params).2 = 0 → ∃ t, exec (.mciInputReadDone mb inp ok) s = .next t ∧
    t.mci.counter = field b 40 8 ∧ (t.mb mb).st = .executing ∧ (t.mb mb).payload = b.drop (payloadStart b)) ∧
  (∀ mb ow r s, mb < 16 → (s.mb mb).staged = some r → s.mci.restart ≠ 2 → s.mci.restartMb = none → ∃ t, exec (.mciComplete mb ow) s = .next t ∧
    (t.mb mb).st = .finished ∧ (t.mb mb).resp.status = r.status ∧ (t.mb mb).resp.respLength = (s.mb mb).stagedInline.length ∧ (t.mb mb).resp.doneFt = s.now) ∧
  (∀ mb ow s, (s.mb mb).staged = none → exec (.mciComplete mb ow) s = .next s)

/-- No queued mailbox that is served was rung before the one taken next, and of those rung in the same cycle the lowest is taken first
(R365). -/
def Obligations.EarliestRingFirst : Prop :=
  ∀ (s : State) (i : Nat), nextQueued s = some i → (s.mb i).st = .queued ∧ s.mbServed i = true ∧
    ∀ j < 16, (s.mb j).st = .queued → s.mbServed j = true → ftBefore (s.mb j).ringFt (s.mb i).ringFt = false ∧
      (ftBefore (s.mb i).ringFt (s.mb j).ringFt = false → i ≤ j)

/-- Restarts of the control complex (R378, R386): DEVICE_RESTART waits for the commands that execute; when the wait ends or none does, those
that had not committed end with the restart's status; a finished restart answers the command that asked for it. -/
def Obligations.RestartEffects : Prop :=
  (∀ mb s, planRuns mb 0x0104 s (deviceRestartPlan s) = true → s.othersExecuting mb ≠ [] → ∃ t, exec (.deviceRestart mb) s = .next t ∧
    t.mci.restart = 1 ∧ t.mci.restartMb = some mb ∧ (t.mb mb).committed = true) ∧
  (∀ mb s, planRuns mb 0x0104 s (deviceRestartPlan s) = true → s.othersExecuting mb = [] → ∃ t, exec (.deviceRestart mb) s = .next t ∧
    t.mci.restart = 2 ∧ t.dev.restarting = true) ∧
  (∀ s, s.mci.restart = 1 → ∃ t, exec .restartWaitExpired s = .next t ∧ t.mci.restart = 2 ∧ t.dev.restarting = true ∧
    ∀ i < 16, (s.mb i).st = .executing → (s.mb i).committed = false → (s.mb i).staged = none → ∃ r, (t.mb i).staged = some r ∧ r.status = stAbortRestart) ∧
  (∀ s, s.mci.restart ≠ 1 → exec .restartWaitExpired s = .next s) ∧
  (∀ s, s.mci.restart = 2 → ∃ t, exec .controlComplexRestarted s = .next t ∧ t.mci.restart = 0 ∧ t.dev.restarting = false ∧
    ∀ i, s.mci.restartMb = some i → i < s.mci.mbs.length → ∃ r, (t.mb i).staged = some r ∧ r.status ≤ 1) ∧
  (∀ s, s.mci.restart ≠ 2 → exec .controlComplexRestarted s = .next s)

/-- The sideband (R326, R364, R368, R369): reads and writes of a mailbox and its staging area, ring and cancel, the state of a mailbox, which
clears its SMB_ALERT#, and a wake request; NOT_READY where MAIN is off, BAD_OFFSET outside the ranges.
MCTP control commands (R368): the responses' bytes are the model's choice (log entry 7). -/
def Obligations.SidebandEffects : Prop :=
  (∀ mb off d s, (mb = 14 ∨ mb = 15) → s.pins.main → 0x10000 ≤ off → off + d.length ≤ 0x50000 → exec (.sidebandWrite mb off d) s = .next
    (emit (.mctp 0 []) (onMb mb (fun m => { m with sideband := putBytes m.sideband (off - 0x10000) d }) s))) ∧
  (∀ mb d s, (mb = 14 ∨ mb = 15) → s.pins.main → d.length = 4 → exec (.sidebandWrite mb 0 d) s = .next (emit (.mctp 0 []) (onMb mb (lockWrite (leNat d)) s))) ∧
  (∀ mb off d s, (mb = 14 ∨ mb = 15) → ¬ sbRange off d.length → exec (.sidebandWrite mb off d) s = .next { s with out := .mctp 1 [] :: s.out }) ∧
  (∀ mb off d s, (mb = 14 ∨ mb = 15) → sbRange off d.length → ¬ s.pins.main → exec (.sidebandWrite mb off d) s = .next { s with out := .mctp 2 [] :: s.out }) ∧
  (∀ mb off n s, (mb = 14 ∨ mb = 15) → s.pins.main → n ≤ 1008 → sbRange off n → exec (.sidebandRead mb off n) s = .next { s with
    out := .mctp 0 ((List.range n).map (fun i => sbByte (s.mb mb) (off + i))) :: s.out }) ∧
  (∀ mb off n s, 1008 < n → exec (.sidebandRead mb off n) s = .next { s with out := .mctp 1 [] :: s.out }) ∧
  (∀ mb s, (mb = 14 ∨ mb = 15) → s.pins.main → (s.mb mb).lock ≠ 0 → ((s.mb mb).st = .idle ∨ (s.mb mb).st = .finished) → ∃ t, exec (.sidebandRing mb) s = .next t ∧
    (t.mb mb).st = .queued ∧ (t.mb mb).ringFt = s.now ∧ t.out = .mctp 0 [] :: s.out) ∧
  (∀ mb s, (mb = 14 ∨ mb = 15) → s.pins.main → (s.mb mb).st = .queued → ∃ t, exec (.sidebandCancel mb) s = .next t ∧
    (t.mb mb).st = .finished ∧ (t.mb mb).resp.status = stCancelled) ∧
  (∀ mb s, (mb = 14 ∨ mb = 15) → exec (.getState mb) s = .next { s with
    pins := { s.pins with smbAlert := alertBits mb false s.pins.smbAlert },
    out := .mctp 0 (leBytes 4 ((mbReg (s.mb mb) 0x004).getD 0) ++ leBytes 4 (s.mb mb).resp.word ++ leBytes 1 s.hw.lifecycle.code ++ leBytes 1 s.dState) :: s.out }) ∧
  (∀ mb s, (mb = 14 ∨ mb = 15) → ¬ s.pins.main → s.cfg.pmeEn → exec (.wakeHost mb) s = .next { s with
    pins := { s.pins with wake := true }, out := .mctp 0 [] :: s.out }) ∧
  (∀ mb s, (mb = 14 ∨ mb = 15) → s.pins.main → s.ep.d3hot → ∃ t, exec (.wakeHost mb) s = .next t ∧ t.out = .mctp 0 [] :: .pme :: s.out ∧ t.cfg.pmeStatus = true) ∧
  (∀ mb s, (mb = 14 ∨ mb = 15) → s.pins.main → ¬ s.ep.d3hot → exec (.wakeHost mb) s = .next { s with out := .mctp 0 [] :: s.out }) ∧
  (∀ e s, 0 < e → e < 0xFF → exec (.setEndpointId e) s = .next { s with mci := { s.mci with eid := e }, out := .mctp 0 [0, BitVec.ofNat 8 e, 0] :: s.out }) ∧
  (∀ e s, (e = 0 ∨ 0xFF ≤ e) → exec (.setEndpointId e) s = .next { s with out := .mctp 2 [] :: s.out }) ∧
  (∀ s, exec .getEndpointId s = .next { s with out := .mctp 0 (leBytes 1 s.mci.eid ++ [0, 0]) :: s.out }) ∧
  (∀ s, exec (.getMctpVersionSupport 0x7E) s = .next { s with out := .mctp 0 [1, 0xF1, 0xF3, 0xF1, 0] :: s.out } ∧
    exec (.getMctpVersionSupport 0xFF) s = exec (.getMctpVersionSupport 0) s) ∧
  (∀ s, exec .getMessageTypeSupport s = .next { s with out := .mctp 0 [2, 0, 0x7E] :: s.out }) ∧
  (∀ s, exec (.getVendorDefinedMessageSupport 0) s = .next { s with out := .mctp 0 [0xFF, 0, 0x1E, 0x7B, 0, 0] :: s.out }) ∧
  (∀ n s, n ≠ 0 → exec (.getVendorDefinedMessageSupport n) s = .next { s with out := .mctp 2 [] :: s.out })


/-! ### Commands about the device, members, arrays, volumes and rebuilds (chapter 13), where the steps before their effect pass (R366) -/

/-- Device commands (R22 to R24, R383 to R387): a command that only reports changes nothing but its mailbox; DEVICE_SET_CONFIG stores its
values for the next power-on; FENCE and RETURN wait for the boundary at which a kiln's service changes; RETRAIN starts training. -/
def Obligations.DeviceCommandEffects : Prop :=
  (∀ mb s, planRuns mb 0x0101 s (identifyDevicePlan s) = true → ∃ t, exec (.identifyDevice mb) s = .next t ∧ t = { s with mci := t.mci } ∧ Succeeds mb (identifyBytes s) [] t) ∧
  (∀ mb s, planRuns mb 0x0102 s (getLimitsPlan s) = true → ∃ t, exec (.getLimits mb) s = .next t ∧ t = { s with mci := t.mci } ∧ Succeeds mb (limitsBytes s) [] t) ∧
  (∀ mb l v i name p s, planRuns mb 0x0103 s (deviceSetConfigPlan s) = true → setConfigFields s (s.mb mb) = (l, v, i, name, p) → ∃ t, exec (.deviceSetConfig mb) s = .next t ∧
    t.polNext = { s.polNext with lenSel := l, subVendor := storedId v, subId := storedId i, name := trimZeros name } ∧ t.pol = { s.pol with name := trimZeros name } ∧
    Succeeds mb (leBytes 1 l ++ leBytes 1 0 ++ leBytes 2 v ++ leBytes 2 i ++ leBytes 2 0 ++ padTo 32 name) [] t) ∧
  (∀ mb ok i p s, planRuns mb 0x0105 s (unitPlan ok s) = true → unitFields (s.mb mb) = (1, i, 1, p) → (s.mb mb).staged = none → (setKiln i false s).kilnChanging i → ∃ t,
    exec (.unitControl mb ok) s = .next t ∧ t.sched = (setKiln i false s).sched ∧ InProgress mb t) ∧
  (∀ mb ok i p s, planRuns mb 0x0105 s (unitPlan ok s) = true → unitFields (s.mb mb) = (1, i, 2, p) → (s.mb mb).staged = none → (setKiln i true s).kilnChanging i → ∃ t,
    exec (.unitControl mb ok) s = .next t ∧ t.sched = (setKiln i true s).sched ∧ InProgress mb t) ∧
  (∀ mb ok k i p s, planRuns mb 0x0105 s (unitPlan ok s) = true → unitFields (s.mb mb) = (k, i, 4, p) → ∃ t, exec (.unitControl mb ok) s = .next t ∧
    t = { s with mci := t.mci } ∧ Succeeds mb (unitBytes (s.unitResult k i) s) [] t) ∧
  (∀ mb ok i p s, planRuns mb 0x0105 s (unitPlan ok s) = true → unitFields (s.mb mb) = (2, i, 3, p) → (s.mb mb).staged = none → i < s.arr.ports.length → (s.port i).power → ∃ t,
    exec (.unitControl mb ok) s = .next t ∧ (t.port i).training = true ∧ (t.port i).up = false ∧ InProgress mb t) ∧
  (∀ mb ok i p s, planRuns mb 0x0105 s (unitPlan ok s) = true → unitFields (s.mb mb) = (3, i, 3, p) → (s.mb mb).staged = none → ∃ t,
    exec (.unitControl mb ok) s = .next t ∧ t.twin.training = true ∧ InProgress mb t) ∧
  (∀ mb s, s.mbReady mb 0x0105 → (unitPlan false s (s.mb mb)).noObject = none → (unitPlan false s (s.mb mb)).busy = false →
    ¬ (unitPlan false s (s.mb mb)).objects.any (fun o => (s.heldObjects mb).contains o) → s.stateAllows 0x0105 → (unitPlan false s (s.mb mb)).refuse = some (stConflict, 0, 2) → ∃ t,
    exec (.unitControl mb false) s = .next t ∧ t.tst.mbistFails = bump s.tst.mbistFails ∧ ∃ r, (t.mb mb).staged = some r ∧ r.status = stConflict)

/-- Member commands (R389 to R394). -/
def Obligations.MemberMciEffects : Prop :=
  (∀ mb s, planRuns mb 0x0201 s (memberListPlan s) = true → ∃ t, exec (.memberList mb) s = .next t ∧ t = { s with mci := t.mci } ∧
    Succeeds mb (leBytes 4 ((s.reached.mergeSort (fun x y => x.id ≤ y.id)).take 1024).length)
      ((((s.reached.mergeSort (fun x y => x.id ≤ y.id)).take 1024).map (memberListEntry s)).flatten) t) ∧
  (∀ mb n miss jn v allow p s, planRuns mb 0x0202 s (memberAdoptPlan s) = true → adoptFields s (s.mb mb) = (some n, miss, jn, v, allow, p) → (s.mb mb).staged = none → ∃ t,
    exec (.memberAdopt mb) s = .next t ∧ InProgress mb t ∧ JobFor .adopt mb t) ∧
  (∀ mb n miss c p s, planRuns mb 0x0203 s (memberReleasePlan s) = true → releaseFields s (s.mb mb) = (some n, miss, c, p) → (memberStatus n = 0 ∨ memberStatus n = 5) → ∃ t,
    exec (.memberRelease mb) s = .next t ∧ t = { s with mci := t.mci } ∧ Succeeds mb [] [] t) ∧
  (∀ mb n miss c p s, planRuns mb 0x0203 s (memberReleasePlan s) = true → releaseFields s (s.mb mb) = (some n, miss, c, p) → memberStatus n ≠ 0 → memberStatus n ≠ 5 →
    (s.mb mb).staged = none → ∃ t, exec (.memberRelease mb) s = .next t ∧ InProgress mb t ∧ JobFor .release mb t ∧ (n.ident.uid, n.loc) ∈ t.arr.releases) ∧
  (∀ mb a i miss p s, planRuns mb 0x0204 s (memberFailPlan s) = true → poolFields s (s.mb mb) = (some a, i, miss, p) → s.indexFailed a i → ∃ t,
    exec (.memberFail mb) s = .next t ∧ t = { s with mci := t.mci } ∧ Succeeds mb [] [] t) ∧
  (∀ mb a i miss p n s, planRuns mb 0x0204 s (memberFailPlan s) = true → poolFields s (s.mb mb) = (some a, i, miss, p) → ¬ s.indexFailed a i → s.memberAt a i = some n →
    s.ns n.id = some n → n.arrayUid ≠ 0 → ¬ n.stale → (s.mb mb).staged = none → ∃ t, exec (.memberFail mb) s = .next t ∧ InProgress mb t ∧ t.fc.first.isSome ∧
    ∃ x, t.ns n.id = some x ∧ x.declare = some 7) ∧
  (∀ mb a i miss p s, planRuns mb 0x0204 s (memberFailPlan s) = true → poolFields s (s.mb mb) = (some a, i, miss, p) → ¬ s.indexFailed a i → s.memberAt a i = none →
    s.array a.id = some a → (s.mb mb).staged = none → ∃ t, exec (.memberFail mb) s = .next t ∧ InProgress mb t ∧ t.fc.first.isSome ∧ MarkDue a.id t) ∧
  (∀ mb a i miss q n m2 p s, planRuns mb 0x0205 s (memberReplacePlan s) = true → poolFields s (s.mb mb) = (some a, i, miss, q) → locFields s q 3 16 = (some n, m2, p) →
    (s.mb mb).staged = none → ∃ t, exec (.memberReplace mb) s = .next t ∧ InProgress mb t ∧ JobFor .zero mb t)

/-- Array commands (R395 to R403). -/
def Obligations.ArrayMciEffects : Prop :=
  (∀ mb id s, planRuns mb 0x0210 s (arrayCreatePlan s) = true → s.freeArrayId = some id → (s.mb mb).staged = none → ∃ t, exec (.arrayCreate mb) s = .next t ∧
    InProgress mb t ∧ JobFor .zero mb t) ∧
  (∀ mb a s, planRuns mb 0x0211 s (arrayDeletePlan s) = true → s.namedArray ((s.mb mb).parse.array 1 0).1 = some a → s.array a.id = some a → (s.mb mb).staged = none → ∃ t,
    exec (.arrayDelete mb) s = .next t ∧ InProgress mb t ∧ MarkDue a.id t ∧ ∀ x ∈ t.arr.arrays, x.id = a.id → x.service = 3) ∧
  (∀ mb scans s, planRuns mb 0x0212 s (arrayImportPlan scans s) = true → ∃ t, exec (.arrayImport mb scans) s = .next t ∧ ∃ out, Succeeds mb [] out t ∧
    out.take 2 = leBytes 2 (importUids s (importFields (s.mb mb)).1 (s.importScans scans)).length) ∧
  (∀ mb scans u id s, planRuns mb 0x0212 s (arrayImportPlan scans s) = true → importUids s (importFields (s.mb mb)).1 (s.importScans scans) = [u] →
    ¬ s.arr.arrays.any (fun a => a.body.uid == u) → s.freeArrayId = some id →
    (judgeImport (importFields (s.mb mb)).2.1 u ((s.importScans scans).filter (fun x => x.valid && x.body.uid == u))).reason = 0 →
    noSlot s (judgeImport (importFields (s.mb mb)).2.1 u ((s.importScans scans).filter (fun x => x.valid && x.body.uid == u))) = false → ∃ t,
    exec (.arrayImport mb scans) s = .next t ∧ ∃ x ∈ t.arr.arrays, x.id = id ∧ x.importing = 1) ∧
  (∀ mb a s, planRuns mb 0x0213 s (arrayExpandPlan s) = true → (migrateFields s (s.mb mb) false).arr = some a → s.array a.id = some a → (s.mb mb).staged = none → ∃ t,
    exec (.arrayExpand mb) s = .next t ∧ InProgress mb t ∧ (JobFor .zero mb t ∨ MarkDue a.id t)) ∧
  (∀ mb a s, planRuns mb 0x0214 s (arrayMigratePlan s) = true → (migrateFields s (s.mb mb) true).arr = some a → s.array a.id = some a → (s.mb mb).staged = none → ∃ t,
    exec (.arrayMigrate mb) s = .next t ∧ InProgress mb t ∧ (JobFor .zero mb t ∨ MarkDue a.id t)) ∧
  (∀ mb a s, planRuns mb 0x0215 s (arrayGetPlan s) = true → s.namedArray ((s.mb mb).parse.array 1 0).1 = some a → ∃ t, exec (.arrayGet mb) s = .next t ∧
    t = { s with mci := t.mci } ∧ Succeeds mb (arrayGetBytes s a) (arrayGetOut s a) t) ∧
  (∀ mb a s, planRuns mb 0x0216 s (arrayExportPlan s) = true → s.namedArray ((s.mb mb).parse.array 1 0).1 = some a → (s.mb mb).staged = none → ∃ t,
    exec (.arrayExport mb) s = .next t ∧ InProgress mb t ∧ ∀ x ∈ t.arr.arrays, x.id = a.id → x.service = 3 ∧ x.closeOut = 1)

/-- Volume commands (R404 to R411). -/
def Obligations.VolumeMciEffects : Prop :=
  (∀ mb a s, planRuns mb 0x0301 s (volumeCreatePlan s) = true → (volCreateFields s (s.mb mb)).arr = some a → s.array a.id = some a → (s.mb mb).staged = none → ∃ t,
    exec (.volumeCreate mb) s = .next t ∧ InProgress mb t ∧ MarkDue a.id t) ∧
  (∀ mb a s, planRuns mb 0x0301 s (volumeCreatePlan s) = true → (volCreateFields s (s.mb mb)).arr = some a → s.array a.id = some a → s.markJob a.id = none → a.persisted = none →
    a.markWaiting = none → ∃ t, exec (.volumeCreate mb) s = .next t ∧ ∃ j ∈ t.arr.jobs, j.kind = .mark ∧ j.array = a.id ∧ j.mbs = [mb] ∧ ∃ b, j.body = some b ∧
    b.volumeIdNext = a.body.volumeIdNext + 1 ∧ b.volumes.length = a.body.volumes.length + 1 ∧ b.gen = max a.markGen a.body.gen + 1) ∧
  (∀ mb a v s, planRuns mb 0x0302 s (volumeDeletePlan s) = true → volOf s (s.mb mb) = some (a, v) → (s.mb mb).staged = none → ∃ t, exec (.volumeDelete mb) s = .next t ∧
    InProgress mb t ∧ ∀ x ∈ t.arr.arrays, x.id = a.id → x.volOp = some { vol := v.id, mb := mb }) ∧
  (∀ mb a v s, planRuns mb 0x0303 s (volumeResizePlan s) = true → volOf s (s.mb mb) = some (a, v) → (resizeFields s (s.mb mb)).1 = v.capacity → ∃ t,
    exec (.volumeResize mb) s = .next t ∧ t = { s with mci := t.mci } ∧ Succeeds mb [] [] t) ∧
  (∀ mb a v s, planRuns mb 0x0303 s (volumeResizePlan s) = true → volOf s (s.mb mb) = some (a, v) → v.capacity < (resizeFields s (s.mb mb)).1 → s.array a.id = some a →
    (s.mb mb).staged = none → ∃ t, exec (.volumeResize mb) s = .next t ∧ InProgress mb t ∧ MarkDue a.id t) ∧
  (∀ mb a v s, planRuns mb 0x0303 s (volumeResizePlan s) = true → volOf s (s.mb mb) = some (a, v) → (resizeFields s (s.mb mb)).1 < v.capacity → (s.mb mb).staged = none → ∃ t,
    exec (.volumeResize mb) s = .next t ∧ InProgress mb t ∧ ∀ x ∈ t.arr.arrays, x.id = a.id →
      x.volOp = some { delete := false, vol := v.id, cap := (resizeFields s (s.mb mb)).1, mb := mb }) ∧
  (∀ mb a v s, planRuns mb 0x0304 s (volumeSetPolicyPlan s) = true → volOf s (s.mb mb) = some (a, v) → (setPolicyFields s (s.mb mb)).1 = v.policy.toNat → ∃ t,
    exec (.volumeSetPolicy mb) s = .next t ∧ Succeeds mb [] [] t ∧
    (a.body.uid, v.id, (setPolicyFields s (s.mb mb)).2.1, (setPolicyFields s (s.mb mb)).2.2.1) ∈ t.pol.remoteTargets) ∧
  (∀ mb a v s, planRuns mb 0x0304 s (volumeSetPolicyPlan s) = true → volOf s (s.mb mb) = some (a, v) → (setPolicyFields s (s.mb mb)).1 ≠ v.policy.toNat → s.array a.id = some a →
    (s.mb mb).staged = none → ∃ t, exec (.volumeSetPolicy mb) s = .next t ∧ InProgress mb t ∧ MarkDue a.id t) ∧
  (∀ mb s, planRuns mb 0x0305 s (volumeListPlan s) = true → ∃ t, exec (.volumeList mb) s = .next t ∧ t = { s with mci := t.mci } ∧ ∃ n out, Succeeds mb (leBytes 4 n) out t)

/-- Rebuild and scrub commands (R226 to R230). -/
def Obligations.RebuildMciEffects : Prop :=
  (∀ mb s, planRuns mb 0x0401 s (rebuildGetStatusPlan s) = true → ∃ t, exec (.rebuildGetStatus mb) s = .next t ∧ t = { s with mci := t.mci } ∧
    Succeeds mb (((List.range 10).map (fun i => leBytes 4 ((rebuildReg (4 * i) s).getD 0))).flatten)
      (((s.selected ((s.mb mb).parse.array 1 0).1).map (rebuildSection s)).flatten) t) ∧
  (∀ mb s, planRuns mb 0x0402 s (rebuildSetPolicyPlan s) = true → ∃ t, exec (.rebuildSetPolicy mb) s = .next t ∧ t.polNext = (rebuildPolicyFields s (s.mb mb)).1 ∧
    t.pol = s.pol ∧ Succeeds mb [] [] t) ∧
  (∀ mb s, planRuns mb 0x0403 s (rebuildStartPlan s) = true →
    (s.selected ((s.mb mb).parse.array 1 0).1).filter (fun a => unplanned (s.markBase a) != [] && a.owner) = [] → ∃ t, exec (.rebuildStart mb) s = .next t ∧
    t = { s with mci := t.mci } ∧ Succeeds mb [] [] t) ∧
  (∀ mb s, planRuns mb 0x0403 s (rebuildStartPlan s) = true → (s.mb mb).staged = none →
    (s.selected ((s.mb mb).parse.array 1 0).1).filter (fun a => unplanned (s.markBase a) != [] && a.owner) ≠ [] → ∃ t, exec (.rebuildStart mb) s = .next t ∧ InProgress mb t ∧
    ∀ a ∈ (s.selected ((s.mb mb).parse.array 1 0).1).filter (fun a => unplanned (s.markBase a) != [] && a.owner), MarkDue a.id t) ∧
  (∀ mb n md f c p s, planRuns mb 0x0404 s (scrubStartPlan s) = true → scrubFields s (s.mb mb) = (n, md, f, c, p) → ∃ t, exec (.scrubStart mb) s = .next t ∧ Succeeds mb [] [] t ∧
    ∀ a ∈ s.selected n, ∃ x ∈ t.arr.scrubs, x.array = a.id ∧ x.patrol = false) ∧
  (∀ mb s, planRuns mb 0x0405 s (scrubStopPlan s) = true → ∃ t, exec (.scrubStop mb) s = .next t ∧ Succeeds mb [] [] t ∧
    ∀ x ∈ t.arr.scrubs, ∀ a ∈ s.selected ((s.mb mb).parse.array 1 0).1, x.array ≠ a.id) ∧
  (∀ mb s, planRuns mb 0x0406 s (lostExtentsGetPlan s) = true → ∃ t, exec (.lostExtentsGet mb) s = .next t ∧ t = { s with mci := t.mci } ∧ ∃ out, Succeeds mb [] out t)

/-! ### Security, records and firmware (chapter 16), where the steps before a command's effect pass (R366) -/

/-- Ownership commands (R456, R458, R478 to R483): a fuse or the lifecycle changes only where the command takes effect; the owner's key, the
policy, the replay counter and the trust slots follow. -/
def Obligations.OwnershipEffects : Prop :=
  (∀ mb s, planRuns mb 0x0701 s (ownershipGetPlan s) = true → ∃ t, exec (.ownershipGet mb) s = .next t ∧ t = { s with mci := t.mci } ∧ Succeeds mb (ownershipBytes s) [] t) ∧
  (∀ mb a k p s, planRuns mb 0x0702 s (claimPlan s) = true → keyFields (s.mb mb) = (a, k, p) → ∃ t, exec (.ownershipClaim mb) s = .next t ∧ Succeeds mb [] [] t ∧
    t.hw = { s.hw with lifecycle := .owned, epoch := s.hw.epoch + 1 } ∧ t.sec.ownerAlg = a ∧ t.sec.ownerKey = k ∧ t.mci.counter = 0) ∧
  (∀ mb a k w p s, planRuns mb 0x0703 s (transferPlan s) = true → transferFields (s.mb mb) = (a, k, w, p) → ∃ t, exec (.ownershipTransfer mb) s = .next t ∧ Succeeds mb [] [] t ∧
    t.hw = { s.hw with epoch := s.hw.epoch + 1 } ∧ t.sec.ownerAlg = a ∧ t.sec.ownerKey = k ∧ t.mci.counter = 0 ∧ (w = true → t.coil.slot0 = {} ∧ t.coil.slot1 = {})) ∧
  (∀ mb q f p s, planRuns mb 0x0704 s (policyPlan s) = true → policyFields s (s.mb mb) = (q, f, p) → ∃ t, exec (.policySet mb) s = .next t ∧ Succeeds mb [] [] t ∧
    t.hw = { s.hw with svFloor := max s.hw.svFloor (min 255 f) } ∧ t.sec.policy = q) ∧
  (∀ mb s, planRuns mb 0x0705 s (debugPlan s) = true → ∃ t, exec (.debugUnlock mb) s = .next t ∧ Succeeds mb [] [] t ∧
    t.hw = { s.hw with debugUnlocks := s.hw.debugUnlocks + 1 } ∧ t.sec.debugNext = true) ∧
  (∀ mb s, planRuns mb 0x0706 s (decommissionPlan s) = true → ∃ t, exec (.decommission mb) s = .next t ∧ Succeeds mb [] [] t ∧
    t.hw = { s.hw with lifecycle := .decommissioned } ∧ t.sec.ownerAlg = 0 ∧ t.sec.ownerKey = 0 ∧ t.coil.slot0 = {} ∧ t.coil.slot1 = {}) ∧
  (∀ mb s, planRuns mb 0x0702 s (claimPlan s) = false → ∃ t, exec (.ownershipClaim mb) s = .next t ∧ t.hw = s.hw) ∧
  (∀ mb s, planRuns mb 0x0703 s (transferPlan s) = false → ∃ t, exec (.ownershipTransfer mb) s = .next t ∧ t.hw = s.hw) ∧
  (∀ mb s, planRuns mb 0x0705 s (debugPlan s) = false → ∃ t, exec (.debugUnlock mb) s = .next t ∧ t.hw = s.hw) ∧
  (∀ mb s, planRuns mb 0x0706 s (decommissionPlan s) = false → ∃ t, exec (.decommission mb) s = .next t ∧ t.hw = s.hw)

/-- Firing Records, quotes and the certificate (R470 to R473, R484, R485): a record that is due is signed into a ring of 256, RECORD_SEQ
advances and the nonce is used up. -/
def Obligations.RecordEffects : Prop :=
  (∀ s, s.sec.recordDue = [] → exec .firingRecordSigned s = .next s) ∧
  (∀ k l s, s.sec.recordDue = k :: l → ∃ t, exec .firingRecordSigned s = .next t ∧ t.sec.records.getLast? = some (s.nextRecord k) ∧ t.sec.recordSeq = s.sec.recordSeq + 1 ∧
    t.sec.bootAttempts = 0 ∧ t.sec.nonce = none ∧ t.sec.recordDue = l ∧ (s.sec.records.length ≤ 256 → t.sec.records.length ≤ 256)) ∧
  (∀ mb sel q n p s, planRuns mb 0x0801 s (firingRecordGetPlan s) = true → recordFields (s.mb mb) = (sel, 2, q, n, p) → ∃ t, exec (.firingRecordGet mb) s = .next t ∧
    t.sec = { s.sec with nonce := some (BitVec.ofNat 256 n) } ∧ ∃ i o, Succeeds mb i o t) ∧
  (∀ mb sel q n p s, planRuns mb 0x0801 s (firingRecordGetPlan s) = true → recordFields (s.mb mb) = (sel, 3, q, n, p) → ∃ t, exec (.firingRecordGet mb) s = .next t ∧
    t.sec = { s.sec with nonce := none } ∧ ∃ i o, Succeeds mb i o t) ∧
  (∀ mb q n p s, planRuns mb 0x0801 s (firingRecordGetPlan s) = true → recordFields (s.mb mb) = (1, 1, q, n, p) → ∃ t, exec (.firingRecordGet mb) s = .next t ∧
    t = { s with mci := t.mci } ∧ ∃ i, Succeeds mb i (((s.sec.records.drop (s.sec.records.length - 1)).map fireBytes).flatten) t) ∧
  (∀ mb s, planRuns mb 0x0802 s (attestQuotePlan s) = true → ∃ t, exec (.attestQuote mb) s = .next t ∧ t = { s with mci := t.mci } ∧
    Succeeds mb [] (quoteBody s (slice (s.mb mb).params 0 32) (slice (s.mb mb).params 32 32) ++
      padTo 17088 (Config.signs (quoteBody s (slice (s.mb mb).params 0 32) (slice (s.mb mb).params 32 32)))) t) ∧
  (∀ mb s, planRuns mb 0x0803 s (certGetPlan s) = true → ∃ t, exec (.certGet mb) s = .next t ∧ t = { s with mci := t.mci } ∧
    Succeeds mb (padTo 32 Config.attestKey) certBytes t)

/-- Firmware slots and activation (R463, R474 to R476, R486 to R488): the first chunk makes the target DOWNLOADING; FINAL checks it; an
activation at the next boot sets PREFERRED and TRIAL; a live one waits, and ends with the new image or with a restart on the old. -/
def Obligations.FirmwareEffects : Prop :=
  (∀ mb man bad p s, planRuns mb 0x0A01 s (fwDownloadPlan s) = true → downloadFields (s.mb mb) = (0, false, p) → (s.mb mb).payload ≠ [] → ∃ t,
    exec (.fwDownload mb man bad) s = .next t ∧ Succeeds mb [] [] t ∧ (t.sec.slot s.target).st = 1 ∧ (t.sec.slot s.target).written = (s.mb mb).payload.length) ∧
  (∀ mb man bad o p s, planRuns mb 0x0A01 s (fwDownloadPlan s) = true → downloadFields (s.mb mb) = (o, true, p) → (s.mb mb).payload = [] → ∃ t,
    exec (.fwDownload mb man bad) s = .next t ∧ t.sec.lastFinal = (slotResult s (s.sec.slot s.target) man bad).1 ∧
    (t.sec.slot s.target).st = (if (slotResult s (s.sec.slot s.target) man bad).1 = 0 then 2 else 0) ∧
    Succeeds mb (leBytes 1 (slotResult s (s.sec.slot s.target) man bad).1 ++ leBytes 1 (slotResult s (s.sec.slot s.target) man bad).2) [] t) ∧
  (∀ mb s, planRuns mb 0x0A02 s (fwActivatePlan s) = true → ((s.mb mb).parse.enum 1 0 1 [1, 2, 3] 1).1 = 1 → ∃ t, exec (.fwActivate mb) s = .next t ∧ Succeeds mb [] [] t ∧
    t.sec = { s.sec with preferredB := s.target, trialFlag := true }) ∧
  (∀ mb s, planRuns mb 0x0A02 s (fwActivatePlan s) = true → ((s.mb mb).parse.enum 1 0 1 [1, 2, 3] 1).1 = 3 → ∃ t, exec (.fwActivate mb) s = .next t ∧ Succeeds mb [] [] t ∧
    t.sec = { s.sec with preferredB := s.sec.bootedB, trialFlag := false }) ∧
  (∀ mb s, planRuns mb 0x0A02 s (fwActivatePlan s) = true → ((s.mb mb).parse.enum 1 0 1 [1, 2, 3] 1).1 = 2 → (s.mb mb).staged = none → ∃ t, exec (.fwActivate mb) s = .next t ∧
    InProgress mb t ∧ t.mci.activationMb = some mb ∧ (t.mci.activation = 1 ∨ t.mci.activation = 2 ∧ t.dev.activating = true)) ∧
  (∀ mb s, planRuns mb 0x0A03 s (fwGetStatusPlan s) = true → ∃ t, exec (.fwGetStatus mb) s = .next t ∧ t = { s with mci := t.mci } ∧
    Succeeds mb (fwStatusBytes s) (padTo 512 s.sec.slotA.m.raw ++ padTo 512 s.sec.slotB.m.raw) t) ∧
  (∀ i s, s.mci.activation = 2 → s.mci.activationMb = some i → i < s.mci.mbs.length → ∃ t, exec .newImageReady s = .next t ∧ Succeeds i [] [] t ∧
    t.mci.activation = 0 ∧ t.dev.activating = false ∧ t.sec.preferredB = s.target ∧ t.sec.trialFlag = false ∧ t.sec.recordDue = s.sec.recordDue ++ [4]) ∧
  (∀ s, s.mci.activation ≠ 2 → exec .newImageReady s = .next s ∧ exec .activationReadyTimeout s = .next s) ∧
  (∀ i s, s.mci.activation = 2 → s.mci.activationMb = some i → i < s.mci.mbs.length → ∃ t, exec .activationReadyTimeout s = .next t ∧
    (∃ r, (t.mb i).staged = some r ∧ r.status = stConflict ∧ r.errDetail = 5) ∧ t.mci.activation = 0 ∧ t.dev.activating = false ∧ t.mci.restart = 2)

/-- Boot (R463 to R467, R540): the partitions of a valid slot are verified in order until the control complex is released; a slot that
fails gives way to the other one, then to recovery boot; a trial is confirmed, or fails at its deadline. -/
def Obligations.BootEffects : Prop :=
  (∀ b m ds g v s, s.pins.main → s.sec.bootStep = 1 → b = s.slotTried → s.slotValid m → exec (.partitionVerified 1 b m true ds g v) s = .next { s with
    sec := { s.sec with bootStep := 2, running := m } }) ∧
  (∀ p b m ds g v s, s.pins.main → 2 ≤ s.sec.bootStep → s.sec.bootStep ≤ 4 → p = partitionOf s.sec.bootStep → b = s.slotTried → ¬ s.tst.extestSeen →
    exec (.partitionVerified p b m true ds g v) s = .next { s with sec := { s.sec with bootStep := s.sec.bootStep + 1 } }) ∧
  (∀ b m ds g v s, s.pins.main → s.sec.bootStep = 5 → b = s.slotTried → ¬ s.tst.extestSeen → ∃ t, exec (.partitionVerified 3 b m true ds g v) s = .next t ∧
    t.sec.bootStep = 6 ∧ t.sec.bootedB = s.slotTried ∧ t.sec.recordDue = s.sec.recordDue ++ [0] ∧ t.clk.ccAny = true) ∧
  (∀ p b m ds g v s, s.pins.main → 1 ≤ s.sec.bootStep → s.sec.bootStep ≤ 5 → p = partitionOf s.sec.bootStep → b = s.slotTried → ¬ s.tst.extestSeen → s.sec.fromRecovery = false →
    s.sec.fallback = false → exec (.partitionVerified p b m false ds g v) s = .next { s with
      sec := { s.sec with bootStep := 1, fallback := true, running := {} }, dev := { s.dev with trial := false } }) ∧
  (∀ p b m ds g v s, s.pins.main → 1 ≤ s.sec.bootStep → s.sec.bootStep ≤ 5 → p = partitionOf s.sec.bootStep → b = s.slotTried → ¬ s.tst.extestSeen → s.sec.fallback = true →
    exec (.partitionVerified p b m false ds g v) s = .next { s with
      sec := { s.sec with bootStep := 0, fallback := false, fromRecovery := false, running := {} }, dev := { s.dev with recoveryBoot := true, trial := false } }) ∧
  (∀ p b m ok ds g v s, p ≠ partitionOf s.sec.bootStep → exec (.partitionVerified p b m ok ds g v) s = .next s) ∧
  (∀ s, s.dev.trial → s.sec.bootStep = 6 → ¬ s.sec.trialFailed → exec .bootOk s = .next { s with sec := { s.sec with trialFlag := false } }) ∧
  (∀ s, ¬ s.dev.trial → exec .bootOk s = .next s) ∧
  (∀ a n s, s.sec.bootStep = 6 → s.dev.recovering → s.sec.progress.1 < a → exec (.recoveryProgressReport a n) s = .next { s with sec := { s.sec with progress := (a, n) } }) ∧
  (∀ a n s, s.sec.bootStep = 6 → s.dev.recovering → a < s.sec.progress.1 → exec (.recoveryProgressReport a n) s = .next s) ∧
  (∀ s, s.dev.trial → s.sec.trialFlag → ¬ s.sec.trialFailed → ¬ s.vault.armed → exec .bootOkDeadlineExpired s = .next { s with sec := { s.sec with trialFailed := true } }) ∧
  (∀ s, s.dev.trial → s.sec.trialFlag → ¬ s.sec.trialFailed → s.vault.armed → ¬ s.dev.holding → exec .bootOkDeadlineExpired s = .next { s with
    sec := { s.sec with trialFailed := true }, vault := { s.vault with dumpPending := true } }) ∧
  (∀ s, s.sec.trialFailed → ¬ s.vault.armed → s.vault.phase = .idle → s.vault.configured → s.vault.status = .idle → s.completeSets ≠ [] →
    s.sag.lines.any (fun l => l.st == .dirty || l.st == .closing) → exec .trialDirtyWaitExpired s = .next { s with vault := { s.vault with holdPending := true } }) ∧
  (∀ s, ¬ s.sec.trialFailed → exec .trialDirtyWaitExpired s = .next s) ∧
  (∀ s, s.dev.recovering → s.sec.bootStep = 6 → s.pins.resumeDone → ¬ s.vault.stopped → s.vault.phase = .idle → ∀ l, ∃ t, exec (.arrayRecoveryStart l) s = .next t ∧
    t.vault.phase = .restoring) ∧
  (∀ l s, s.dev.recovering → ¬ s.pins.resumeDone → exec (.arrayRecoveryStart l) s = .next s)

/-! ### Faults, the Kiln Log, clocks, tests and the remaining commands (chapters 05, 06, 10, 15, 17 to 19) -/

/-- The fault collector (R440, R442 to R449): the first fault of a cycle is captured; a write of 1 to PENDING ends those episodes and no
other; clearing FIRST takes effect before a fault of the same cycle; an injection applies and ends. -/
def Obligations.FaultEffects : Prop :=
  (∀ f s, f.source < 512 → s.srcPresent f.source → s.fc.first = none → ∃ t, exec (.faultArrival [f]) s = .next t ∧ ∃ c, t.fc.first = some c ∧ c.source = f.source ∧ c.ft = s.now) ∧
  (∀ l c s, s.fc.first = some c → ∃ t, exec (.faultArrival l) s = .next t ∧ t.fc.first = some c) ∧
  (∀ s, exec (.faultArrival []) s = .next s) ∧
  (∀ i v k s, i < 16 → k < 512 → ∃ t, exec (.pendingWrite i v []) s = .next t ∧
    (k / 32 = i ∧ v.getLsbD (k % 32) = true → (t.src k).episode = none) ∧ (¬ (k / 32 = i ∧ v.getLsbD (k % 32) = true) → t.src k = s.src k)) ∧
  (∀ i v s, 16 ≤ i → exec (.pendingWrite i v []) s = .next s) ∧
  (∀ s, exec (.clearFirst []) s = .next { s with fc := { s.fc with first := none } }) ∧
  (∀ f s, f.source < 512 → s.srcPresent f.source → ∃ t, exec (.clearFirst [f]) s = .next t ∧ ∃ c, t.fc.first = some c ∧ c.source = f.source) ∧
  (∀ k s, (s.src k).autoAck → ¬ s.dev.restarting → ¬ s.dev.activating → ¬ s.fc.queue.any (fun c => c.source == k) → ∃ t, exec (.autoAck k) s = .next t ∧
    (t.src k).episode = none ∧ (∀ j, j ≠ k → t.src j = s.src j)) ∧
  (∀ k s, (¬ (s.src k).autoAck ∨ s.dev.restarting ∨ s.dev.activating) → exec (.autoAck k) s = .next s) ∧
  (∀ k i s, s.fc.injections.find? (fun i => i.source == k && i.fromTurn ≤ s.hw.turn) = some i → ¬ i.live → k < 512 → s.srcPresent k → ∃ t,
    exec (.injectionApply k []) s = .next t ∧ t.fc.first.isSome ∧ (i.left ≤ 1 → ∀ x ∈ t.fc.injections, x.source ≠ k)) ∧
  (∀ k i s, s.fc.injections.find? (fun i => i.source == k && i.fromTurn ≤ s.hw.turn) = some i → i.live → 5 ≤ (s.src k).wouldBe → ∃ t,
    exec (.injectionApply k []) s = .next t ∧ t.fc.first = s.fc.first ∧ ∀ x ∈ t.fc.injections, x.source ≠ k) ∧
  (∀ k s, s.fc.injections.find? (fun i => i.source == k && i.fromTurn ≤ s.hw.turn) = none → exec (.injectionApply k []) s = .next s)

/-- Fault commands (R438, R446, R447, R450 to R453), where the steps before their effect pass (R366). -/
def Obligations.FaultCommandEffects : Prop :=
  (∀ mb s, planRuns mb 0x0B01 s (faultGetPlan s) = true → ∃ t, exec (.faultGet mb) s = .next t ∧ t = { s with mci := t.mci } ∧ ∃ i,
    Succeeds mb i (((List.range (faultGetFields (s.mb mb)).2.1).map (fun i => faultEntry s ((faultGetFields (s.mb mb)).1 + i))).flatten) t) ∧
  (∀ mb a p s, planRuns mb 0x0B02 s (faultAckPlan s) = true → faultAckFields (s.mb mb) = (a, 2, p) → ∃ t, exec (.faultAck mb []) s = .next t ∧
    Succeeds mb (leBytes 4 s.pendingSrcs.length) [] t ∧ ∀ k, (t.src k).episode = none) ∧
  (∀ mb a p s, planRuns mb 0x0B02 s (faultAckPlan s) = true → faultAckFields (s.mb mb) = (a, 1, p) → ∃ t, exec (.faultAck mb []) s = .next t ∧
    Succeeds mb (leBytes 4 (if (s.src a).episode.isSome then 1 else 0)) [] t ∧ (t.src a).episode = none ∧ ∀ k, k ≠ a → t.src k = s.src k) ∧
  (∀ mb k v a p s, planRuns mb 0x0B03 s (faultSetSeverityPlan s) = true → faultSetFields s (s.mb mb) = (k, v, a, p) → ∃ t, exec (.faultSetSeverity mb) s = .next t ∧
    Succeeds mb [] [] t ∧ (t.src k).next = some v ∧ (t.src k).configured = (s.src k).configured) ∧
  (∀ mb s, planRuns mb 0x0B04 s (faultInjectPlan s) = true → ∃ t, exec (.faultInject mb) s = .next t ∧ Succeeds mb [] [] t ∧
    t = { s with mci := t.mci, fc := { s.fc with injections := s.fc.injections ++ [(injectFields s (s.mb mb)).1] } })

/-- Happenings, temperature and the Kiln Log's commands (R353, R443, R492, R496, R498, R502, R505, R508 to R510, R563). -/
def Obligations.KilnLogEffects : Prop :=
  (∀ h s, h.kind = 1 → s.fc.queue = [] → exec (.kilnLogHappening h) s = .next s) ∧
  (∀ h c l s, h.kind = 1 → s.fc.queue = c :: l → exec (.kilnLogHappening h) s = .next (record (faultHappening c) { s with fc := { s.fc with queue := l } })) ∧
  (∀ h s, 2 ≤ h.kind → h.kind ≤ 7 → exec (.kilnLogHappening h) s = .next (record { h with sev := happeningSev h } s)) ∧
  (∀ h s, (h.kind = 0 ∨ 7 < h.kind) → exec (.kilnLogHappening h) s = .next s) ∧
  (∀ n s, n < 4 → ∃ t, exec (.thermalTrip n) s = .next t ∧ t.pins.thermtrip = true ∧ t.fc.first.isSome) ∧
  (∀ n s, 4 ≤ n → exec (.thermalTrip n) s = .next s) ∧
  (∀ a b c d s, a < 120 → b < 120 → c < 120 → d < 120 → ¬ (s.nvme.feat.tempOver < ({ s with pins := { s.pins with temps := [a, b, c, d] } } : State).composite) →
    exec (.temperatureSample a b c d) s = .next { s with
      pins := { s.pins with temps := [a, b, c, d], tempOver := false }
      klog := { s.klog with samples := s.klog.samples ++ [(0x0103, 0, 0, (a + 64).toNat, s.now), (0x0103, 1, 0, (b + 64).toNat, s.now),
        (0x0103, 2, 0, (c + 64).toNat, s.now), (0x0103, 3, 0, (d + 64).toNat, s.now)] } }) ∧
  (∀ a b c d s, s.nvme.feat.tempOver < ({ s with pins := { s.pins with temps := [a, b, c, d] } } : State).composite → ¬ s.pins.tempOver → ∃ t,
    exec (.temperatureSample a b c d) s = .next t ∧ t.fc.first.isSome) ∧
  (∀ mb s, planRuns mb 0x0901 s (kilnLogGetPlan s) = true → ∃ t, exec (.kilnLogGet mb) s = .next t ∧ t = { s with mci := t.mci } ∧ ∃ i o, Succeeds mb i o t) ∧
  (∀ mb s, planRuns mb 0x0902 s (logClearPlan s) = true → (s.mb mb).staged = none → ∃ t, exec (.kilnLogClear mb) s = .next t ∧ InProgress mb t ∧
    t.klog = { s.klog with clearing := some ((logClearFields (s.mb mb)).1, mb, s.hw.epoch, s.mci.counter), clearStep := 1 }) ∧
  (∀ mb s, planRuns mb 0x0903 s (hostTimeHintPlan s) = true → ∃ t, exec (.hostTimeHint mb) s = .next t ∧ t.klog.hintValue = (hintField (s.mb mb)).1 ∧ t.klog.hintFt = s.now ∧
    t.klog.hintValid = true ∧ ∃ d, Succeeds mb (leBytes 8 (s.claimedAt s.now) ++ leBytes 1 (flag d 0)) [] t)

/-- Clocks and crossings (R512, R516, R520, R522, R523).
Links that train and die-to-die lanes (R22, R193, R241, R292, R530, R535, R536). -/
def Obligations.ClockAndLinkEffects : Prop :=
  (∀ p s, pllLocked p s.clk → ∃ t, exec (.pllUnlock p) s = .next t ∧ t.clk = pllLose p s.clk ∧ (s.srcPresent (pllSource p) = true → t.fc.first.isSome)) ∧
  (∀ p s, ¬ pllLocked p s.clk → exec (.pllUnlock p) s = .next s) ∧
  (∀ n s, ∃ t, exec (.resetNotification n) s = .next t ∧ t.clk.oneSided = bump s.clk.oneSided ∧ t.clk.crossDrops = sat32 (s.clk.crossDrops + (s.abandoned n).length) ∧
    (∀ c ∈ t.arr.cmds, c.id ∈ s.abandoned n → c.sent = false)) ∧
  (∀ u s, exec (.crossingHandshake u) s = .next { s with clk := { s.clk with crossings := Sys2Proof.Machine.erase u s.clk.crossings } }) ∧
  (∀ d i s, s.pins.main → s.clockPresent d i → ¬ clockRuns d i s.clk → d < 5 → exec (.wakeRequest d i) s = .next { s with
    clk := { setClock d i true s.clk with wakes := bump s.clk.wakes } }) ∧
  (∀ d i s, clockRuns d i s.clk → exec (.wakeRequest d i) s = .next s) ∧
  (∀ d i s, clockRuns d i s.clk → s.mayStop d i → exec (.clockStop d i) s = .next { s with clk := setClock d i false s.clk }) ∧
  (∀ d i s, ¬ clockRuns d i s.clk → exec (.clockStop d i) s = .next s) ∧
  (∀ p s, s.portExists p → p < s.arr.ports.length → (s.port p).up → ¬ s.inTest 2 p → ∃ t, exec (.linkErrorThreshold (.port p)) s = .next t ∧
    (t.port p).training = true ∧ (t.port p).up = false) ∧
  (∀ s, s.twin.trained → ¬ s.inTest 3 0 → ∃ t, exec (.linkErrorThreshold .slip) s = .next t ∧ t.twin.training = true ∧ t.twin.trained = false) ∧
  (∀ p s, s.coil.linkUp.getLsbD p → ¬ s.inTest 4 p → ∃ t, exec (.linkErrorThreshold (.coil p)) s = .next t ∧ t.coil.linkUp.getLsbD p = false) ∧
  (∀ p s, s.inTest 2 p → exec (.linkErrorThreshold (.port p)) s = .next s) ∧
  (∀ p ok n s, p < s.arr.ports.length → (s.port p).training → ∃ t, exec (.portTrainingComplete (.port p) ok n) s = .next t ∧ (t.port p).training = false ∧ (t.port p).up = ok) ∧
  (∀ n s, s.twin.training → ∃ t, exec (.portTrainingComplete .slip true n) s = .next t ∧ t.twin.training = false ∧ t.twin.trained = true ∧ t.twin.lanes = min n 8 ∧
    t.twin.session = (s.twin.session + 1) % 65536) ∧
  (∀ p n s, s.coil.training.getLsbD p → ∃ t, exec (.portTrainingComplete (.coil p) true n) s = .next t ∧ t.coil.linkUp.getLsbD p = true ∧ t.coil.training.getLsbD p = false) ∧
  (∀ p ok n s, ¬ (s.port p).training → exec (.portTrainingComplete (.port p) ok n) s = .next s) ∧
  (∀ i l sp sps s, i < 16 → (s.bundle i).inService → l ∈ (s.bundle i).dataLanes → (s.bundle i).repair = none → l ∉ (s.bundle i).waiting → (s.bundle i).spares = sp :: sps →
    exec (.d2dLaneFailed i l) s = .next (onBundle i (fun b => { b with repair := some (l, sp, 1), repairTurn := s.repairFrom }) s)) ∧
  (∀ i l x s, i < 16 → (s.bundle i).inService → l ∈ (s.bundle i).dataLanes → (s.bundle i).repair = some x → x.1 ≠ l → l ∉ (s.bundle i).waiting →
    exec (.d2dLaneFailed i l) s = .next (onBundle i (fun b => { b with waiting := b.waiting ++ [l] }) s)) ∧
  (∀ i l s, i < 16 → (s.bundle i).inService → l ∈ (s.bundle i).dataLanes → (s.bundle i).repair = none → l ∉ (s.bundle i).waiting → (s.bundle i).spares = [] → ∃ t,
    exec (.d2dLaneFailed i l) s = .next t ∧ t.fc.first.isSome ∧ (i < s.tst.bundles.length → (t.bundle i).inService = false)) ∧
  (∀ i l s, i < 16 → (s.bundle i).inService → l ∈ (s.bundle i).spares → (s.bundle i).repair = none → ∃ t, exec (.d2dSpareFailed i l) s = .next t ∧ t.fc.first.isSome ∧
    t.tst.d2dRepairs = bump s.tst.d2dRepairs ∧ (i < s.tst.bundles.length → l ∈ (t.bundle i).retired)) ∧
  (∀ i l s, ¬ (s.bundle i).inService → exec (.d2dLaneFailed i l) s = .next s ∧ exec (.d2dSpareFailed i l) s = .next s)


/-- Tests and the TAP (R527 to R534, R537 to R540, R542, R551). -/
def Obligations.TestEffects : Prop :=
  (∀ mb s, planRuns mb 0x0B05 s (patternPlan s) = true → (s.mb mb).staged = none → ∃ t, exec (.diagPattern mb) s = .next t ∧ InProgress mb t ∧
    { (patternFields s (s.mb mb)).1 with mb := mb } ∈ t.tst.tests) ∧
  (∀ mb s, planRuns mb 0x0B06 s (mbistPlan s) = true → (s.mb mb).staged = none → ∃ t, exec (.diagMbist mb) s = .next t ∧ InProgress mb t ∧
    { (mbistFields (s.mb mb)).1 with mb := mb } ∈ t.tst.tests) ∧
  (∀ mb s, planRuns mb 0x0B07 s (marginPlan s) = true → (s.mb mb).staged = none → ∃ t, exec (.diagMargin mb) s = .next t ∧ InProgress mb t ∧
    { (marginFields (s.mb mb)).1 with mb := mb } ∈ t.tst.tests) ∧
  (∀ mb l b s, ∃ t, exec (.checkerLockChange mb l b) s = .next t ∧ t = { s with tst := t.tst } ∧
    ∀ x ∈ t.tst.tests, x.mb = mb → x.kind = 1 → x.pattern ≠ 6 → x.lanes.testBit l = true → (l ∈ x.locked ↔ b = true)) ∧
  (∀ mb rs x s, s.testOf mb 1 = some x → (s.mb mb).st = .executing → (s.mb mb).opcode = 0x0B05 → (s.mb mb).started → ∃ t, exec (.testDurationExpired mb rs) s = .next t ∧
    Succeeds mb (leBytes 8 (flag x.interrupted 0) ++ ((rs.filter (fun r => x.lanes.testBit r.lane)).map (laneBytes x)).flatten) [] t ∧
    ∀ y ∈ t.tst.tests, ¬ (y.mb = mb ∧ y.kind = 1)) ∧
  (∀ mb rs s, s.testOf mb 1 = none → exec (.testDurationExpired mb rs) s = .next s) ∧
  (∀ mb c l d x s, s.testOf mb 2 = some x → (s.mb mb).st = .executing → (s.mb mb).opcode = 0x0B06 → (s.mb mb).started → ∃ t, exec (.mbistComplete mb 0 c l d) s = .next t ∧
    Succeeds mb (leBytes 4 (if x.interrupted then 2 else 0) ++ leBytes 4 0 ++ leBytes 4 c ++ leBytes 4 0 ++ leBytes 4 0) [] t) ∧
  (∀ mb n c l d x s, s.testOf mb 2 = some x → 0 < n → ∃ t, exec (.mbistComplete mb n c l d) s = .next t ∧ t.tst.mbistFails = bump s.tst.mbistFails) ∧
  (∀ mb e x s, s.testOf mb 3 = some x → ¬ x.interrupted → e < x.limit → x.steps + 1 < x.maxSteps → exec (.marginDwellExpired mb e) s = .next { s with
    tst := { s.tst with tests := mapIf s.tst.tests (fun y => y.mb == mb && y.kind == 3) (fun y => { y with steps := x.steps + 1 }) } }) ∧
  (∀ mb e x s, s.testOf mb 3 = some x → ¬ x.interrupted → x.limit ≤ e → ¬ x.up → exec (.marginDwellExpired mb e) s = .next { s with
    tst := { s.tst with tests := mapIf s.tst.tests (fun y => y.mb == mb && y.kind == 3) (fun y => { y with up := true, below := x.steps, errBelow := sat32 e, steps := 0 }) } }) ∧
  (∀ mb e x s, s.testOf mb 3 = some x → ¬ x.interrupted → x.limit ≤ e → x.up → (s.mb mb).st = .executing → (s.mb mb).opcode = 0x0B07 → (s.mb mb).started → ∃ t,
    exec (.marginDwellExpired mb e) s = .next t ∧ Succeeds mb (marginBytes x x.below x.steps x.errBelow (sat32 e)) [] t) ∧
  (∀ i s, s.pins.perst → s.sec.bootStep < 6 → exec (.jtagInstruction i) s = .next { s with
    tst := { s.tst with tapReset := false, tap := i, extestSeen := s.tst.extestSeen || TapInstr.drives i } }) ∧
  (∀ i s, TapInstr.drives i → (¬ s.pins.perst ∨ 6 ≤ s.sec.bootStep) → exec (.jtagInstruction i) s = .next { s with tst := { s.tst with tapReset := false, tap := .bypass } }) ∧
  (∀ s, exec .trst s = .next { s with tst := { s.tst with tapReset := true, tap := .idcode } })

/-- Saggar, vault and peer window commands (R159, R160, R188 to R191, R331), where the steps before their effect pass (R366). -/
def Obligations.StorageCommandEffects : Prop :=
  (∀ mb s, planRuns mb 0x0C01 s (saggarGetStatusPlan s) = true → ∃ t, exec (.saggarGetStatus mb) s = .next t ∧ t = { s with mci := t.mci } ∧
    Succeeds mb (((List.range 15).map (fun i => leBytes 4 ((sagReg (4 * i) s).getD 0))).flatten) ((s.wtVolumes.map (fun v => leBytes 4 v.1 ++ leBytes 4 v.2)).flatten) t) ∧
  (∀ mb a h d p s, planRuns mb 0x0C02 s (saggarSetPolicyPlan s) = true → sagPolicyFields s (s.mb mb) = (a, h, d, p) → ∃ t, exec (.saggarSetPolicy mb) s = .next t ∧
    Succeeds mb [] [] t ∧ t.sag = { s.sag with gatherAge := a, highWaterNext := h, dirtyBudgetNext := d }) ∧
  (∀ mb h c us p s, planRuns mb 0x0C03 s (vaultConfigPlan s) = true → vaultFields s (s.mb mb) = (h, c, us, p) → ∃ t, exec (.vaultConfig mb) s = .next t ∧ Succeeds mb [] [] t ∧
    t.vault = { s.vault with configured := true, tested := false, holdupUs := h, copies := c, members := vaultMembersOf s us }) ∧
  (∀ mb s, planRuns mb 0x0C04 s (vaultTestPlan s) = true → (s.mb mb).staged = none → ∃ t, exec (.vaultTest mb) s = .next t ∧ InProgress mb t ∧
    t.vault = { s.vault with phase := .testing, testMb := some mb }) ∧
  (∀ rs mb s, s.vault.phase = .testing → s.vault.testMb = some mb → mb < s.mci.mbs.length → ∃ t, exec (.vaultTestEnd rs true) s = .next t ∧
    (∃ i, Succeeds mb i [] t) ∧ t.vault = { s.vault with phase := .idle, testMb := none }) ∧
  (∀ rs mb s, s.vault.phase = .testing → s.vault.testMb = some mb → mb < s.mci.mbs.length → (((s.onVault fun v => { v with
      members := (List.range s.vault.members.length).map (fun j => { (nth s.vault.members j {}) with rate := nth rs j 0 }), tested := true }).capLines).getD 0) ≠ 0 → ∃ t,
    exec (.vaultTestEnd rs false) s = .next t ∧ (∃ i, Succeeds mb i [] t) ∧ t.vault.tested = true ∧ t.vault.phase = .idle ∧
    t.vault.members = (List.range s.vault.members.length).map (fun j => { (nth s.vault.members j {}) with rate := nth rs j 0 })) ∧
  (∀ rs e s, s.vault.phase ≠ .testing → exec (.vaultTestEnd rs e) s = .next s) ∧
  (∀ mb s, planRuns mb 0x0C05 s (vaultGetStatusPlan s) = true → ∃ t, exec (.vaultGetStatus mb) s = .next t ∧ t = { s with mci := t.mci } ∧ ∃ i, Succeeds mb i [] t) ∧
  (∀ mb a b p s, planRuns mb 0x0C06 s (peerWindowConfigPlan s) = true → pwFields s (s.mb mb) = (a, b, p) → ∃ t, exec (.peerWindowConfig mb) s = .next t ∧ Succeeds mb [] [] t ∧
    t.polNext = { s.polNext with pwStagingMib := a, bar4Default := b } ∧ t.pw = s.pw)

/-! ### What holds of the whole block -/

/-- No word spells a command, and an empty queue lets one data-path cycle of the turn pass while the data path runs: nothing else
changes (the model's choices: log entries 2 and 5). -/
def Obligations.EmptyQueueTick : Prop :=
  (∀ n w, decodeTableWord n w = none) ∧ (∀ s n w, State.withFetchWord s n w = s) ∧
  (∀ s, s.pending = [] → s.sched.running → s.hw.cycle + 1 < s.cycles → step s = .next { s with hw := { s.hw with cycle := s.hw.cycle + 1 } }) ∧
  (∀ s, s.pending = [] → ¬ (s.sched.running ∧ s.hw.cycle + 1 < s.cycles) → step s = .next s)

/-- The machine right after reset: what the register map and chapters 02, 10, 11, 12, 14, 15 and 17 give it, an empty queue, and the
relations that every step keeps. -/
def Obligations.ResetState : Prop :=
  State.reset.pending = [] ∧ State.reset.sched.running = false ∧ State.reset.sched.globalEvent = 0 ∧ State.reset.sched.globalEventEn = 0 ∧
  State.reset.sched.snap = ⟨0, 0, 0, 0⟩ ∧ State.reset.nvme.cc = 0 ∧ State.reset.nvme.rdy = false ∧ State.reset.nvme.cfs = false ∧
  State.reset.nvme.intMask = 0 ∧ State.reset.cfg.mse = false ∧ State.reset.cfg.busMaster = false ∧ State.reset.msix = [] ∧
  (∀ i < 16, (State.reset.mb i).lock = 0 ∧ (State.reset.mb i).st = .idle) ∧ (∀ ch < 64, (State.reset.chan ch).st = .idle) ∧
  (∀ n < 96, nth State.reset.kc.reqs n 0 = 0) ∧ State.reset.fc.first = none ∧ State.reset.fc.fatal = false ∧ State.reset.fc.faultCount = 0 ∧
  State.reset.pins.faultPin = false ∧ State.reset.pins.thermtrip = false ∧ State.reset.sag.lines = [] ∧ State.reset.klog.hintValid = false ∧
  State.reset.coil.assocs = [] ∧ FuseLimits State.reset ∧ SlotsRise State.reset.klog ∧ Memory.wf State.reset.pw.mem = true

/-- What only its owners change (R8, R20, R549): no command but the block itself takes from its queue; units keep their presence;
straps are sampled by AUX_POWER_ON alone; op_minutes counts with OP_MINUTE_TICK alone. -/
def Obligations.FieldsWithOwners : Prop :=
  (∀ c s t, exec c s = .next t → t.pending = s.pending ∧ t.hw.present = s.hw.present) ∧
  (∀ c s t, exec c s = .next t → (∀ st torn, c ≠ .auxPowerOn st torn) → t.hw.straps = s.hw.straps) ∧
  (∀ c s t, exec c s = .next t → (∀ l, c ≠ .opMinuteTick l) → t.hw.opMinutes = s.hw.opMinutes) ∧
  (∀ c s t, exec c s = .next t → t.hw.lifecycle ≠ s.hw.lifecycle → (∃ mb, c = .ownershipClaim mb) ∨ ∃ mb, c = .decommission mb)

/-- No step makes a fuse counter smaller or takes the lifecycle back (R456, R458). -/
def Obligations.FusesOnlyRise : Prop :=
  ∀ s t, step s = .next t → s.hw.epoch ≤ t.hw.epoch ∧ s.hw.svFloor ≤ t.hw.svFloor ∧ s.hw.debugUnlocks ≤ t.hw.debugUnlocks ∧
    s.hw.twinBinds ≤ t.hw.twinBinds ∧ s.hw.lifecycle.code ≤ t.hw.lifecycle.code

/-- Every step keeps the fuse counters within their ranges, the turn within its 48 bits, and a device without an owner so far at
epoch 0 (R43, R231, R458, R479). -/
def Obligations.FuseLimitsKept : Prop := ∀ s t, FuseLimits s → step s = .next t → FuseLimits t

/-- FATAL stays until aux power is removed: no other command ends it, an acknowledgement included (R441). -/
def Obligations.FatalLatched : Prop :=
  ∀ c s t, c ≠ .auxPowerRemoved → exec c s = .next t → s.fc.fatal = true → t.fc.fatal = true

/-- The bin of a sample: LOG scaling with the base of its kind, LINEAR scaling for TEMPERATURE (whose value is °C + 64); and a sample
is counted in that bin, of an entry that has the key or of a new one. -/
def Obligations.HistogramBins : Prop :=
  (∀ k b, (k, b) ∈ [(0x0101, 2), (0x0102, 4), (0x0104, 10), (0x0105, 10), (0x0106, 0)] → ∀ v,
    (v < 2 ^ b → binOf k v = 0) ∧ (∀ i, 1 ≤ i → i ≤ 14 → 2 ^ (b + i - 1) ≤ v → v < 2 ^ (b + i) → binOf k v = i) ∧ (2 ^ (b + 14) ≤ v → binOf k v = 15)) ∧
  (∀ v, (v < 24 → binOf 0x0103 v = 0) ∧ (24 ≤ v → binOf 0x0103 v = min 15 ((v - 24) / 8))) ∧
  (∀ v f c d e, (mergeSample v f c d e).bins = nthMod e.bins (binOf e.kind v) (fun n => min (n + 1) 4294967295)) ∧
  (∀ slot k a b v f c d, ∀ i < 16, nth (newHist slot k a b v f c d).bins i 0 = if i = binOf k v then 1 else 0)

/-- Where a happening goes: merged into the entry of its key, else into the lowest free slot, else in place of the entry of lowest severity,
LAST_FT and slot, else dropped and counted. -/
def Obligations.LogReplacement : Prop :=
  (∀ h s, 2 ≤ h.kind → h.kind ≤ 7 → s.klog.clearStep ≠ 2 → exec (.kilnLogHappening h) s = .next { s with
    klog := takeHappening { h with sev := happeningSev h } s.now (s.claimedAt s.now) s.klog }) ∧
  (∀ h f c k, SlotsRise k → SlotsRise (takeHappening h f c k)) ∧
  (∀ h f c k, k.entries.any (fun e => e.hasKey h.kind h.keyA h.keyB) → (takeHappening h f c k).dropped = k.dropped ∧
    (takeHappening h f c k).entries.map (·.slot) = k.entries.map (·.slot) ∧
    ∀ e ∈ k.entries, e.hasKey h.kind h.keyA h.keyB → mergeEntry h f c k.hintDecreased e ∈ (takeHappening h f c k).entries) ∧
  (∀ h f c k, SlotsRise k → ¬ k.entries.any (fun e => e.hasKey h.kind h.keyA h.keyB) → k.entries.length < logSlots → ∃ n, 257 ≤ n ∧ n ≤ 65535 ∧
    (∀ e ∈ k.entries, e.slot ≠ n) ∧ (∀ m, 257 ≤ m → m < n → ∃ e ∈ k.entries, e.slot = m) ∧ (takeHappening h f c k).dropped = k.dropped ∧
    (takeHappening h f c k).entries.Perm (newEntry n h f c k.hintDecreased :: k.entries)) ∧
  (∀ h f c k e, SlotsRise k → ¬ k.entries.any (fun e => e.hasKey h.kind h.keyA h.keyB) → logSlots ≤ k.entries.length → TakenFirst h.sev k e →
    takeHappening h f c k = { k with entries := mapIf k.entries (fun x => x.slot == e.slot) (fun _ => newEntry e.slot h f c k.hintDecreased), updates := bump k.updates }) ∧
  (∀ h f c k, ¬ k.entries.any (fun e => e.hasKey h.kind h.keyA h.keyB) → logSlots ≤ k.entries.length → (∀ e ∈ k.entries, h.sev < e.sev) →
    takeHappening h f c k = { k with dropped := nthMod k.dropped h.sev (fun n => min (n + 1) (2 ^ 64 - 1)) })

/-- An acknowledgement in the cycle of a new fault of that source ends the old episode, and the fault opens a new one at the configured
severity, without escalation; an acknowledgement of a source with no pending episode has no effect. LAST_KILN_LOST (0x002), which a fault
that fences the last kiln also raises, is shown for a device with no kiln left. -/
def Obligations.AcknowledgeBeforeArrival : Prop :=
  (∀ i v b f e s, i < 16 → b < 32 → v.getLsbD b = true → f.source = 32 * i + b → s.srcPresent f.source → f.source ≠ 2 ∨ s.kilns = [] →
    (s.src f.source).episode = some e → s.fc.queue.length < 256 → ∃ t, exec (.pendingWrite i v [f]) s = .next t ∧
    (t.src f.source).episode = some { sev := (s.src f.source).configured }) ∧
  (∀ mb p f e s, planRuns mb 0x0B02 s (faultAckPlan s) = true → f.source < 512 → faultAckFields (s.mb mb) = (f.source, 1, p) → s.srcPresent f.source →
    f.source ≠ 2 ∨ s.kilns = [] → (s.src f.source).episode = some e → s.fc.queue.length < 256 → ∃ t, exec (.faultAck mb [f]) s = .next t ∧
    (t.src f.source).episode = some { sev := (s.src f.source).configured }) ∧
  (∀ i v s, (∀ b, v.getLsbD b = true → (s.src (32 * i + b)).episode = none) → exec (.pendingWrite i v []) s = .next s) ∧
  (∀ mb k p s, planRuns mb 0x0B02 s (faultAckPlan s) = true → faultAckFields (s.mb mb) = (k, 1, p) → (s.src k).episode = none → ∃ t,
    exec (.faultAck mb []) s = .next t ∧ t = { s with mci := t.mci })

/-- Placement (R61, R62): the permutation of a round lists each member of the pool once; role q of stripe j in round r stands at position
(q − r) mod w of the stripe's members; no member holds two strips of a round. -/
def Obligations.Placement : Prop :=
  (∀ seed r n, (permutation seed r n).Perm (List.range n)) ∧
  (∀ d r j q, 0 < descW d → j < descS d → q < descW d → (homeStrips d r).filter (fun x => x.j == j && x.q == q) =
    [{ j := j, q := q, loc := nth (permutation d.seed r d.n) (j * descW d + (q + descW d - r % descW d) % descW d) 0 }]) ∧
  (∀ d r, (homeStrips d r).length = descS d * descW d ∧ ((homeStrips d r).map (·.loc)).Nodup)
end
end

