-- ==== Sys2Proof/Laws/State.lean ====
section
/-! SUPPORT. One lemma per field of State per update of one part (and per output, free value and member of the finishers). -/
namespace Sys2Proof.Machine

/-! ### `onPins` -/
@[simp] theorem State.onPins_hw (f : Pins → Pins) (s : State) : (s.onPins f).hw = s.hw := rfl
@[simp] theorem State.onPins_pins (f : Pins → Pins) (s : State) : (s.onPins f).pins = f s.pins := rfl
@[simp] theorem State.onPins_clk (f : Pins → Pins) (s : State) : (s.onPins f).clk = s.clk := rfl
@[simp] theorem State.onPins_sched (f : Pins → Pins) (s : State) : (s.onPins f).sched = s.sched := rfl
@[simp] theorem State.onPins_dev (f : Pins → Pins) (s : State) : (s.onPins f).dev = s.dev := rfl
@[simp] theorem State.onPins_sag (f : Pins → Pins) (s : State) : (s.onPins f).sag = s.sag := rfl
@[simp] theorem State.onPins_vault (f : Pins → Pins) (s : State) : (s.onPins f).vault = s.vault := rfl
@[simp] theorem State.onPins_arr (f : Pins → Pins) (s : State) : (s.onPins f).arr = s.arr := rfl
@[simp] theorem State.onPins_pol (f : Pins → Pins) (s : State) : (s.onPins f).pol = s.pol := rfl
@[simp] theorem State.onPins_polNext (f : Pins → Pins) (s : State) : (s.onPins f).polNext = s.polNext := rfl
@[simp] theorem State.onPins_twin (f : Pins → Pins) (s : State) : (s.onPins f).twin = s.twin := rfl
@[simp] theorem State.onPins_tpol (f : Pins → Pins) (s : State) : (s.onPins f).tpol = s.tpol := rfl
@[simp] theorem State.onPins_tpolNext (f : Pins → Pins) (s : State) : (s.onPins f).tpolNext = s.tpolNext := rfl
@[simp] theorem State.onPins_coil (f : Pins → Pins) (s : State) : (s.onPins f).coil = s.coil := rfl
@[simp] theorem State.onPins_ccnt (f : Pins → Pins) (s : State) : (s.onPins f).ccnt = s.ccnt := rfl
@[simp] theorem State.onPins_ep (f : Pins → Pins) (s : State) : (s.onPins f).ep = s.ep := rfl
@[simp] theorem State.onPins_cfg (f : Pins → Pins) (s : State) : (s.onPins f).cfg = s.cfg := rfl
@[simp] theorem State.onPins_msix (f : Pins → Pins) (s : State) : (s.onPins f).msix = s.msix := rfl
@[simp] theorem State.onPins_pw (f : Pins → Pins) (s : State) : (s.onPins f).pw = s.pw := rfl
@[simp] theorem State.onPins_nvme (f : Pins → Pins) (s : State) : (s.onPins f).nvme = s.nvme := rfl
@[simp] theorem State.onPins_ncnt (f : Pins → Pins) (s : State) : (s.onPins f).ncnt = s.ncnt := rfl
@[simp] theorem State.onPins_mci (f : Pins → Pins) (s : State) : (s.onPins f).mci = s.mci := rfl
@[simp] theorem State.onPins_kc (f : Pins → Pins) (s : State) : (s.onPins f).kc = s.kc := rfl
@[simp] theorem State.onPins_fc (f : Pins → Pins) (s : State) : (s.onPins f).fc = s.fc := rfl
@[simp] theorem State.onPins_klog (f : Pins → Pins) (s : State) : (s.onPins f).klog = s.klog := rfl
@[simp] theorem State.onPins_sec (f : Pins → Pins) (s : State) : (s.onPins f).sec = s.sec := rfl
@[simp] theorem State.onPins_tst (f : Pins → Pins) (s : State) : (s.onPins f).tst = s.tst := rfl
@[simp] theorem State.onPins_out (f : Pins → Pins) (s : State) : (s.onPins f).out = s.out := rfl
@[simp] theorem State.onPins_free (f : Pins → Pins) (s : State) : (s.onPins f).free = s.free := rfl
@[simp] theorem State.onPins_pending (f : Pins → Pins) (s : State) : (s.onPins f).pending = s.pending := rfl

/-! ### `onClk` -/
@[simp] theorem State.onClk_hw (f : Clk → Clk) (s : State) : (s.onClk f).hw = s.hw := rfl
@[simp] theorem State.onClk_pins (f : Clk → Clk) (s : State) : (s.onClk f).pins = s.pins := rfl
@[simp] theorem State.onClk_clk (f : Clk → Clk) (s : State) : (s.onClk f).clk = f s.clk := rfl
@[simp] theorem State.onClk_sched (f : Clk → Clk) (s : State) : (s.onClk f).sched = s.sched := rfl
@[simp] theorem State.onClk_dev (f : Clk → Clk) (s : State) : (s.onClk f).dev = s.dev := rfl
@[simp] theorem State.onClk_sag (f : Clk → Clk) (s : State) : (s.onClk f).sag = s.sag := rfl
@[simp] theorem State.onClk_vault (f : Clk → Clk) (s : State) : (s.onClk f).vault = s.vault := rfl
@[simp] theorem State.onClk_arr (f : Clk → Clk) (s : State) : (s.onClk f).arr = s.arr := rfl
@[simp] theorem State.onClk_pol (f : Clk → Clk) (s : State) : (s.onClk f).pol = s.pol := rfl
@[simp] theorem State.onClk_polNext (f : Clk → Clk) (s : State) : (s.onClk f).polNext = s.polNext := rfl
@[simp] theorem State.onClk_twin (f : Clk → Clk) (s : State) : (s.onClk f).twin = s.twin := rfl
@[simp] theorem State.onClk_tpol (f : Clk → Clk) (s : State) : (s.onClk f).tpol = s.tpol := rfl
@[simp] theorem State.onClk_tpolNext (f : Clk → Clk) (s : State) : (s.onClk f).tpolNext = s.tpolNext := rfl
@[simp] theorem State.onClk_coil (f : Clk → Clk) (s : State) : (s.onClk f).coil = s.coil := rfl
@[simp] theorem State.onClk_ccnt (f : Clk → Clk) (s : State) : (s.onClk f).ccnt = s.ccnt := rfl
@[simp] theorem State.onClk_ep (f : Clk → Clk) (s : State) : (s.onClk f).ep = s.ep := rfl
@[simp] theorem State.onClk_cfg (f : Clk → Clk) (s : State) : (s.onClk f).cfg = s.cfg := rfl
@[simp] theorem State.onClk_msix (f : Clk → Clk) (s : State) : (s.onClk f).msix = s.msix := rfl
@[simp] theorem State.onClk_pw (f : Clk → Clk) (s : State) : (s.onClk f).pw = s.pw := rfl
@[simp] theorem State.onClk_nvme (f : Clk → Clk) (s : State) : (s.onClk f).nvme = s.nvme := rfl
@[simp] theorem State.onClk_ncnt (f : Clk → Clk) (s : State) : (s.onClk f).ncnt = s.ncnt := rfl
@[simp] theorem State.onClk_mci (f : Clk → Clk) (s : State) : (s.onClk f).mci = s.mci := rfl
@[simp] theorem State.onClk_kc (f : Clk → Clk) (s : State) : (s.onClk f).kc = s.kc := rfl
@[simp] theorem State.onClk_fc (f : Clk → Clk) (s : State) : (s.onClk f).fc = s.fc := rfl
@[simp] theorem State.onClk_klog (f : Clk → Clk) (s : State) : (s.onClk f).klog = s.klog := rfl
@[simp] theorem State.onClk_sec (f : Clk → Clk) (s : State) : (s.onClk f).sec = s.sec := rfl
@[simp] theorem State.onClk_tst (f : Clk → Clk) (s : State) : (s.onClk f).tst = s.tst := rfl
@[simp] theorem State.onClk_out (f : Clk → Clk) (s : State) : (s.onClk f).out = s.out := rfl
@[simp] theorem State.onClk_free (f : Clk → Clk) (s : State) : (s.onClk f).free = s.free := rfl
@[simp] theorem State.onClk_pending (f : Clk → Clk) (s : State) : (s.onClk f).pending = s.pending := rfl

/-! ### `onSched` -/
@[simp] theorem State.onSched_hw (f : Sched → Sched) (s : State) : (s.onSched f).hw = s.hw := rfl
@[simp] theorem State.onSched_pins (f : Sched → Sched) (s : State) : (s.onSched f).pins = s.pins := rfl
@[simp] theorem State.onSched_clk (f : Sched → Sched) (s : State) : (s.onSched f).clk = s.clk := rfl
@[simp] theorem State.onSched_sched (f : Sched → Sched) (s : State) : (s.onSched f).sched = f s.sched := rfl
@[simp] theorem State.onSched_dev (f : Sched → Sched) (s : State) : (s.onSched f).dev = s.dev := rfl
@[simp] theorem State.onSched_sag (f : Sched → Sched) (s : State) : (s.onSched f).sag = s.sag := rfl
@[simp] theorem State.onSched_vault (f : Sched → Sched) (s : State) : (s.onSched f).vault = s.vault := rfl
@[simp] theorem State.onSched_arr (f : Sched → Sched) (s : State) : (s.onSched f).arr = s.arr := rfl
@[simp] theorem State.onSched_pol (f : Sched → Sched) (s : State) : (s.onSched f).pol = s.pol := rfl
@[simp] theorem State.onSched_polNext (f : Sched → Sched) (s : State) : (s.onSched f).polNext = s.polNext := rfl
@[simp] theorem State.onSched_twin (f : Sched → Sched) (s : State) : (s.onSched f).twin = s.twin := rfl
@[simp] theorem State.onSched_tpol (f : Sched → Sched) (s : State) : (s.onSched f).tpol = s.tpol := rfl
@[simp] theorem State.onSched_tpolNext (f : Sched → Sched) (s : State) : (s.onSched f).tpolNext = s.tpolNext := rfl
@[simp] theorem State.onSched_coil (f : Sched → Sched) (s : State) : (s.onSched f).coil = s.coil := rfl
@[simp] theorem State.onSched_ccnt (f : Sched → Sched) (s : State) : (s.onSched f).ccnt = s.ccnt := rfl
@[simp] theorem State.onSched_ep (f : Sched → Sched) (s : State) : (s.onSched f).ep = s.ep := rfl
@[simp] theorem State.onSched_cfg (f : Sched → Sched) (s : State) : (s.onSched f).cfg = s.cfg := rfl
@[simp] theorem State.onSched_msix (f : Sched → Sched) (s : State) : (s.onSched f).msix = s.msix := rfl
@[simp] theorem State.onSched_pw (f : Sched → Sched) (s : State) : (s.onSched f).pw = s.pw := rfl
@[simp] theorem State.onSched_nvme (f : Sched → Sched) (s : State) : (s.onSched f).nvme = s.nvme := rfl
@[simp] theorem State.onSched_ncnt (f : Sched → Sched) (s : State) : (s.onSched f).ncnt = s.ncnt := rfl
@[simp] theorem State.onSched_mci (f : Sched → Sched) (s : State) : (s.onSched f).mci = s.mci := rfl
@[simp] theorem State.onSched_kc (f : Sched → Sched) (s : State) : (s.onSched f).kc = s.kc := rfl
@[simp] theorem State.onSched_fc (f : Sched → Sched) (s : State) : (s.onSched f).fc = s.fc := rfl
@[simp] theorem State.onSched_klog (f : Sched → Sched) (s : State) : (s.onSched f).klog = s.klog := rfl
@[simp] theorem State.onSched_sec (f : Sched → Sched) (s : State) : (s.onSched f).sec = s.sec := rfl
@[simp] theorem State.onSched_tst (f : Sched → Sched) (s : State) : (s.onSched f).tst = s.tst := rfl
@[simp] theorem State.onSched_out (f : Sched → Sched) (s : State) : (s.onSched f).out = s.out := rfl
@[simp] theorem State.onSched_free (f : Sched → Sched) (s : State) : (s.onSched f).free = s.free := rfl
@[simp] theorem State.onSched_pending (f : Sched → Sched) (s : State) : (s.onSched f).pending = s.pending := rfl

/-! ### `onDev` -/
@[simp] theorem State.onDev_hw (f : DevStatus → DevStatus) (s : State) : (s.onDev f).hw = s.hw := rfl
@[simp] theorem State.onDev_pins (f : DevStatus → DevStatus) (s : State) : (s.onDev f).pins = s.pins := rfl
@[simp] theorem State.onDev_clk (f : DevStatus → DevStatus) (s : State) : (s.onDev f).clk = s.clk := rfl
@[simp] theorem State.onDev_sched (f : DevStatus → DevStatus) (s : State) : (s.onDev f).sched = s.sched := rfl
@[simp] theorem State.onDev_dev (f : DevStatus → DevStatus) (s : State) : (s.onDev f).dev = f s.dev := rfl
@[simp] theorem State.onDev_sag (f : DevStatus → DevStatus) (s : State) : (s.onDev f).sag = s.sag := rfl
@[simp] theorem State.onDev_vault (f : DevStatus → DevStatus) (s : State) : (s.onDev f).vault = s.vault := rfl
@[simp] theorem State.onDev_arr (f : DevStatus → DevStatus) (s : State) : (s.onDev f).arr = s.arr := rfl
@[simp] theorem State.onDev_pol (f : DevStatus → DevStatus) (s : State) : (s.onDev f).pol = s.pol := rfl
@[simp] theorem State.onDev_polNext (f : DevStatus → DevStatus) (s : State) : (s.onDev f).polNext = s.polNext := rfl
@[simp] theorem State.onDev_twin (f : DevStatus → DevStatus) (s : State) : (s.onDev f).twin = s.twin := rfl
@[simp] theorem State.onDev_tpol (f : DevStatus → DevStatus) (s : State) : (s.onDev f).tpol = s.tpol := rfl
@[simp] theorem State.onDev_tpolNext (f : DevStatus → DevStatus) (s : State) : (s.onDev f).tpolNext = s.tpolNext := rfl
@[simp] theorem State.onDev_coil (f : DevStatus → DevStatus) (s : State) : (s.onDev f).coil = s.coil := rfl
@[simp] theorem State.onDev_ccnt (f : DevStatus → DevStatus) (s : State) : (s.onDev f).ccnt = s.ccnt := rfl
@[simp] theorem State.onDev_ep (f : DevStatus → DevStatus) (s : State) : (s.onDev f).ep = s.ep := rfl
@[simp] theorem State.onDev_cfg (f : DevStatus → DevStatus) (s : State) : (s.onDev f).cfg = s.cfg := rfl
@[simp] theorem State.onDev_msix (f : DevStatus → DevStatus) (s : State) : (s.onDev f).msix = s.msix := rfl
@[simp] theorem State.onDev_pw (f : DevStatus → DevStatus) (s : State) : (s.onDev f).pw = s.pw := rfl
@[simp] theorem State.onDev_nvme (f : DevStatus → DevStatus) (s : State) : (s.onDev f).nvme = s.nvme := rfl
@[simp] theorem State.onDev_ncnt (f : DevStatus → DevStatus) (s : State) : (s.onDev f).ncnt = s.ncnt := rfl
@[simp] theorem State.onDev_mci (f : DevStatus → DevStatus) (s : State) : (s.onDev f).mci = s.mci := rfl
@[simp] theorem State.onDev_kc (f : DevStatus → DevStatus) (s : State) : (s.onDev f).kc = s.kc := rfl
@[simp] theorem State.onDev_fc (f : DevStatus → DevStatus) (s : State) : (s.onDev f).fc = s.fc := rfl
@[simp] theorem State.onDev_klog (f : DevStatus → DevStatus) (s : State) : (s.onDev f).klog = s.klog := rfl
@[simp] theorem State.onDev_sec (f : DevStatus → DevStatus) (s : State) : (s.onDev f).sec = s.sec := rfl
@[simp] theorem State.onDev_tst (f : DevStatus → DevStatus) (s : State) : (s.onDev f).tst = s.tst := rfl
@[simp] theorem State.onDev_out (f : DevStatus → DevStatus) (s : State) : (s.onDev f).out = s.out := rfl
@[simp] theorem State.onDev_free (f : DevStatus → DevStatus) (s : State) : (s.onDev f).free = s.free := rfl
@[simp] theorem State.onDev_pending (f : DevStatus → DevStatus) (s : State) : (s.onDev f).pending = s.pending := rfl

/-! ### `onSag` -/
@[simp] theorem State.onSag_hw (f : Saggar → Saggar) (s : State) : (s.onSag f).hw = s.hw := rfl
@[simp] theorem State.onSag_pins (f : Saggar → Saggar) (s : State) : (s.onSag f).pins = s.pins := rfl
@[simp] theorem State.onSag_clk (f : Saggar → Saggar) (s : State) : (s.onSag f).clk = s.clk := rfl
@[simp] theorem State.onSag_sched (f : Saggar → Saggar) (s : State) : (s.onSag f).sched = s.sched := rfl
@[simp] theorem State.onSag_dev (f : Saggar → Saggar) (s : State) : (s.onSag f).dev = s.dev := rfl
@[simp] theorem State.onSag_sag (f : Saggar → Saggar) (s : State) : (s.onSag f).sag = f s.sag := rfl
@[simp] theorem State.onSag_vault (f : Saggar → Saggar) (s : State) : (s.onSag f).vault = s.vault := rfl
@[simp] theorem State.onSag_arr (f : Saggar → Saggar) (s : State) : (s.onSag f).arr = s.arr := rfl
@[simp] theorem State.onSag_pol (f : Saggar → Saggar) (s : State) : (s.onSag f).pol = s.pol := rfl
@[simp] theorem State.onSag_polNext (f : Saggar → Saggar) (s : State) : (s.onSag f).polNext = s.polNext := rfl
@[simp] theorem State.onSag_twin (f : Saggar → Saggar) (s : State) : (s.onSag f).twin = s.twin := rfl
@[simp] theorem State.onSag_tpol (f : Saggar → Saggar) (s : State) : (s.onSag f).tpol = s.tpol := rfl
@[simp] theorem State.onSag_tpolNext (f : Saggar → Saggar) (s : State) : (s.onSag f).tpolNext = s.tpolNext := rfl
@[simp] theorem State.onSag_coil (f : Saggar → Saggar) (s : State) : (s.onSag f).coil = s.coil := rfl
@[simp] theorem State.onSag_ccnt (f : Saggar → Saggar) (s : State) : (s.onSag f).ccnt = s.ccnt := rfl
@[simp] theorem State.onSag_ep (f : Saggar → Saggar) (s : State) : (s.onSag f).ep = s.ep := rfl
@[simp] theorem State.onSag_cfg (f : Saggar → Saggar) (s : State) : (s.onSag f).cfg = s.cfg := rfl
@[simp] theorem State.onSag_msix (f : Saggar → Saggar) (s : State) : (s.onSag f).msix = s.msix := rfl
@[simp] theorem State.onSag_pw (f : Saggar → Saggar) (s : State) : (s.onSag f).pw = s.pw := rfl
@[simp] theorem State.onSag_nvme (f : Saggar → Saggar) (s : State) : (s.onSag f).nvme = s.nvme := rfl
@[simp] theorem State.onSag_ncnt (f : Saggar → Saggar) (s : State) : (s.onSag f).ncnt = s.ncnt := rfl
@[simp] theorem State.onSag_mci (f : Saggar → Saggar) (s : State) : (s.onSag f).mci = s.mci := rfl
@[simp] theorem State.onSag_kc (f : Saggar → Saggar) (s : State) : (s.onSag f).kc = s.kc := rfl
@[simp] theorem State.onSag_fc (f : Saggar → Saggar) (s : State) : (s.onSag f).fc = s.fc := rfl
@[simp] theorem State.onSag_klog (f : Saggar → Saggar) (s : State) : (s.onSag f).klog = s.klog := rfl
@[simp] theorem State.onSag_sec (f : Saggar → Saggar) (s : State) : (s.onSag f).sec = s.sec := rfl
@[simp] theorem State.onSag_tst (f : Saggar → Saggar) (s : State) : (s.onSag f).tst = s.tst := rfl
@[simp] theorem State.onSag_out (f : Saggar → Saggar) (s : State) : (s.onSag f).out = s.out := rfl
@[simp] theorem State.onSag_free (f : Saggar → Saggar) (s : State) : (s.onSag f).free = s.free := rfl
@[simp] theorem State.onSag_pending (f : Saggar → Saggar) (s : State) : (s.onSag f).pending = s.pending := rfl

/-! ### `onVault` -/
@[simp] theorem State.onVault_hw (f : Vault → Vault) (s : State) : (s.onVault f).hw = s.hw := rfl
@[simp] theorem State.onVault_pins (f : Vault → Vault) (s : State) : (s.onVault f).pins = s.pins := rfl
@[simp] theorem State.onVault_clk (f : Vault → Vault) (s : State) : (s.onVault f).clk = s.clk := rfl
@[simp] theorem State.onVault_sched (f : Vault → Vault) (s : State) : (s.onVault f).sched = s.sched := rfl
@[simp] theorem State.onVault_dev (f : Vault → Vault) (s : State) : (s.onVault f).dev = s.dev := rfl
@[simp] theorem State.onVault_sag (f : Vault → Vault) (s : State) : (s.onVault f).sag = s.sag := rfl
@[simp] theorem State.onVault_vault (f : Vault → Vault) (s : State) : (s.onVault f).vault = f s.vault := rfl
@[simp] theorem State.onVault_arr (f : Vault → Vault) (s : State) : (s.onVault f).arr = s.arr := rfl
@[simp] theorem State.onVault_pol (f : Vault → Vault) (s : State) : (s.onVault f).pol = s.pol := rfl
@[simp] theorem State.onVault_polNext (f : Vault → Vault) (s : State) : (s.onVault f).polNext = s.polNext := rfl
@[simp] theorem State.onVault_twin (f : Vault → Vault) (s : State) : (s.onVault f).twin = s.twin := rfl
@[simp] theorem State.onVault_tpol (f : Vault → Vault) (s : State) : (s.onVault f).tpol = s.tpol := rfl
@[simp] theorem State.onVault_tpolNext (f : Vault → Vault) (s : State) : (s.onVault f).tpolNext = s.tpolNext := rfl
@[simp] theorem State.onVault_coil (f : Vault → Vault) (s : State) : (s.onVault f).coil = s.coil := rfl
@[simp] theorem State.onVault_ccnt (f : Vault → Vault) (s : State) : (s.onVault f).ccnt = s.ccnt := rfl
@[simp] theorem State.onVault_ep (f : Vault → Vault) (s : State) : (s.onVault f).ep = s.ep := rfl
@[simp] theorem State.onVault_cfg (f : Vault → Vault) (s : State) : (s.onVault f).cfg = s.cfg := rfl
@[simp] theorem State.onVault_msix (f : Vault → Vault) (s : State) : (s.onVault f).msix = s.msix := rfl
@[simp] theorem State.onVault_pw (f : Vault → Vault) (s : State) : (s.onVault f).pw = s.pw := rfl
@[simp] theorem State.onVault_nvme (f : Vault → Vault) (s : State) : (s.onVault f).nvme = s.nvme := rfl
@[simp] theorem State.onVault_ncnt (f : Vault → Vault) (s : State) : (s.onVault f).ncnt = s.ncnt := rfl
@[simp] theorem State.onVault_mci (f : Vault → Vault) (s : State) : (s.onVault f).mci = s.mci := rfl
@[simp] theorem State.onVault_kc (f : Vault → Vault) (s : State) : (s.onVault f).kc = s.kc := rfl
@[simp] theorem State.onVault_fc (f : Vault → Vault) (s : State) : (s.onVault f).fc = s.fc := rfl
@[simp] theorem State.onVault_klog (f : Vault → Vault) (s : State) : (s.onVault f).klog = s.klog := rfl
@[simp] theorem State.onVault_sec (f : Vault → Vault) (s : State) : (s.onVault f).sec = s.sec := rfl
@[simp] theorem State.onVault_tst (f : Vault → Vault) (s : State) : (s.onVault f).tst = s.tst := rfl
@[simp] theorem State.onVault_out (f : Vault → Vault) (s : State) : (s.onVault f).out = s.out := rfl
@[simp] theorem State.onVault_free (f : Vault → Vault) (s : State) : (s.onVault f).free = s.free := rfl
@[simp] theorem State.onVault_pending (f : Vault → Vault) (s : State) : (s.onVault f).pending = s.pending := rfl

/-! ### `onArr` -/
@[simp] theorem State.onArr_hw (f : Arrays → Arrays) (s : State) : (s.onArr f).hw = s.hw := rfl
@[simp] theorem State.onArr_pins (f : Arrays → Arrays) (s : State) : (s.onArr f).pins = s.pins := rfl
@[simp] theorem State.onArr_clk (f : Arrays → Arrays) (s : State) : (s.onArr f).clk = s.clk := rfl
@[simp] theorem State.onArr_sched (f : Arrays → Arrays) (s : State) : (s.onArr f).sched = s.sched := rfl
@[simp] theorem State.onArr_dev (f : Arrays → Arrays) (s : State) : (s.onArr f).dev = s.dev := rfl
@[simp] theorem State.onArr_sag (f : Arrays → Arrays) (s : State) : (s.onArr f).sag = s.sag := rfl
@[simp] theorem State.onArr_vault (f : Arrays → Arrays) (s : State) : (s.onArr f).vault = s.vault := rfl
@[simp] theorem State.onArr_arr (f : Arrays → Arrays) (s : State) : (s.onArr f).arr = f s.arr := rfl
@[simp] theorem State.onArr_pol (f : Arrays → Arrays) (s : State) : (s.onArr f).pol = s.pol := rfl
@[simp] theorem State.onArr_polNext (f : Arrays → Arrays) (s : State) : (s.onArr f).polNext = s.polNext := rfl
@[simp] theorem State.onArr_twin (f : Arrays → Arrays) (s : State) : (s.onArr f).twin = s.twin := rfl
@[simp] theorem State.onArr_tpol (f : Arrays → Arrays) (s : State) : (s.onArr f).tpol = s.tpol := rfl
@[simp] theorem State.onArr_tpolNext (f : Arrays → Arrays) (s : State) : (s.onArr f).tpolNext = s.tpolNext := rfl
@[simp] theorem State.onArr_coil (f : Arrays → Arrays) (s : State) : (s.onArr f).coil = s.coil := rfl
@[simp] theorem State.onArr_ccnt (f : Arrays → Arrays) (s : State) : (s.onArr f).ccnt = s.ccnt := rfl
@[simp] theorem State.onArr_ep (f : Arrays → Arrays) (s : State) : (s.onArr f).ep = s.ep := rfl
@[simp] theorem State.onArr_cfg (f : Arrays → Arrays) (s : State) : (s.onArr f).cfg = s.cfg := rfl
@[simp] theorem State.onArr_msix (f : Arrays → Arrays) (s : State) : (s.onArr f).msix = s.msix := rfl
@[simp] theorem State.onArr_pw (f : Arrays → Arrays) (s : State) : (s.onArr f).pw = s.pw := rfl
@[simp] theorem State.onArr_nvme (f : Arrays → Arrays) (s : State) : (s.onArr f).nvme = s.nvme := rfl
@[simp] theorem State.onArr_ncnt (f : Arrays → Arrays) (s : State) : (s.onArr f).ncnt = s.ncnt := rfl
@[simp] theorem State.onArr_mci (f : Arrays → Arrays) (s : State) : (s.onArr f).mci = s.mci := rfl
@[simp] theorem State.onArr_kc (f : Arrays → Arrays) (s : State) : (s.onArr f).kc = s.kc := rfl
@[simp] theorem State.onArr_fc (f : Arrays → Arrays) (s : State) : (s.onArr f).fc = s.fc := rfl
@[simp] theorem State.onArr_klog (f : Arrays → Arrays) (s : State) : (s.onArr f).klog = s.klog := rfl
@[simp] theorem State.onArr_sec (f : Arrays → Arrays) (s : State) : (s.onArr f).sec = s.sec := rfl
@[simp] theorem State.onArr_tst (f : Arrays → Arrays) (s : State) : (s.onArr f).tst = s.tst := rfl
@[simp] theorem State.onArr_out (f : Arrays → Arrays) (s : State) : (s.onArr f).out = s.out := rfl
@[simp] theorem State.onArr_free (f : Arrays → Arrays) (s : State) : (s.onArr f).free = s.free := rfl
@[simp] theorem State.onArr_pending (f : Arrays → Arrays) (s : State) : (s.onArr f).pending = s.pending := rfl

/-! ### `onTwin` -/
@[simp] theorem State.onTwin_hw (f : Twin → Twin) (s : State) : (s.onTwin f).hw = s.hw := rfl
@[simp] theorem State.onTwin_pins (f : Twin → Twin) (s : State) : (s.onTwin f).pins = s.pins := rfl
@[simp] theorem State.onTwin_clk (f : Twin → Twin) (s : State) : (s.onTwin f).clk = s.clk := rfl
@[simp] theorem State.onTwin_sched (f : Twin → Twin) (s : State) : (s.onTwin f).sched = s.sched := rfl
@[simp] theorem State.onTwin_dev (f : Twin → Twin) (s : State) : (s.onTwin f).dev = s.dev := rfl
@[simp] theorem State.onTwin_sag (f : Twin → Twin) (s : State) : (s.onTwin f).sag = s.sag := rfl
@[simp] theorem State.onTwin_vault (f : Twin → Twin) (s : State) : (s.onTwin f).vault = s.vault := rfl
@[simp] theorem State.onTwin_arr (f : Twin → Twin) (s : State) : (s.onTwin f).arr = s.arr := rfl
@[simp] theorem State.onTwin_pol (f : Twin → Twin) (s : State) : (s.onTwin f).pol = s.pol := rfl
@[simp] theorem State.onTwin_polNext (f : Twin → Twin) (s : State) : (s.onTwin f).polNext = s.polNext := rfl
@[simp] theorem State.onTwin_twin (f : Twin → Twin) (s : State) : (s.onTwin f).twin = f s.twin := rfl
@[simp] theorem State.onTwin_tpol (f : Twin → Twin) (s : State) : (s.onTwin f).tpol = s.tpol := rfl
@[simp] theorem State.onTwin_tpolNext (f : Twin → Twin) (s : State) : (s.onTwin f).tpolNext = s.tpolNext := rfl
@[simp] theorem State.onTwin_coil (f : Twin → Twin) (s : State) : (s.onTwin f).coil = s.coil := rfl
@[simp] theorem State.onTwin_ccnt (f : Twin → Twin) (s : State) : (s.onTwin f).ccnt = s.ccnt := rfl
@[simp] theorem State.onTwin_ep (f : Twin → Twin) (s : State) : (s.onTwin f).ep = s.ep := rfl
@[simp] theorem State.onTwin_cfg (f : Twin → Twin) (s : State) : (s.onTwin f).cfg = s.cfg := rfl
@[simp] theorem State.onTwin_msix (f : Twin → Twin) (s : State) : (s.onTwin f).msix = s.msix := rfl
@[simp] theorem State.onTwin_pw (f : Twin → Twin) (s : State) : (s.onTwin f).pw = s.pw := rfl
@[simp] theorem State.onTwin_nvme (f : Twin → Twin) (s : State) : (s.onTwin f).nvme = s.nvme := rfl
@[simp] theorem State.onTwin_ncnt (f : Twin → Twin) (s : State) : (s.onTwin f).ncnt = s.ncnt := rfl
@[simp] theorem State.onTwin_mci (f : Twin → Twin) (s : State) : (s.onTwin f).mci = s.mci := rfl
@[simp] theorem State.onTwin_kc (f : Twin → Twin) (s : State) : (s.onTwin f).kc = s.kc := rfl
@[simp] theorem State.onTwin_fc (f : Twin → Twin) (s : State) : (s.onTwin f).fc = s.fc := rfl
@[simp] theorem State.onTwin_klog (f : Twin → Twin) (s : State) : (s.onTwin f).klog = s.klog := rfl
@[simp] theorem State.onTwin_sec (f : Twin → Twin) (s : State) : (s.onTwin f).sec = s.sec := rfl
@[simp] theorem State.onTwin_tst (f : Twin → Twin) (s : State) : (s.onTwin f).tst = s.tst := rfl
@[simp] theorem State.onTwin_out (f : Twin → Twin) (s : State) : (s.onTwin f).out = s.out := rfl
@[simp] theorem State.onTwin_free (f : Twin → Twin) (s : State) : (s.onTwin f).free = s.free := rfl
@[simp] theorem State.onTwin_pending (f : Twin → Twin) (s : State) : (s.onTwin f).pending = s.pending := rfl

/-! ### `onCoil` -/
@[simp] theorem State.onCoil_hw (f : Coil → Coil) (s : State) : (s.onCoil f).hw = s.hw := rfl
@[simp] theorem State.onCoil_pins (f : Coil → Coil) (s : State) : (s.onCoil f).pins = s.pins := rfl
@[simp] theorem State.onCoil_clk (f : Coil → Coil) (s : State) : (s.onCoil f).clk = s.clk := rfl
@[simp] theorem State.onCoil_sched (f : Coil → Coil) (s : State) : (s.onCoil f).sched = s.sched := rfl
@[simp] theorem State.onCoil_dev (f : Coil → Coil) (s : State) : (s.onCoil f).dev = s.dev := rfl
@[simp] theorem State.onCoil_sag (f : Coil → Coil) (s : State) : (s.onCoil f).sag = s.sag := rfl
@[simp] theorem State.onCoil_vault (f : Coil → Coil) (s : State) : (s.onCoil f).vault = s.vault := rfl
@[simp] theorem State.onCoil_arr (f : Coil → Coil) (s : State) : (s.onCoil f).arr = s.arr := rfl
@[simp] theorem State.onCoil_pol (f : Coil → Coil) (s : State) : (s.onCoil f).pol = s.pol := rfl
@[simp] theorem State.onCoil_polNext (f : Coil → Coil) (s : State) : (s.onCoil f).polNext = s.polNext := rfl
@[simp] theorem State.onCoil_twin (f : Coil → Coil) (s : State) : (s.onCoil f).twin = s.twin := rfl
@[simp] theorem State.onCoil_tpol (f : Coil → Coil) (s : State) : (s.onCoil f).tpol = s.tpol := rfl
@[simp] theorem State.onCoil_tpolNext (f : Coil → Coil) (s : State) : (s.onCoil f).tpolNext = s.tpolNext := rfl
@[simp] theorem State.onCoil_coil (f : Coil → Coil) (s : State) : (s.onCoil f).coil = f s.coil := rfl
@[simp] theorem State.onCoil_ccnt (f : Coil → Coil) (s : State) : (s.onCoil f).ccnt = s.ccnt := rfl
@[simp] theorem State.onCoil_ep (f : Coil → Coil) (s : State) : (s.onCoil f).ep = s.ep := rfl
@[simp] theorem State.onCoil_cfg (f : Coil → Coil) (s : State) : (s.onCoil f).cfg = s.cfg := rfl
@[simp] theorem State.onCoil_msix (f : Coil → Coil) (s : State) : (s.onCoil f).msix = s.msix := rfl
@[simp] theorem State.onCoil_pw (f : Coil → Coil) (s : State) : (s.onCoil f).pw = s.pw := rfl
@[simp] theorem State.onCoil_nvme (f : Coil → Coil) (s : State) : (s.onCoil f).nvme = s.nvme := rfl
@[simp] theorem State.onCoil_ncnt (f : Coil → Coil) (s : State) : (s.onCoil f).ncnt = s.ncnt := rfl
@[simp] theorem State.onCoil_mci (f : Coil → Coil) (s : State) : (s.onCoil f).mci = s.mci := rfl
@[simp] theorem State.onCoil_kc (f : Coil → Coil) (s : State) : (s.onCoil f).kc = s.kc := rfl
@[simp] theorem State.onCoil_fc (f : Coil → Coil) (s : State) : (s.onCoil f).fc = s.fc := rfl
@[simp] theorem State.onCoil_klog (f : Coil → Coil) (s : State) : (s.onCoil f).klog = s.klog := rfl
@[simp] theorem State.onCoil_sec (f : Coil → Coil) (s : State) : (s.onCoil f).sec = s.sec := rfl
@[simp] theorem State.onCoil_tst (f : Coil → Coil) (s : State) : (s.onCoil f).tst = s.tst := rfl
@[simp] theorem State.onCoil_out (f : Coil → Coil) (s : State) : (s.onCoil f).out = s.out := rfl
@[simp] theorem State.onCoil_free (f : Coil → Coil) (s : State) : (s.onCoil f).free = s.free := rfl
@[simp] theorem State.onCoil_pending (f : Coil → Coil) (s : State) : (s.onCoil f).pending = s.pending := rfl

/-! ### `onCcnt` -/
@[simp] theorem State.onCcnt_hw (f : CoilCnt → CoilCnt) (s : State) : (s.onCcnt f).hw = s.hw := rfl
@[simp] theorem State.onCcnt_pins (f : CoilCnt → CoilCnt) (s : State) : (s.onCcnt f).pins = s.pins := rfl
@[simp] theorem State.onCcnt_clk (f : CoilCnt → CoilCnt) (s : State) : (s.onCcnt f).clk = s.clk := rfl
@[simp] theorem State.onCcnt_sched (f : CoilCnt → CoilCnt) (s : State) : (s.onCcnt f).sched = s.sched := rfl
@[simp] theorem State.onCcnt_dev (f : CoilCnt → CoilCnt) (s : State) : (s.onCcnt f).dev = s.dev := rfl
@[simp] theorem State.onCcnt_sag (f : CoilCnt → CoilCnt) (s : State) : (s.onCcnt f).sag = s.sag := rfl
@[simp] theorem State.onCcnt_vault (f : CoilCnt → CoilCnt) (s : State) : (s.onCcnt f).vault = s.vault := rfl
@[simp] theorem State.onCcnt_arr (f : CoilCnt → CoilCnt) (s : State) : (s.onCcnt f).arr = s.arr := rfl
@[simp] theorem State.onCcnt_pol (f : CoilCnt → CoilCnt) (s : State) : (s.onCcnt f).pol = s.pol := rfl
@[simp] theorem State.onCcnt_polNext (f : CoilCnt → CoilCnt) (s : State) : (s.onCcnt f).polNext = s.polNext := rfl
@[simp] theorem State.onCcnt_twin (f : CoilCnt → CoilCnt) (s : State) : (s.onCcnt f).twin = s.twin := rfl
@[simp] theorem State.onCcnt_tpol (f : CoilCnt → CoilCnt) (s : State) : (s.onCcnt f).tpol = s.tpol := rfl
@[simp] theorem State.onCcnt_tpolNext (f : CoilCnt → CoilCnt) (s : State) : (s.onCcnt f).tpolNext = s.tpolNext := rfl
@[simp] theorem State.onCcnt_coil (f : CoilCnt → CoilCnt) (s : State) : (s.onCcnt f).coil = s.coil := rfl
@[simp] theorem State.onCcnt_ccnt (f : CoilCnt → CoilCnt) (s : State) : (s.onCcnt f).ccnt = f s.ccnt := rfl
@[simp] theorem State.onCcnt_ep (f : CoilCnt → CoilCnt) (s : State) : (s.onCcnt f).ep = s.ep := rfl
@[simp] theorem State.onCcnt_cfg (f : CoilCnt → CoilCnt) (s : State) : (s.onCcnt f).cfg = s.cfg := rfl
@[simp] theorem State.onCcnt_msix (f : CoilCnt → CoilCnt) (s : State) : (s.onCcnt f).msix = s.msix := rfl
@[simp] theorem State.onCcnt_pw (f : CoilCnt → CoilCnt) (s : State) : (s.onCcnt f).pw = s.pw := rfl
@[simp] theorem State.onCcnt_nvme (f : CoilCnt → CoilCnt) (s : State) : (s.onCcnt f).nvme = s.nvme := rfl
@[simp] theorem State.onCcnt_ncnt (f : CoilCnt → CoilCnt) (s : State) : (s.onCcnt f).ncnt = s.ncnt := rfl
@[simp] theorem State.onCcnt_mci (f : CoilCnt → CoilCnt) (s : State) : (s.onCcnt f).mci = s.mci := rfl
@[simp] theorem State.onCcnt_kc (f : CoilCnt → CoilCnt) (s : State) : (s.onCcnt f).kc = s.kc := rfl
@[simp] theorem State.onCcnt_fc (f : CoilCnt → CoilCnt) (s : State) : (s.onCcnt f).fc = s.fc := rfl
@[simp] theorem State.onCcnt_klog (f : CoilCnt → CoilCnt) (s : State) : (s.onCcnt f).klog = s.klog := rfl
@[simp] theorem State.onCcnt_sec (f : CoilCnt → CoilCnt) (s : State) : (s.onCcnt f).sec = s.sec := rfl
@[simp] theorem State.onCcnt_tst (f : CoilCnt → CoilCnt) (s : State) : (s.onCcnt f).tst = s.tst := rfl
@[simp] theorem State.onCcnt_out (f : CoilCnt → CoilCnt) (s : State) : (s.onCcnt f).out = s.out := rfl
@[simp] theorem State.onCcnt_free (f : CoilCnt → CoilCnt) (s : State) : (s.onCcnt f).free = s.free := rfl
@[simp] theorem State.onCcnt_pending (f : CoilCnt → CoilCnt) (s : State) : (s.onCcnt f).pending = s.pending := rfl

/-! ### `onEp` -/
@[simp] theorem State.onEp_hw (f : Ep → Ep) (s : State) : (s.onEp f).hw = s.hw := rfl
@[simp] theorem State.onEp_pins (f : Ep → Ep) (s : State) : (s.onEp f).pins = s.pins := rfl
@[simp] theorem State.onEp_clk (f : Ep → Ep) (s : State) : (s.onEp f).clk = s.clk := rfl
@[simp] theorem State.onEp_sched (f : Ep → Ep) (s : State) : (s.onEp f).sched = s.sched := rfl
@[simp] theorem State.onEp_dev (f : Ep → Ep) (s : State) : (s.onEp f).dev = s.dev := rfl
@[simp] theorem State.onEp_sag (f : Ep → Ep) (s : State) : (s.onEp f).sag = s.sag := rfl
@[simp] theorem State.onEp_vault (f : Ep → Ep) (s : State) : (s.onEp f).vault = s.vault := rfl
@[simp] theorem State.onEp_arr (f : Ep → Ep) (s : State) : (s.onEp f).arr = s.arr := rfl
@[simp] theorem State.onEp_pol (f : Ep → Ep) (s : State) : (s.onEp f).pol = s.pol := rfl
@[simp] theorem State.onEp_polNext (f : Ep → Ep) (s : State) : (s.onEp f).polNext = s.polNext := rfl
@[simp] theorem State.onEp_twin (f : Ep → Ep) (s : State) : (s.onEp f).twin = s.twin := rfl
@[simp] theorem State.onEp_tpol (f : Ep → Ep) (s : State) : (s.onEp f).tpol = s.tpol := rfl
@[simp] theorem State.onEp_tpolNext (f : Ep → Ep) (s : State) : (s.onEp f).tpolNext = s.tpolNext := rfl
@[simp] theorem State.onEp_coil (f : Ep → Ep) (s : State) : (s.onEp f).coil = s.coil := rfl
@[simp] theorem State.onEp_ccnt (f : Ep → Ep) (s : State) : (s.onEp f).ccnt = s.ccnt := rfl
@[simp] theorem State.onEp_ep (f : Ep → Ep) (s : State) : (s.onEp f).ep = f s.ep := rfl
@[simp] theorem State.onEp_cfg (f : Ep → Ep) (s : State) : (s.onEp f).cfg = s.cfg := rfl
@[simp] theorem State.onEp_msix (f : Ep → Ep) (s : State) : (s.onEp f).msix = s.msix := rfl
@[simp] theorem State.onEp_pw (f : Ep → Ep) (s : State) : (s.onEp f).pw = s.pw := rfl
@[simp] theorem State.onEp_nvme (f : Ep → Ep) (s : State) : (s.onEp f).nvme = s.nvme := rfl
@[simp] theorem State.onEp_ncnt (f : Ep → Ep) (s : State) : (s.onEp f).ncnt = s.ncnt := rfl
@[simp] theorem State.onEp_mci (f : Ep → Ep) (s : State) : (s.onEp f).mci = s.mci := rfl
@[simp] theorem State.onEp_kc (f : Ep → Ep) (s : State) : (s.onEp f).kc = s.kc := rfl
@[simp] theorem State.onEp_fc (f : Ep → Ep) (s : State) : (s.onEp f).fc = s.fc := rfl
@[simp] theorem State.onEp_klog (f : Ep → Ep) (s : State) : (s.onEp f).klog = s.klog := rfl
@[simp] theorem State.onEp_sec (f : Ep → Ep) (s : State) : (s.onEp f).sec = s.sec := rfl
@[simp] theorem State.onEp_tst (f : Ep → Ep) (s : State) : (s.onEp f).tst = s.tst := rfl
@[simp] theorem State.onEp_out (f : Ep → Ep) (s : State) : (s.onEp f).out = s.out := rfl
@[simp] theorem State.onEp_free (f : Ep → Ep) (s : State) : (s.onEp f).free = s.free := rfl
@[simp] theorem State.onEp_pending (f : Ep → Ep) (s : State) : (s.onEp f).pending = s.pending := rfl

/-! ### `onCfg` -/
@[simp] theorem State.onCfg_hw (f : Cfg → Cfg) (s : State) : (s.onCfg f).hw = s.hw := rfl
@[simp] theorem State.onCfg_pins (f : Cfg → Cfg) (s : State) : (s.onCfg f).pins = s.pins := rfl
@[simp] theorem State.onCfg_clk (f : Cfg → Cfg) (s : State) : (s.onCfg f).clk = s.clk := rfl
@[simp] theorem State.onCfg_sched (f : Cfg → Cfg) (s : State) : (s.onCfg f).sched = s.sched := rfl
@[simp] theorem State.onCfg_dev (f : Cfg → Cfg) (s : State) : (s.onCfg f).dev = s.dev := rfl
@[simp] theorem State.onCfg_sag (f : Cfg → Cfg) (s : State) : (s.onCfg f).sag = s.sag := rfl
@[simp] theorem State.onCfg_vault (f : Cfg → Cfg) (s : State) : (s.onCfg f).vault = s.vault := rfl
@[simp] theorem State.onCfg_arr (f : Cfg → Cfg) (s : State) : (s.onCfg f).arr = s.arr := rfl
@[simp] theorem State.onCfg_pol (f : Cfg → Cfg) (s : State) : (s.onCfg f).pol = s.pol := rfl
@[simp] theorem State.onCfg_polNext (f : Cfg → Cfg) (s : State) : (s.onCfg f).polNext = s.polNext := rfl
@[simp] theorem State.onCfg_twin (f : Cfg → Cfg) (s : State) : (s.onCfg f).twin = s.twin := rfl
@[simp] theorem State.onCfg_tpol (f : Cfg → Cfg) (s : State) : (s.onCfg f).tpol = s.tpol := rfl
@[simp] theorem State.onCfg_tpolNext (f : Cfg → Cfg) (s : State) : (s.onCfg f).tpolNext = s.tpolNext := rfl
@[simp] theorem State.onCfg_coil (f : Cfg → Cfg) (s : State) : (s.onCfg f).coil = s.coil := rfl
@[simp] theorem State.onCfg_ccnt (f : Cfg → Cfg) (s : State) : (s.onCfg f).ccnt = s.ccnt := rfl
@[simp] theorem State.onCfg_ep (f : Cfg → Cfg) (s : State) : (s.onCfg f).ep = s.ep := rfl
@[simp] theorem State.onCfg_cfg (f : Cfg → Cfg) (s : State) : (s.onCfg f).cfg = f s.cfg := rfl
@[simp] theorem State.onCfg_msix (f : Cfg → Cfg) (s : State) : (s.onCfg f).msix = s.msix := rfl
@[simp] theorem State.onCfg_pw (f : Cfg → Cfg) (s : State) : (s.onCfg f).pw = s.pw := rfl
@[simp] theorem State.onCfg_nvme (f : Cfg → Cfg) (s : State) : (s.onCfg f).nvme = s.nvme := rfl
@[simp] theorem State.onCfg_ncnt (f : Cfg → Cfg) (s : State) : (s.onCfg f).ncnt = s.ncnt := rfl
@[simp] theorem State.onCfg_mci (f : Cfg → Cfg) (s : State) : (s.onCfg f).mci = s.mci := rfl
@[simp] theorem State.onCfg_kc (f : Cfg → Cfg) (s : State) : (s.onCfg f).kc = s.kc := rfl
@[simp] theorem State.onCfg_fc (f : Cfg → Cfg) (s : State) : (s.onCfg f).fc = s.fc := rfl
@[simp] theorem State.onCfg_klog (f : Cfg → Cfg) (s : State) : (s.onCfg f).klog = s.klog := rfl
@[simp] theorem State.onCfg_sec (f : Cfg → Cfg) (s : State) : (s.onCfg f).sec = s.sec := rfl
@[simp] theorem State.onCfg_tst (f : Cfg → Cfg) (s : State) : (s.onCfg f).tst = s.tst := rfl
@[simp] theorem State.onCfg_out (f : Cfg → Cfg) (s : State) : (s.onCfg f).out = s.out := rfl
@[simp] theorem State.onCfg_free (f : Cfg → Cfg) (s : State) : (s.onCfg f).free = s.free := rfl
@[simp] theorem State.onCfg_pending (f : Cfg → Cfg) (s : State) : (s.onCfg f).pending = s.pending := rfl

/-! ### `onPw` -/
@[simp] theorem State.onPw_hw (f : Pw → Pw) (s : State) : (s.onPw f).hw = s.hw := rfl
@[simp] theorem State.onPw_pins (f : Pw → Pw) (s : State) : (s.onPw f).pins = s.pins := rfl
@[simp] theorem State.onPw_clk (f : Pw → Pw) (s : State) : (s.onPw f).clk = s.clk := rfl
@[simp] theorem State.onPw_sched (f : Pw → Pw) (s : State) : (s.onPw f).sched = s.sched := rfl
@[simp] theorem State.onPw_dev (f : Pw → Pw) (s : State) : (s.onPw f).dev = s.dev := rfl
@[simp] theorem State.onPw_sag (f : Pw → Pw) (s : State) : (s.onPw f).sag = s.sag := rfl
@[simp] theorem State.onPw_vault (f : Pw → Pw) (s : State) : (s.onPw f).vault = s.vault := rfl
@[simp] theorem State.onPw_arr (f : Pw → Pw) (s : State) : (s.onPw f).arr = s.arr := rfl
@[simp] theorem State.onPw_pol (f : Pw → Pw) (s : State) : (s.onPw f).pol = s.pol := rfl
@[simp] theorem State.onPw_polNext (f : Pw → Pw) (s : State) : (s.onPw f).polNext = s.polNext := rfl
@[simp] theorem State.onPw_twin (f : Pw → Pw) (s : State) : (s.onPw f).twin = s.twin := rfl
@[simp] theorem State.onPw_tpol (f : Pw → Pw) (s : State) : (s.onPw f).tpol = s.tpol := rfl
@[simp] theorem State.onPw_tpolNext (f : Pw → Pw) (s : State) : (s.onPw f).tpolNext = s.tpolNext := rfl
@[simp] theorem State.onPw_coil (f : Pw → Pw) (s : State) : (s.onPw f).coil = s.coil := rfl
@[simp] theorem State.onPw_ccnt (f : Pw → Pw) (s : State) : (s.onPw f).ccnt = s.ccnt := rfl
@[simp] theorem State.onPw_ep (f : Pw → Pw) (s : State) : (s.onPw f).ep = s.ep := rfl
@[simp] theorem State.onPw_cfg (f : Pw → Pw) (s : State) : (s.onPw f).cfg = s.cfg := rfl
@[simp] theorem State.onPw_msix (f : Pw → Pw) (s : State) : (s.onPw f).msix = s.msix := rfl
@[simp] theorem State.onPw_pw (f : Pw → Pw) (s : State) : (s.onPw f).pw = f s.pw := rfl
@[simp] theorem State.onPw_nvme (f : Pw → Pw) (s : State) : (s.onPw f).nvme = s.nvme := rfl
@[simp] theorem State.onPw_ncnt (f : Pw → Pw) (s : State) : (s.onPw f).ncnt = s.ncnt := rfl
@[simp] theorem State.onPw_mci (f : Pw → Pw) (s : State) : (s.onPw f).mci = s.mci := rfl
@[simp] theorem State.onPw_kc (f : Pw → Pw) (s : State) : (s.onPw f).kc = s.kc := rfl
@[simp] theorem State.onPw_fc (f : Pw → Pw) (s : State) : (s.onPw f).fc = s.fc := rfl
@[simp] theorem State.onPw_klog (f : Pw → Pw) (s : State) : (s.onPw f).klog = s.klog := rfl
@[simp] theorem State.onPw_sec (f : Pw → Pw) (s : State) : (s.onPw f).sec = s.sec := rfl
@[simp] theorem State.onPw_tst (f : Pw → Pw) (s : State) : (s.onPw f).tst = s.tst := rfl
@[simp] theorem State.onPw_out (f : Pw → Pw) (s : State) : (s.onPw f).out = s.out := rfl
@[simp] theorem State.onPw_free (f : Pw → Pw) (s : State) : (s.onPw f).free = s.free := rfl
@[simp] theorem State.onPw_pending (f : Pw → Pw) (s : State) : (s.onPw f).pending = s.pending := rfl

/-! ### `onNvme` -/
@[simp] theorem State.onNvme_hw (f : Nvme → Nvme) (s : State) : (s.onNvme f).hw = s.hw := rfl
@[simp] theorem State.onNvme_pins (f : Nvme → Nvme) (s : State) : (s.onNvme f).pins = s.pins := rfl
@[simp] theorem State.onNvme_clk (f : Nvme → Nvme) (s : State) : (s.onNvme f).clk = s.clk := rfl
@[simp] theorem State.onNvme_sched (f : Nvme → Nvme) (s : State) : (s.onNvme f).sched = s.sched := rfl
@[simp] theorem State.onNvme_dev (f : Nvme → Nvme) (s : State) : (s.onNvme f).dev = s.dev := rfl
@[simp] theorem State.onNvme_sag (f : Nvme → Nvme) (s : State) : (s.onNvme f).sag = s.sag := rfl
@[simp] theorem State.onNvme_vault (f : Nvme → Nvme) (s : State) : (s.onNvme f).vault = s.vault := rfl
@[simp] theorem State.onNvme_arr (f : Nvme → Nvme) (s : State) : (s.onNvme f).arr = s.arr := rfl
@[simp] theorem State.onNvme_pol (f : Nvme → Nvme) (s : State) : (s.onNvme f).pol = s.pol := rfl
@[simp] theorem State.onNvme_polNext (f : Nvme → Nvme) (s : State) : (s.onNvme f).polNext = s.polNext := rfl
@[simp] theorem State.onNvme_twin (f : Nvme → Nvme) (s : State) : (s.onNvme f).twin = s.twin := rfl
@[simp] theorem State.onNvme_tpol (f : Nvme → Nvme) (s : State) : (s.onNvme f).tpol = s.tpol := rfl
@[simp] theorem State.onNvme_tpolNext (f : Nvme → Nvme) (s : State) : (s.onNvme f).tpolNext = s.tpolNext := rfl
@[simp] theorem State.onNvme_coil (f : Nvme → Nvme) (s : State) : (s.onNvme f).coil = s.coil := rfl
@[simp] theorem State.onNvme_ccnt (f : Nvme → Nvme) (s : State) : (s.onNvme f).ccnt = s.ccnt := rfl
@[simp] theorem State.onNvme_ep (f : Nvme → Nvme) (s : State) : (s.onNvme f).ep = s.ep := rfl
@[simp] theorem State.onNvme_cfg (f : Nvme → Nvme) (s : State) : (s.onNvme f).cfg = s.cfg := rfl
@[simp] theorem State.onNvme_msix (f : Nvme → Nvme) (s : State) : (s.onNvme f).msix = s.msix := rfl
@[simp] theorem State.onNvme_pw (f : Nvme → Nvme) (s : State) : (s.onNvme f).pw = s.pw := rfl
@[simp] theorem State.onNvme_nvme (f : Nvme → Nvme) (s : State) : (s.onNvme f).nvme = f s.nvme := rfl
@[simp] theorem State.onNvme_ncnt (f : Nvme → Nvme) (s : State) : (s.onNvme f).ncnt = s.ncnt := rfl
@[simp] theorem State.onNvme_mci (f : Nvme → Nvme) (s : State) : (s.onNvme f).mci = s.mci := rfl
@[simp] theorem State.onNvme_kc (f : Nvme → Nvme) (s : State) : (s.onNvme f).kc = s.kc := rfl
@[simp] theorem State.onNvme_fc (f : Nvme → Nvme) (s : State) : (s.onNvme f).fc = s.fc := rfl
@[simp] theorem State.onNvme_klog (f : Nvme → Nvme) (s : State) : (s.onNvme f).klog = s.klog := rfl
@[simp] theorem State.onNvme_sec (f : Nvme → Nvme) (s : State) : (s.onNvme f).sec = s.sec := rfl
@[simp] theorem State.onNvme_tst (f : Nvme → Nvme) (s : State) : (s.onNvme f).tst = s.tst := rfl
@[simp] theorem State.onNvme_out (f : Nvme → Nvme) (s : State) : (s.onNvme f).out = s.out := rfl
@[simp] theorem State.onNvme_free (f : Nvme → Nvme) (s : State) : (s.onNvme f).free = s.free := rfl
@[simp] theorem State.onNvme_pending (f : Nvme → Nvme) (s : State) : (s.onNvme f).pending = s.pending := rfl

/-! ### `onNcnt` -/
@[simp] theorem State.onNcnt_hw (f : NvmeCnt → NvmeCnt) (s : State) : (s.onNcnt f).hw = s.hw := rfl
@[simp] theorem State.onNcnt_pins (f : NvmeCnt → NvmeCnt) (s : State) : (s.onNcnt f).pins = s.pins := rfl
@[simp] theorem State.onNcnt_clk (f : NvmeCnt → NvmeCnt) (s : State) : (s.onNcnt f).clk = s.clk := rfl
@[simp] theorem State.onNcnt_sched (f : NvmeCnt → NvmeCnt) (s : State) : (s.onNcnt f).sched = s.sched := rfl
@[simp] theorem State.onNcnt_dev (f : NvmeCnt → NvmeCnt) (s : State) : (s.onNcnt f).dev = s.dev := rfl
@[simp] theorem State.onNcnt_sag (f : NvmeCnt → NvmeCnt) (s : State) : (s.onNcnt f).sag = s.sag := rfl
@[simp] theorem State.onNcnt_vault (f : NvmeCnt → NvmeCnt) (s : State) : (s.onNcnt f).vault = s.vault := rfl
@[simp] theorem State.onNcnt_arr (f : NvmeCnt → NvmeCnt) (s : State) : (s.onNcnt f).arr = s.arr := rfl
@[simp] theorem State.onNcnt_pol (f : NvmeCnt → NvmeCnt) (s : State) : (s.onNcnt f).pol = s.pol := rfl
@[simp] theorem State.onNcnt_polNext (f : NvmeCnt → NvmeCnt) (s : State) : (s.onNcnt f).polNext = s.polNext := rfl
@[simp] theorem State.onNcnt_twin (f : NvmeCnt → NvmeCnt) (s : State) : (s.onNcnt f).twin = s.twin := rfl
@[simp] theorem State.onNcnt_tpol (f : NvmeCnt → NvmeCnt) (s : State) : (s.onNcnt f).tpol = s.tpol := rfl
@[simp] theorem State.onNcnt_tpolNext (f : NvmeCnt → NvmeCnt) (s : State) : (s.onNcnt f).tpolNext = s.tpolNext := rfl
@[simp] theorem State.onNcnt_coil (f : NvmeCnt → NvmeCnt) (s : State) : (s.onNcnt f).coil = s.coil := rfl
@[simp] theorem State.onNcnt_ccnt (f : NvmeCnt → NvmeCnt) (s : State) : (s.onNcnt f).ccnt = s.ccnt := rfl
@[simp] theorem State.onNcnt_ep (f : NvmeCnt → NvmeCnt) (s : State) : (s.onNcnt f).ep = s.ep := rfl
@[simp] theorem State.onNcnt_cfg (f : NvmeCnt → NvmeCnt) (s : State) : (s.onNcnt f).cfg = s.cfg := rfl
@[simp] theorem State.onNcnt_msix (f : NvmeCnt → NvmeCnt) (s : State) : (s.onNcnt f).msix = s.msix := rfl
@[simp] theorem State.onNcnt_pw (f : NvmeCnt → NvmeCnt) (s : State) : (s.onNcnt f).pw = s.pw := rfl
@[simp] theorem State.onNcnt_nvme (f : NvmeCnt → NvmeCnt) (s : State) : (s.onNcnt f).nvme = s.nvme := rfl
@[simp] theorem State.onNcnt_ncnt (f : NvmeCnt → NvmeCnt) (s : State) : (s.onNcnt f).ncnt = f s.ncnt := rfl
@[simp] theorem State.onNcnt_mci (f : NvmeCnt → NvmeCnt) (s : State) : (s.onNcnt f).mci = s.mci := rfl
@[simp] theorem State.onNcnt_kc (f : NvmeCnt → NvmeCnt) (s : State) : (s.onNcnt f).kc = s.kc := rfl
@[simp] theorem State.onNcnt_fc (f : NvmeCnt → NvmeCnt) (s : State) : (s.onNcnt f).fc = s.fc := rfl
@[simp] theorem State.onNcnt_klog (f : NvmeCnt → NvmeCnt) (s : State) : (s.onNcnt f).klog = s.klog := rfl
@[simp] theorem State.onNcnt_sec (f : NvmeCnt → NvmeCnt) (s : State) : (s.onNcnt f).sec = s.sec := rfl
@[simp] theorem State.onNcnt_tst (f : NvmeCnt → NvmeCnt) (s : State) : (s.onNcnt f).tst = s.tst := rfl
@[simp] theorem State.onNcnt_out (f : NvmeCnt → NvmeCnt) (s : State) : (s.onNcnt f).out = s.out := rfl
@[simp] theorem State.onNcnt_free (f : NvmeCnt → NvmeCnt) (s : State) : (s.onNcnt f).free = s.free := rfl
@[simp] theorem State.onNcnt_pending (f : NvmeCnt → NvmeCnt) (s : State) : (s.onNcnt f).pending = s.pending := rfl

/-! ### `onMci` -/
@[simp] theorem State.onMci_hw (f : Mci → Mci) (s : State) : (s.onMci f).hw = s.hw := rfl
@[simp] theorem State.onMci_pins (f : Mci → Mci) (s : State) : (s.onMci f).pins = s.pins := rfl
@[simp] theorem State.onMci_clk (f : Mci → Mci) (s : State) : (s.onMci f).clk = s.clk := rfl
@[simp] theorem State.onMci_sched (f : Mci → Mci) (s : State) : (s.onMci f).sched = s.sched := rfl
@[simp] theorem State.onMci_dev (f : Mci → Mci) (s : State) : (s.onMci f).dev = s.dev := rfl
@[simp] theorem State.onMci_sag (f : Mci → Mci) (s : State) : (s.onMci f).sag = s.sag := rfl
@[simp] theorem State.onMci_vault (f : Mci → Mci) (s : State) : (s.onMci f).vault = s.vault := rfl
@[simp] theorem State.onMci_arr (f : Mci → Mci) (s : State) : (s.onMci f).arr = s.arr := rfl
@[simp] theorem State.onMci_pol (f : Mci → Mci) (s : State) : (s.onMci f).pol = s.pol := rfl
@[simp] theorem State.onMci_polNext (f : Mci → Mci) (s : State) : (s.onMci f).polNext = s.polNext := rfl
@[simp] theorem State.onMci_twin (f : Mci → Mci) (s : State) : (s.onMci f).twin = s.twin := rfl
@[simp] theorem State.onMci_tpol (f : Mci → Mci) (s : State) : (s.onMci f).tpol = s.tpol := rfl
@[simp] theorem State.onMci_tpolNext (f : Mci → Mci) (s : State) : (s.onMci f).tpolNext = s.tpolNext := rfl
@[simp] theorem State.onMci_coil (f : Mci → Mci) (s : State) : (s.onMci f).coil = s.coil := rfl
@[simp] theorem State.onMci_ccnt (f : Mci → Mci) (s : State) : (s.onMci f).ccnt = s.ccnt := rfl
@[simp] theorem State.onMci_ep (f : Mci → Mci) (s : State) : (s.onMci f).ep = s.ep := rfl
@[simp] theorem State.onMci_cfg (f : Mci → Mci) (s : State) : (s.onMci f).cfg = s.cfg := rfl
@[simp] theorem State.onMci_msix (f : Mci → Mci) (s : State) : (s.onMci f).msix = s.msix := rfl
@[simp] theorem State.onMci_pw (f : Mci → Mci) (s : State) : (s.onMci f).pw = s.pw := rfl
@[simp] theorem State.onMci_nvme (f : Mci → Mci) (s : State) : (s.onMci f).nvme = s.nvme := rfl
@[simp] theorem State.onMci_ncnt (f : Mci → Mci) (s : State) : (s.onMci f).ncnt = s.ncnt := rfl
@[simp] theorem State.onMci_mci (f : Mci → Mci) (s : State) : (s.onMci f).mci = f s.mci := rfl
@[simp] theorem State.onMci_kc (f : Mci → Mci) (s : State) : (s.onMci f).kc = s.kc := rfl
@[simp] theorem State.onMci_fc (f : Mci → Mci) (s : State) : (s.onMci f).fc = s.fc := rfl
@[simp] theorem State.onMci_klog (f : Mci → Mci) (s : State) : (s.onMci f).klog = s.klog := rfl
@[simp] theorem State.onMci_sec (f : Mci → Mci) (s : State) : (s.onMci f).sec = s.sec := rfl
@[simp] theorem State.onMci_tst (f : Mci → Mci) (s : State) : (s.onMci f).tst = s.tst := rfl
@[simp] theorem State.onMci_out (f : Mci → Mci) (s : State) : (s.onMci f).out = s.out := rfl
@[simp] theorem State.onMci_free (f : Mci → Mci) (s : State) : (s.onMci f).free = s.free := rfl
@[simp] theorem State.onMci_pending (f : Mci → Mci) (s : State) : (s.onMci f).pending = s.pending := rfl

/-! ### `onKc` -/
@[simp] theorem State.onKc_hw (f : Kc → Kc) (s : State) : (s.onKc f).hw = s.hw := rfl
@[simp] theorem State.onKc_pins (f : Kc → Kc) (s : State) : (s.onKc f).pins = s.pins := rfl
@[simp] theorem State.onKc_clk (f : Kc → Kc) (s : State) : (s.onKc f).clk = s.clk := rfl
@[simp] theorem State.onKc_sched (f : Kc → Kc) (s : State) : (s.onKc f).sched = s.sched := rfl
@[simp] theorem State.onKc_dev (f : Kc → Kc) (s : State) : (s.onKc f).dev = s.dev := rfl
@[simp] theorem State.onKc_sag (f : Kc → Kc) (s : State) : (s.onKc f).sag = s.sag := rfl
@[simp] theorem State.onKc_vault (f : Kc → Kc) (s : State) : (s.onKc f).vault = s.vault := rfl
@[simp] theorem State.onKc_arr (f : Kc → Kc) (s : State) : (s.onKc f).arr = s.arr := rfl
@[simp] theorem State.onKc_pol (f : Kc → Kc) (s : State) : (s.onKc f).pol = s.pol := rfl
@[simp] theorem State.onKc_polNext (f : Kc → Kc) (s : State) : (s.onKc f).polNext = s.polNext := rfl
@[simp] theorem State.onKc_twin (f : Kc → Kc) (s : State) : (s.onKc f).twin = s.twin := rfl
@[simp] theorem State.onKc_tpol (f : Kc → Kc) (s : State) : (s.onKc f).tpol = s.tpol := rfl
@[simp] theorem State.onKc_tpolNext (f : Kc → Kc) (s : State) : (s.onKc f).tpolNext = s.tpolNext := rfl
@[simp] theorem State.onKc_coil (f : Kc → Kc) (s : State) : (s.onKc f).coil = s.coil := rfl
@[simp] theorem State.onKc_ccnt (f : Kc → Kc) (s : State) : (s.onKc f).ccnt = s.ccnt := rfl
@[simp] theorem State.onKc_ep (f : Kc → Kc) (s : State) : (s.onKc f).ep = s.ep := rfl
@[simp] theorem State.onKc_cfg (f : Kc → Kc) (s : State) : (s.onKc f).cfg = s.cfg := rfl
@[simp] theorem State.onKc_msix (f : Kc → Kc) (s : State) : (s.onKc f).msix = s.msix := rfl
@[simp] theorem State.onKc_pw (f : Kc → Kc) (s : State) : (s.onKc f).pw = s.pw := rfl
@[simp] theorem State.onKc_nvme (f : Kc → Kc) (s : State) : (s.onKc f).nvme = s.nvme := rfl
@[simp] theorem State.onKc_ncnt (f : Kc → Kc) (s : State) : (s.onKc f).ncnt = s.ncnt := rfl
@[simp] theorem State.onKc_mci (f : Kc → Kc) (s : State) : (s.onKc f).mci = s.mci := rfl
@[simp] theorem State.onKc_kc (f : Kc → Kc) (s : State) : (s.onKc f).kc = f s.kc := rfl
@[simp] theorem State.onKc_fc (f : Kc → Kc) (s : State) : (s.onKc f).fc = s.fc := rfl
@[simp] theorem State.onKc_klog (f : Kc → Kc) (s : State) : (s.onKc f).klog = s.klog := rfl
@[simp] theorem State.onKc_sec (f : Kc → Kc) (s : State) : (s.onKc f).sec = s.sec := rfl
@[simp] theorem State.onKc_tst (f : Kc → Kc) (s : State) : (s.onKc f).tst = s.tst := rfl
@[simp] theorem State.onKc_out (f : Kc → Kc) (s : State) : (s.onKc f).out = s.out := rfl
@[simp] theorem State.onKc_free (f : Kc → Kc) (s : State) : (s.onKc f).free = s.free := rfl
@[simp] theorem State.onKc_pending (f : Kc → Kc) (s : State) : (s.onKc f).pending = s.pending := rfl

/-! ### `onFc` -/
@[simp] theorem State.onFc_hw (f : Fc → Fc) (s : State) : (s.onFc f).hw = s.hw := rfl
@[simp] theorem State.onFc_pins (f : Fc → Fc) (s : State) : (s.onFc f).pins = s.pins := rfl
@[simp] theorem State.onFc_clk (f : Fc → Fc) (s : State) : (s.onFc f).clk = s.clk := rfl
@[simp] theorem State.onFc_sched (f : Fc → Fc) (s : State) : (s.onFc f).sched = s.sched := rfl
@[simp] theorem State.onFc_dev (f : Fc → Fc) (s : State) : (s.onFc f).dev = s.dev := rfl
@[simp] theorem State.onFc_sag (f : Fc → Fc) (s : State) : (s.onFc f).sag = s.sag := rfl
@[simp] theorem State.onFc_vault (f : Fc → Fc) (s : State) : (s.onFc f).vault = s.vault := rfl
@[simp] theorem State.onFc_arr (f : Fc → Fc) (s : State) : (s.onFc f).arr = s.arr := rfl
@[simp] theorem State.onFc_pol (f : Fc → Fc) (s : State) : (s.onFc f).pol = s.pol := rfl
@[simp] theorem State.onFc_polNext (f : Fc → Fc) (s : State) : (s.onFc f).polNext = s.polNext := rfl
@[simp] theorem State.onFc_twin (f : Fc → Fc) (s : State) : (s.onFc f).twin = s.twin := rfl
@[simp] theorem State.onFc_tpol (f : Fc → Fc) (s : State) : (s.onFc f).tpol = s.tpol := rfl
@[simp] theorem State.onFc_tpolNext (f : Fc → Fc) (s : State) : (s.onFc f).tpolNext = s.tpolNext := rfl
@[simp] theorem State.onFc_coil (f : Fc → Fc) (s : State) : (s.onFc f).coil = s.coil := rfl
@[simp] theorem State.onFc_ccnt (f : Fc → Fc) (s : State) : (s.onFc f).ccnt = s.ccnt := rfl
@[simp] theorem State.onFc_ep (f : Fc → Fc) (s : State) : (s.onFc f).ep = s.ep := rfl
@[simp] theorem State.onFc_cfg (f : Fc → Fc) (s : State) : (s.onFc f).cfg = s.cfg := rfl
@[simp] theorem State.onFc_msix (f : Fc → Fc) (s : State) : (s.onFc f).msix = s.msix := rfl
@[simp] theorem State.onFc_pw (f : Fc → Fc) (s : State) : (s.onFc f).pw = s.pw := rfl
@[simp] theorem State.onFc_nvme (f : Fc → Fc) (s : State) : (s.onFc f).nvme = s.nvme := rfl
@[simp] theorem State.onFc_ncnt (f : Fc → Fc) (s : State) : (s.onFc f).ncnt = s.ncnt := rfl
@[simp] theorem State.onFc_mci (f : Fc → Fc) (s : State) : (s.onFc f).mci = s.mci := rfl
@[simp] theorem State.onFc_kc (f : Fc → Fc) (s : State) : (s.onFc f).kc = s.kc := rfl
@[simp] theorem State.onFc_fc (f : Fc → Fc) (s : State) : (s.onFc f).fc = f s.fc := rfl
@[simp] theorem State.onFc_klog (f : Fc → Fc) (s : State) : (s.onFc f).klog = s.klog := rfl
@[simp] theorem State.onFc_sec (f : Fc → Fc) (s : State) : (s.onFc f).sec = s.sec := rfl
@[simp] theorem State.onFc_tst (f : Fc → Fc) (s : State) : (s.onFc f).tst = s.tst := rfl
@[simp] theorem State.onFc_out (f : Fc → Fc) (s : State) : (s.onFc f).out = s.out := rfl
@[simp] theorem State.onFc_free (f : Fc → Fc) (s : State) : (s.onFc f).free = s.free := rfl
@[simp] theorem State.onFc_pending (f : Fc → Fc) (s : State) : (s.onFc f).pending = s.pending := rfl

/-! ### `onKlog` -/
@[simp] theorem State.onKlog_hw (f : Klog → Klog) (s : State) : (s.onKlog f).hw = s.hw := rfl
@[simp] theorem State.onKlog_pins (f : Klog → Klog) (s : State) : (s.onKlog f).pins = s.pins := rfl
@[simp] theorem State.onKlog_clk (f : Klog → Klog) (s : State) : (s.onKlog f).clk = s.clk := rfl
@[simp] theorem State.onKlog_sched (f : Klog → Klog) (s : State) : (s.onKlog f).sched = s.sched := rfl
@[simp] theorem State.onKlog_dev (f : Klog → Klog) (s : State) : (s.onKlog f).dev = s.dev := rfl
@[simp] theorem State.onKlog_sag (f : Klog → Klog) (s : State) : (s.onKlog f).sag = s.sag := rfl
@[simp] theorem State.onKlog_vault (f : Klog → Klog) (s : State) : (s.onKlog f).vault = s.vault := rfl
@[simp] theorem State.onKlog_arr (f : Klog → Klog) (s : State) : (s.onKlog f).arr = s.arr := rfl
@[simp] theorem State.onKlog_pol (f : Klog → Klog) (s : State) : (s.onKlog f).pol = s.pol := rfl
@[simp] theorem State.onKlog_polNext (f : Klog → Klog) (s : State) : (s.onKlog f).polNext = s.polNext := rfl
@[simp] theorem State.onKlog_twin (f : Klog → Klog) (s : State) : (s.onKlog f).twin = s.twin := rfl
@[simp] theorem State.onKlog_tpol (f : Klog → Klog) (s : State) : (s.onKlog f).tpol = s.tpol := rfl
@[simp] theorem State.onKlog_tpolNext (f : Klog → Klog) (s : State) : (s.onKlog f).tpolNext = s.tpolNext := rfl
@[simp] theorem State.onKlog_coil (f : Klog → Klog) (s : State) : (s.onKlog f).coil = s.coil := rfl
@[simp] theorem State.onKlog_ccnt (f : Klog → Klog) (s : State) : (s.onKlog f).ccnt = s.ccnt := rfl
@[simp] theorem State.onKlog_ep (f : Klog → Klog) (s : State) : (s.onKlog f).ep = s.ep := rfl
@[simp] theorem State.onKlog_cfg (f : Klog → Klog) (s : State) : (s.onKlog f).cfg = s.cfg := rfl
@[simp] theorem State.onKlog_msix (f : Klog → Klog) (s : State) : (s.onKlog f).msix = s.msix := rfl
@[simp] theorem State.onKlog_pw (f : Klog → Klog) (s : State) : (s.onKlog f).pw = s.pw := rfl
@[simp] theorem State.onKlog_nvme (f : Klog → Klog) (s : State) : (s.onKlog f).nvme = s.nvme := rfl
@[simp] theorem State.onKlog_ncnt (f : Klog → Klog) (s : State) : (s.onKlog f).ncnt = s.ncnt := rfl
@[simp] theorem State.onKlog_mci (f : Klog → Klog) (s : State) : (s.onKlog f).mci = s.mci := rfl
@[simp] theorem State.onKlog_kc (f : Klog → Klog) (s : State) : (s.onKlog f).kc = s.kc := rfl
@[simp] theorem State.onKlog_fc (f : Klog → Klog) (s : State) : (s.onKlog f).fc = s.fc := rfl
@[simp] theorem State.onKlog_klog (f : Klog → Klog) (s : State) : (s.onKlog f).klog = f s.klog := rfl
@[simp] theorem State.onKlog_sec (f : Klog → Klog) (s : State) : (s.onKlog f).sec = s.sec := rfl
@[simp] theorem State.onKlog_tst (f : Klog → Klog) (s : State) : (s.onKlog f).tst = s.tst := rfl
@[simp] theorem State.onKlog_out (f : Klog → Klog) (s : State) : (s.onKlog f).out = s.out := rfl
@[simp] theorem State.onKlog_free (f : Klog → Klog) (s : State) : (s.onKlog f).free = s.free := rfl
@[simp] theorem State.onKlog_pending (f : Klog → Klog) (s : State) : (s.onKlog f).pending = s.pending := rfl

/-! ### `onSec` -/
@[simp] theorem State.onSec_hw (f : Sec → Sec) (s : State) : (s.onSec f).hw = s.hw := rfl
@[simp] theorem State.onSec_pins (f : Sec → Sec) (s : State) : (s.onSec f).pins = s.pins := rfl
@[simp] theorem State.onSec_clk (f : Sec → Sec) (s : State) : (s.onSec f).clk = s.clk := rfl
@[simp] theorem State.onSec_sched (f : Sec → Sec) (s : State) : (s.onSec f).sched = s.sched := rfl
@[simp] theorem State.onSec_dev (f : Sec → Sec) (s : State) : (s.onSec f).dev = s.dev := rfl
@[simp] theorem State.onSec_sag (f : Sec → Sec) (s : State) : (s.onSec f).sag = s.sag := rfl
@[simp] theorem State.onSec_vault (f : Sec → Sec) (s : State) : (s.onSec f).vault = s.vault := rfl
@[simp] theorem State.onSec_arr (f : Sec → Sec) (s : State) : (s.onSec f).arr = s.arr := rfl
@[simp] theorem State.onSec_pol (f : Sec → Sec) (s : State) : (s.onSec f).pol = s.pol := rfl
@[simp] theorem State.onSec_polNext (f : Sec → Sec) (s : State) : (s.onSec f).polNext = s.polNext := rfl
@[simp] theorem State.onSec_twin (f : Sec → Sec) (s : State) : (s.onSec f).twin = s.twin := rfl
@[simp] theorem State.onSec_tpol (f : Sec → Sec) (s : State) : (s.onSec f).tpol = s.tpol := rfl
@[simp] theorem State.onSec_tpolNext (f : Sec → Sec) (s : State) : (s.onSec f).tpolNext = s.tpolNext := rfl
@[simp] theorem State.onSec_coil (f : Sec → Sec) (s : State) : (s.onSec f).coil = s.coil := rfl
@[simp] theorem State.onSec_ccnt (f : Sec → Sec) (s : State) : (s.onSec f).ccnt = s.ccnt := rfl
@[simp] theorem State.onSec_ep (f : Sec → Sec) (s : State) : (s.onSec f).ep = s.ep := rfl
@[simp] theorem State.onSec_cfg (f : Sec → Sec) (s : State) : (s.onSec f).cfg = s.cfg := rfl
@[simp] theorem State.onSec_msix (f : Sec → Sec) (s : State) : (s.onSec f).msix = s.msix := rfl
@[simp] theorem State.onSec_pw (f : Sec → Sec) (s : State) : (s.onSec f).pw = s.pw := rfl
@[simp] theorem State.onSec_nvme (f : Sec → Sec) (s : State) : (s.onSec f).nvme = s.nvme := rfl
@[simp] theorem State.onSec_ncnt (f : Sec → Sec) (s : State) : (s.onSec f).ncnt = s.ncnt := rfl
@[simp] theorem State.onSec_mci (f : Sec → Sec) (s : State) : (s.onSec f).mci = s.mci := rfl
@[simp] theorem State.onSec_kc (f : Sec → Sec) (s : State) : (s.onSec f).kc = s.kc := rfl
@[simp] theorem State.onSec_fc (f : Sec → Sec) (s : State) : (s.onSec f).fc = s.fc := rfl
@[simp] theorem State.onSec_klog (f : Sec → Sec) (s : State) : (s.onSec f).klog = s.klog := rfl
@[simp] theorem State.onSec_sec (f : Sec → Sec) (s : State) : (s.onSec f).sec = f s.sec := rfl
@[simp] theorem State.onSec_tst (f : Sec → Sec) (s : State) : (s.onSec f).tst = s.tst := rfl
@[simp] theorem State.onSec_out (f : Sec → Sec) (s : State) : (s.onSec f).out = s.out := rfl
@[simp] theorem State.onSec_free (f : Sec → Sec) (s : State) : (s.onSec f).free = s.free := rfl
@[simp] theorem State.onSec_pending (f : Sec → Sec) (s : State) : (s.onSec f).pending = s.pending := rfl

/-! ### `onTst` -/
@[simp] theorem State.onTst_hw (f : Tst → Tst) (s : State) : (s.onTst f).hw = s.hw := rfl
@[simp] theorem State.onTst_pins (f : Tst → Tst) (s : State) : (s.onTst f).pins = s.pins := rfl
@[simp] theorem State.onTst_clk (f : Tst → Tst) (s : State) : (s.onTst f).clk = s.clk := rfl
@[simp] theorem State.onTst_sched (f : Tst → Tst) (s : State) : (s.onTst f).sched = s.sched := rfl
@[simp] theorem State.onTst_dev (f : Tst → Tst) (s : State) : (s.onTst f).dev = s.dev := rfl
@[simp] theorem State.onTst_sag (f : Tst → Tst) (s : State) : (s.onTst f).sag = s.sag := rfl
@[simp] theorem State.onTst_vault (f : Tst → Tst) (s : State) : (s.onTst f).vault = s.vault := rfl
@[simp] theorem State.onTst_arr (f : Tst → Tst) (s : State) : (s.onTst f).arr = s.arr := rfl
@[simp] theorem State.onTst_pol (f : Tst → Tst) (s : State) : (s.onTst f).pol = s.pol := rfl
@[simp] theorem State.onTst_polNext (f : Tst → Tst) (s : State) : (s.onTst f).polNext = s.polNext := rfl
@[simp] theorem State.onTst_twin (f : Tst → Tst) (s : State) : (s.onTst f).twin = s.twin := rfl
@[simp] theorem State.onTst_tpol (f : Tst → Tst) (s : State) : (s.onTst f).tpol = s.tpol := rfl
@[simp] theorem State.onTst_tpolNext (f : Tst → Tst) (s : State) : (s.onTst f).tpolNext = s.tpolNext := rfl
@[simp] theorem State.onTst_coil (f : Tst → Tst) (s : State) : (s.onTst f).coil = s.coil := rfl
@[simp] theorem State.onTst_ccnt (f : Tst → Tst) (s : State) : (s.onTst f).ccnt = s.ccnt := rfl
@[simp] theorem State.onTst_ep (f : Tst → Tst) (s : State) : (s.onTst f).ep = s.ep := rfl
@[simp] theorem State.onTst_cfg (f : Tst → Tst) (s : State) : (s.onTst f).cfg = s.cfg := rfl
@[simp] theorem State.onTst_msix (f : Tst → Tst) (s : State) : (s.onTst f).msix = s.msix := rfl
@[simp] theorem State.onTst_pw (f : Tst → Tst) (s : State) : (s.onTst f).pw = s.pw := rfl
@[simp] theorem State.onTst_nvme (f : Tst → Tst) (s : State) : (s.onTst f).nvme = s.nvme := rfl
@[simp] theorem State.onTst_ncnt (f : Tst → Tst) (s : State) : (s.onTst f).ncnt = s.ncnt := rfl
@[simp] theorem State.onTst_mci (f : Tst → Tst) (s : State) : (s.onTst f).mci = s.mci := rfl
@[simp] theorem State.onTst_kc (f : Tst → Tst) (s : State) : (s.onTst f).kc = s.kc := rfl
@[simp] theorem State.onTst_fc (f : Tst → Tst) (s : State) : (s.onTst f).fc = s.fc := rfl
@[simp] theorem State.onTst_klog (f : Tst → Tst) (s : State) : (s.onTst f).klog = s.klog := rfl
@[simp] theorem State.onTst_sec (f : Tst → Tst) (s : State) : (s.onTst f).sec = s.sec := rfl
@[simp] theorem State.onTst_tst (f : Tst → Tst) (s : State) : (s.onTst f).tst = f s.tst := rfl
@[simp] theorem State.onTst_out (f : Tst → Tst) (s : State) : (s.onTst f).out = s.out := rfl
@[simp] theorem State.onTst_free (f : Tst → Tst) (s : State) : (s.onTst f).free = s.free := rfl
@[simp] theorem State.onTst_pending (f : Tst → Tst) (s : State) : (s.onTst f).pending = s.pending := rfl

/-! ### `onPol` -/
@[simp] theorem State.onPol_hw (f : Policy → Policy) (s : State) : (s.onPol f).hw = s.hw := rfl
@[simp] theorem State.onPol_pins (f : Policy → Policy) (s : State) : (s.onPol f).pins = s.pins := rfl
@[simp] theorem State.onPol_clk (f : Policy → Policy) (s : State) : (s.onPol f).clk = s.clk := rfl
@[simp] theorem State.onPol_sched (f : Policy → Policy) (s : State) : (s.onPol f).sched = s.sched := rfl
@[simp] theorem State.onPol_dev (f : Policy → Policy) (s : State) : (s.onPol f).dev = s.dev := rfl
@[simp] theorem State.onPol_sag (f : Policy → Policy) (s : State) : (s.onPol f).sag = s.sag := rfl
@[simp] theorem State.onPol_vault (f : Policy → Policy) (s : State) : (s.onPol f).vault = s.vault := rfl
@[simp] theorem State.onPol_arr (f : Policy → Policy) (s : State) : (s.onPol f).arr = s.arr := rfl
@[simp] theorem State.onPol_pol (f : Policy → Policy) (s : State) : (s.onPol f).pol = f s.pol := rfl
@[simp] theorem State.onPol_polNext (f : Policy → Policy) (s : State) : (s.onPol f).polNext = s.polNext := rfl
@[simp] theorem State.onPol_twin (f : Policy → Policy) (s : State) : (s.onPol f).twin = s.twin := rfl
@[simp] theorem State.onPol_tpol (f : Policy → Policy) (s : State) : (s.onPol f).tpol = s.tpol := rfl
@[simp] theorem State.onPol_tpolNext (f : Policy → Policy) (s : State) : (s.onPol f).tpolNext = s.tpolNext := rfl
@[simp] theorem State.onPol_coil (f : Policy → Policy) (s : State) : (s.onPol f).coil = s.coil := rfl
@[simp] theorem State.onPol_ccnt (f : Policy → Policy) (s : State) : (s.onPol f).ccnt = s.ccnt := rfl
@[simp] theorem State.onPol_ep (f : Policy → Policy) (s : State) : (s.onPol f).ep = s.ep := rfl
@[simp] theorem State.onPol_cfg (f : Policy → Policy) (s : State) : (s.onPol f).cfg = s.cfg := rfl
@[simp] theorem State.onPol_msix (f : Policy → Policy) (s : State) : (s.onPol f).msix = s.msix := rfl
@[simp] theorem State.onPol_pw (f : Policy → Policy) (s : State) : (s.onPol f).pw = s.pw := rfl
@[simp] theorem State.onPol_nvme (f : Policy → Policy) (s : State) : (s.onPol f).nvme = s.nvme := rfl
@[simp] theorem State.onPol_ncnt (f : Policy → Policy) (s : State) : (s.onPol f).ncnt = s.ncnt := rfl
@[simp] theorem State.onPol_mci (f : Policy → Policy) (s : State) : (s.onPol f).mci = s.mci := rfl
@[simp] theorem State.onPol_kc (f : Policy → Policy) (s : State) : (s.onPol f).kc = s.kc := rfl
@[simp] theorem State.onPol_fc (f : Policy → Policy) (s : State) : (s.onPol f).fc = s.fc := rfl
@[simp] theorem State.onPol_klog (f : Policy → Policy) (s : State) : (s.onPol f).klog = s.klog := rfl
@[simp] theorem State.onPol_sec (f : Policy → Policy) (s : State) : (s.onPol f).sec = s.sec := rfl
@[simp] theorem State.onPol_tst (f : Policy → Policy) (s : State) : (s.onPol f).tst = s.tst := rfl
@[simp] theorem State.onPol_out (f : Policy → Policy) (s : State) : (s.onPol f).out = s.out := rfl
@[simp] theorem State.onPol_free (f : Policy → Policy) (s : State) : (s.onPol f).free = s.free := rfl
@[simp] theorem State.onPol_pending (f : Policy → Policy) (s : State) : (s.onPol f).pending = s.pending := rfl

/-! ### `emit` and `tookFree` -/
@[simp] theorem emit_hw (o : Output) (s : State) : (emit o s).hw = s.hw := rfl
@[simp] theorem emit_pins (o : Output) (s : State) : (emit o s).pins = s.pins := rfl
@[simp] theorem emit_clk (o : Output) (s : State) : (emit o s).clk = s.clk := rfl
@[simp] theorem emit_sched (o : Output) (s : State) : (emit o s).sched = s.sched := rfl
@[simp] theorem emit_dev (o : Output) (s : State) : (emit o s).dev = s.dev := rfl
@[simp] theorem emit_sag (o : Output) (s : State) : (emit o s).sag = s.sag := rfl
@[simp] theorem emit_vault (o : Output) (s : State) : (emit o s).vault = s.vault := rfl
@[simp] theorem emit_arr (o : Output) (s : State) : (emit o s).arr = s.arr := rfl
@[simp] theorem emit_pol (o : Output) (s : State) : (emit o s).pol = s.pol := rfl
@[simp] theorem emit_polNext (o : Output) (s : State) : (emit o s).polNext = s.polNext := rfl
@[simp] theorem emit_twin (o : Output) (s : State) : (emit o s).twin = s.twin := rfl
@[simp] theorem emit_tpol (o : Output) (s : State) : (emit o s).tpol = s.tpol := rfl
@[simp] theorem emit_tpolNext (o : Output) (s : State) : (emit o s).tpolNext = s.tpolNext := rfl
@[simp] theorem emit_coil (o : Output) (s : State) : (emit o s).coil = s.coil := rfl
@[simp] theorem emit_ccnt (o : Output) (s : State) : (emit o s).ccnt = s.ccnt := rfl
@[simp] theorem emit_ep (o : Output) (s : State) : (emit o s).ep = s.ep := rfl
@[simp] theorem emit_cfg (o : Output) (s : State) : (emit o s).cfg = s.cfg := rfl
@[simp] theorem emit_msix (o : Output) (s : State) : (emit o s).msix = s.msix := rfl
@[simp] theorem emit_pw (o : Output) (s : State) : (emit o s).pw = s.pw := rfl
@[simp] theorem emit_nvme (o : Output) (s : State) : (emit o s).nvme = s.nvme := rfl
@[simp] theorem emit_ncnt (o : Output) (s : State) : (emit o s).ncnt = s.ncnt := rfl
@[simp] theorem emit_mci (o : Output) (s : State) : (emit o s).mci = s.mci := rfl
@[simp] theorem emit_kc (o : Output) (s : State) : (emit o s).kc = s.kc := rfl
@[simp] theorem emit_fc (o : Output) (s : State) : (emit o s).fc = s.fc := rfl
@[simp] theorem emit_klog (o : Output) (s : State) : (emit o s).klog = s.klog := rfl
@[simp] theorem emit_sec (o : Output) (s : State) : (emit o s).sec = s.sec := rfl
@[simp] theorem emit_tst (o : Output) (s : State) : (emit o s).tst = s.tst := rfl
@[simp] theorem emit_out (o : Output) (s : State) : (emit o s).out = o :: s.out := rfl
@[simp] theorem emit_free (o : Output) (s : State) : (emit o s).free = s.free := rfl
@[simp] theorem emit_pending (o : Output) (s : State) : (emit o s).pending = s.pending := rfl
@[simp] theorem tookFree_hw (s : State) : (tookFree s).hw = s.hw := rfl
@[simp] theorem tookFree_pins (s : State) : (tookFree s).pins = s.pins := rfl
@[simp] theorem tookFree_clk (s : State) : (tookFree s).clk = s.clk := rfl
@[simp] theorem tookFree_sched (s : State) : (tookFree s).sched = s.sched := rfl
@[simp] theorem tookFree_dev (s : State) : (tookFree s).dev = s.dev := rfl
@[simp] theorem tookFree_sag (s : State) : (tookFree s).sag = s.sag := rfl
@[simp] theorem tookFree_vault (s : State) : (tookFree s).vault = s.vault := rfl
@[simp] theorem tookFree_arr (s : State) : (tookFree s).arr = s.arr := rfl
@[simp] theorem tookFree_pol (s : State) : (tookFree s).pol = s.pol := rfl
@[simp] theorem tookFree_polNext (s : State) : (tookFree s).polNext = s.polNext := rfl
@[simp] theorem tookFree_twin (s : State) : (tookFree s).twin = s.twin := rfl
@[simp] theorem tookFree_tpol (s : State) : (tookFree s).tpol = s.tpol := rfl
@[simp] theorem tookFree_tpolNext (s : State) : (tookFree s).tpolNext = s.tpolNext := rfl
@[simp] theorem tookFree_coil (s : State) : (tookFree s).coil = s.coil := rfl
@[simp] theorem tookFree_ccnt (s : State) : (tookFree s).ccnt = s.ccnt := rfl
@[simp] theorem tookFree_ep (s : State) : (tookFree s).ep = s.ep := rfl
@[simp] theorem tookFree_cfg (s : State) : (tookFree s).cfg = s.cfg := rfl
@[simp] theorem tookFree_msix (s : State) : (tookFree s).msix = s.msix := rfl
@[simp] theorem tookFree_pw (s : State) : (tookFree s).pw = s.pw := rfl
@[simp] theorem tookFree_nvme (s : State) : (tookFree s).nvme = s.nvme := rfl
@[simp] theorem tookFree_ncnt (s : State) : (tookFree s).ncnt = s.ncnt := rfl
@[simp] theorem tookFree_mci (s : State) : (tookFree s).mci = s.mci := rfl
@[simp] theorem tookFree_kc (s : State) : (tookFree s).kc = s.kc := rfl
@[simp] theorem tookFree_fc (s : State) : (tookFree s).fc = s.fc := rfl
@[simp] theorem tookFree_klog (s : State) : (tookFree s).klog = s.klog := rfl
@[simp] theorem tookFree_sec (s : State) : (tookFree s).sec = s.sec := rfl
@[simp] theorem tookFree_tst (s : State) : (tookFree s).tst = s.tst := rfl
@[simp] theorem tookFree_out (s : State) : (tookFree s).out = s.out := rfl
@[simp] theorem tookFree_free (s : State) : (tookFree s).free = s.free + 1 := rfl
@[simp] theorem tookFree_pending (s : State) : (tookFree s).pending = s.pending := rfl

end Sys2Proof.Machine
end

