-- ==== Sys2Proof/Laws/Shared.lean ====
section
/-! SUPPORT. What the shared operations can do, said once each: finishers, interrupts, the Kiln Log, units and the fault
collector. -/
namespace Sys2Proof.Machine

/-! ### Finishers -/

/-- A meaning that ends in `done` answers a next state: the queue's rest, time and fuses as before, FATAL never left. -/
theorem done_next (s t : State) : done s t =
    .next { t with pending := s.pending, hw := s.hw, fc := { t.fc with fatal := s.fc.fatal || t.fc.fatal } } := rfl

/-- The same for a meaning that owns time or fuses. -/
theorem doneHw_next (h : Hw) (s t : State) : doneHw h s t =
    .next { t with pending := s.pending, hw := h, fc := { t.fc with fatal := s.fc.fatal || t.fc.fatal } } := rfl

/-- Where the body leaves queue, time and collector alone, the next state is the body's. -/
theorem done_eq {s t : State} (hp : t.pending = s.pending) (hh : t.hw = s.hw) (hf : t.fc = s.fc) : done s t = .next t := by
  cases t; cases s; simp_all [done]

/-- A meaning with no effect. -/
@[simp] theorem done_self (s : State) : done s s = .next s := done_eq rfl rfl rfl

/-! ### Interrupts (R310 to R312) -/

/-- What signalling can change: pending sources, the MSI-X table and what is sent. -/
structure SignalFrame (s t : State) : Prop where
  all : t = { s with cfg := t.cfg, msix := t.msix, out := t.out }

theorem SignalFrame.refl (s : State) : SignalFrame s s := ⟨rfl⟩
theorem SignalFrame.trans {s t u : State} (a : SignalFrame s t) (b : SignalFrame t u) : SignalFrame s u := by
  constructor; rw [b.all, a.all]

theorem irqPend_frame (v : Nat) (s : State) : SignalFrame s (irqPend v s) := ⟨rfl⟩
theorem sendMsix_frame (v : Nat) (s : State) : SignalFrame s (sendMsix v s) := by
  unfold sendMsix; constructor; dsimp only; split <;> rfl
theorem sendMsi_frame (v : Nat) (s : State) : SignalFrame s (sendMsi v s) := by
  unfold sendMsi; constructor; dsimp only; split <;> rfl
/-- A signal changes only pending sources, the MSI-X table and what is sent. -/
theorem signal_frame (v : Nat) (s : State) : SignalFrame s (signal v s) := by
  unfold signal
  split
  · exact irqPend_frame v s
  · split
    · exact sendMsix_frame v s
    · exact sendMsi_frame v s
    · exact ⟨rfl⟩
    · exact irqPend_frame v s
theorem signalNvme_frame (v : Nat) (s : State) : SignalFrame s (signalNvme v s) := by
  unfold signalNvme; dsimp only; split <;> split <;> first | exact irqPend_frame v s | exact signal_frame v s
theorem sendPme_frame (s : State) : SignalFrame s (sendPme s) := ⟨rfl⟩

/-! ### The Kiln Log (R491) -/

/-- A happening reaches the recorder and nothing else. -/
theorem record_eq (h : Happening) (s : State) : record h s = { s with klog := (record h s).klog } := rfl
theorem recordSecurity_eq (a b : Nat) (d : List Nat) (s : State) : recordSecurity a b d s = { s with klog := (recordSecurity a b d s).klog } := rfl
theorem recordArray_eq (a b : Nat) (d : List Nat) (s : State) : recordArray a b d s = { s with klog := (recordArray a b d s).klog } := rfl
theorem recordConfig_eq (op : Nat) (p : Bytes) (s : State) : recordConfig op p s = { s with klog := (recordConfig op p s).klog } := rfl

/-! ### Units -/

/-- A change of service is wanted; it is in force from the next boundary (R21). -/
theorem wantService_eq (b : Nat) (on : Bool) (s : State) : wantService b on s =
    { s with sched := { s.sched with servicePending := (wantService b on s).sched.servicePending } } := rfl

/-! ### The fault collector (R435 to R447) -/

/-- What raising faults leaves alone. -/
structure FaultFrame (s t : State) : Prop where
  hw : t.hw = s.hw
  clk : t.clk = s.clk
  dev : t.dev = s.dev
  sag : t.sag = s.sag
  pol : t.pol = s.pol
  polNext : t.polNext = s.polNext
  tpol : t.tpol = s.tpol
  tpolNext : t.tpolNext = s.tpolNext
  ccnt : t.ccnt = s.ccnt
  ep : t.ep = s.ep
  pw : t.pw = s.pw
  ncnt : t.ncnt = s.ncnt
  mci : t.mci = s.mci
  kc : t.kc = s.kc
  klog : t.klog = s.klog
  sec : t.sec = s.sec
  free : t.free = s.free
  pending : t.pending = s.pending
  pins : t.pins = { s.pins with faultPin := t.pins.faultPin }
  nvme : t.nvme = { s.nvme with cfs := t.nvme.cfs }
  vault : t.vault = { s.vault with emergency := t.vault.emergency }
  sched : t.sched = { s.sched with servicePending := t.sched.servicePending, kilnSet := t.sched.kilnSet }
  tst : t.tst = { s.tst with tests := t.tst.tests }
  arr : t.arr = { s.arr with ns := t.arr.ns, ports := t.arr.ports, arrays := t.arr.arrays, jobs := t.arr.jobs, matrices := t.arr.matrices,
                             kilnBufUsed := t.arr.kilnBufUsed }
  ns : t.arr.ns.map (fun n => { n with cond := .healthy, reread := false }) = s.arr.ns.map (fun n => { n with cond := .healthy, reread := false })

theorem FaultFrame.refl (s : State) : FaultFrame s s := by constructor <;> rfl
theorem FaultFrame.trans {s t u : State} (a : FaultFrame s t) (b : FaultFrame t u) : FaultFrame s u where
  hw := b.hw.trans a.hw
  clk := b.clk.trans a.clk
  dev := b.dev.trans a.dev
  sag := b.sag.trans a.sag
  pol := b.pol.trans a.pol
  polNext := b.polNext.trans a.polNext
  tpol := b.tpol.trans a.tpol
  tpolNext := b.tpolNext.trans a.tpolNext
  ccnt := b.ccnt.trans a.ccnt
  ep := b.ep.trans a.ep
  pw := b.pw.trans a.pw
  ncnt := b.ncnt.trans a.ncnt
  mci := b.mci.trans a.mci
  kc := b.kc.trans a.kc
  klog := b.klog.trans a.klog
  sec := b.sec.trans a.sec
  free := b.free.trans a.free
  pending := b.pending.trans a.pending
  pins := by rw [b.pins, a.pins]
  nvme := by rw [b.nvme, a.nvme]
  vault := by rw [b.vault, a.vault]
  sched := by rw [b.sched, a.sched]
  tst := by rw [b.tst, a.tst]
  arr := by rw [b.arr, a.arr]
  ns := b.ns.trans a.ns
theorem FaultFrame.ofSignal {s t : State} (a : SignalFrame s t) : FaultFrame s t := by
  rw [a.all]; constructor <;> rfl
theorem FaultFrame.onFc (f : Fc → Fc) (s : State) : FaultFrame s (s.onFc f) := by constructor <;> rfl

theorem putSrc_frame (x : Src) (s : State) : FaultFrame s (putSrc x s) := by constructor <;> rfl
theorem onSrc_frame (k : Nat) (f : Src → Src) (s : State) : FaultFrame s (onSrc k f s) := by constructor <;> rfl
theorem ackSource_frame (k : Nat) (s : State) : FaultFrame s (ackSource k s) := by
  unfold ackSource; split
  · exact onSrc_frame k _ s
  · exact .refl s

theorem slipDown_frame (s : State) : FaultFrame s (slipDown s) := by constructor <;> rfl
theorem wantService_frame (b : Nat) (on : Bool) (s : State) : FaultFrame s (wantService b on s) := by constructor <;> rfl
theorem setKiln_frame (n : Nat) (on : Bool) (s : State) : FaultFrame s (setKiln n on s) := by constructor <;> rfl
/-- Members that become UNAVAILABLE change in nothing else. -/
theorem makeUnavailable_frame (p : Ns → Bool) (c : Nat) (s : State) : FaultFrame s (makeUnavailable p c s) := by
  constructor
  case ns =>
    show (mapIf s.arr.ns _ _).map _ = _
    unfold mapIf
    rw [List.map_map]
    apply List.map_congr_left
    intro n _
    show (fun n : Ns => { n with cond := Cond.healthy, reread := false }) (if p n = true then _ else n) = _
    split <;> rfl
  all_goals rfl
theorem retrainPort_frame (p : Nat) (s : State) : FaultFrame s (retrainPort p s) := by
  unfold retrainPort
  exact FaultFrame.trans (by constructor <;> rfl) (makeUnavailable_frame _ _ _)
theorem unitAction_frame (l : LocCode) (s : State) : FaultFrame s (unitAction l s) := by
  unfold unitAction
  split
  · constructor <;> rfl
  · exact retrainPort_frame _ _
  · constructor <;> rfl
  · constructor <;> rfl
  · exact .refl s
theorem enterFatal_frame (s : State) : FaultFrame s (enterFatal s) := by
  unfold enterFatal; split
  · exact .refl s
  · constructor <;> rfl
theorem interruptTests_frame (p : Test → Bool) (s : State) : FaultFrame s (interruptTests p s) := by constructor <;> rfl

theorem captureFault_frame (j : Judged) (s : State) : FaultFrame s (captureFault j s) := by
  have h : ∀ (b : Prop) [Decidable b] (k : Nat) (u : State), FaultFrame s u → FaultFrame s (if b then ackSource k u else u) := by
    intro b _ k u hu; split
    · exact hu.trans (ackSource_frame k u)
    · exact hu
  exact h _ _ _ ((FaultFrame.onFc _ s).trans (onSrc_frame _ _ _))

theorem actOnFault_frame (j : Judged) (s : State) : FaultFrame s (actOnFault j s) := by
  unfold actOnFault
  split
  · exact .refl s
  · dsimp only
    generalize h1 : (if s.fc.irqEnable ∧ min s.fc.irqMinSev 5 ≤ j.sev then signal s.fc.vector s else s) = s1
    have f1 : FaultFrame s s1 := by
      rw [← h1]; split
      · exact .ofSignal (signal_frame _ _)
      · exact .refl s
    generalize h2 : (if 2 ≤ j.sev ∧ s1.ep.d3hot then sendPme s1 else s1) = s2
    have f2 : FaultFrame s s2 := by
      rw [← h2]; split
      · exact f1.trans (.ofSignal (sendPme_frame _))
      · exact f1
    split
    · exact f2
    · generalize h3 : (if 3 ≤ j.sev then unitAction (j.a.f.loc.getD (srcLoc j.a.f.source)) s2 else s2) = s3
      have f3 : FaultFrame s s3 := by
        rw [← h3]; split
        · exact f2.trans (unitAction_frame _ _)
        · exact f2
      split <;> split <;> first
        | exact (f3.trans (interruptTests_frame _ _)).trans (enterFatal_frame _)
        | exact f3.trans (interruptTests_frame _ _)
        | exact f3.trans (enterFatal_frame _)
        | exact f3

theorem judgeStep_frame (l : List Arrival) (acc : List Judged × State) (a : Arrival) : FaultFrame acc.2 (judgeStep l acc a).2 := by
  unfold judgeStep
  dsimp only
  split
  · exact (putSrc_frame _ _).trans (FaultFrame.onFc _ _)
  · exact putSrc_frame _ _

theorem collect_frame (l : List Arrival) (s : State) : FaultFrame s (collect l s) := by
  unfold collect
  dsimp only
  generalize hl : (l.filter (fun a => !a.injected) ++ l.filter (fun a => a.injected)).filter
    (fun a => a.f.source < 512 && s.srcPresent a.f.source) = l'
  have h1 : ∀ (all l : List Arrival) (acc : List Judged × State), FaultFrame acc.2 (l.foldl (judgeStep all) acc).2 := by
    intro all l
    induction l with
    | nil => intro acc; exact .refl _
    | cons a l ih => intro acc; exact (judgeStep_frame all acc a).trans (ih _)
  have h2 : ∀ (js : List Judged) (t : State), FaultFrame t (js.foldl (fun u j => actOnFault j (captureFault j u)) t) := by
    intro js
    induction js with
    | nil => intro t; exact .refl _
    | cons j js ih => intro t; exact ((captureFault_frame j t).trans (actOnFault_frame j _)).trans (ih _)
  exact (h1 l' l' ([], s)).trans (h2 _ _)

/-- Capturing a fault leaves a first error; acting on it keeps it. -/
theorem captureFault_first (j : Judged) (s : State) : (captureFault j s).fc.first.isSome := by
  have h : ∀ (b : Prop) [Decidable b] (k : Nat) (u : State), u.fc.first.isSome → (if b then ackSource k u else u).fc.first.isSome := by
    intro b _ k u hu; split
    · unfold ackSource; split <;> exact hu
    · exact hu
  exact h _ _ _ rfl
theorem signal_fc (v : Nat) (s : State) : (signal v s).fc = s.fc := by rw [(signal_frame v s).all]
theorem unitAction_fc (l : LocCode) (s : State) : (unitAction l s).fc = s.fc := by
  unfold unitAction; split <;> rfl
theorem actOnFault_first (j : Judged) (s : State) : (actOnFault j s).fc.first = s.fc.first := by
  have hs : ∀ (b : Prop) [Decidable b], (if b then signal s.fc.vector s else s).fc = s.fc := by
    intro b _; split; exact signal_fc _ _; rfl
  have hp : ∀ (b : Prop) [Decidable b] (t : State), (if b then sendPme t else t).fc = t.fc := by
    intro b _ t; split <;> rfl
  have hu : ∀ (b : Prop) [Decidable b] l (t : State), (if b then unitAction l t else t).fc = t.fc := by
    intro b _ l t; split; exact unitAction_fc _ _; rfl
  have hi : ∀ (b : Prop) [Decidable b] p (t : State), (if b then interruptTests p t else t).fc = t.fc := by
    intro b _ p t; split <;> rfl
  have he : ∀ t : State, (enterFatal t).fc.first = t.fc.first := by
    intro t; unfold enterFatal; split <;> rfl
  unfold actOnFault
  split
  · rfl
  · dsimp only
    split
    · rw [hp, hs]
    · split
      · rw [he, hi, hu, hp, hs]
      · rw [hi, hu, hp, hs]

/-- Faults that reach the collector leave a first error, when one of them has a present source. -/
theorem collect_first {l : List Arrival} {s : State} (h : ∃ a ∈ l, a.f.source < 512 ∧ s.srcPresent a.f.source) :
    (collect l s).fc.first.isSome := by
  have hj : ∀ (all l : List Arrival) (acc : List Judged × State), (l.foldl (judgeStep all) acc).1.length = acc.1.length + l.length := by
    intro all l
    induction l with
    | nil => intro acc; simp
    | cons a l ih => intro acc; rw [List.foldl_cons, ih]; simp [judgeStep]; omega
  have hp : ∀ (j : Judged) (l : List Judged), putJudged j l ≠ [] := by
    intro j l; cases l with
    | nil => simp [putJudged]
    | cons y ys => simp only [putJudged]; split <;> simp
  have hk : ∀ (js : List Judged) (t : State), t.fc.first.isSome → (js.foldl (fun u j => actOnFault j (captureFault j u)) t).fc.first.isSome := by
    intro js
    induction js with
    | nil => intro t ht; exact ht
    | cons j js ih => intro t _; exact ih _ (by rw [actOnFault_first]; exact captureFault_first j t)
  obtain ⟨a, ha, h1, h2⟩ := h
  unfold collect
  dsimp only
  generalize hl : (l.filter (fun a => !a.injected) ++ l.filter (fun a => a.injected)).filter
    (fun a => a.f.source < 512 && s.srcPresent a.f.source) = l'
  have hm : a ∈ l' := by
    rw [← hl]
    simp only [List.mem_filter, List.mem_append, h2, Bool.and_true, decide_eq_true_eq, h1, and_true]
    cases hi : a.injected <;> simp [ha]
  have hlen := hj l' l' ([], s)
  generalize l'.foldl (judgeStep l') ([], s) = r at hlen ⊢
  have : r.1 ≠ [] := by
    intro he; rw [he] at hlen; simp at hlen; rw [List.length_eq_zero_iff.1 hlen.symm] at hm; exact absurd hm (by simp)
  cases hr : r.1 with
  | nil => exact absurd hr this
  | cons j js =>
    show (List.foldl _ r.2 (putJudged j (orderJudged js))).fc.first.isSome
    cases ho : putJudged j (orderJudged js) with
    | nil => exact absurd ho (hp _ _)
    | cons k ks => exact hk ks _ (by rw [actOnFault_first]; exact captureFault_first k r.2)

theorem collect_keeps_first {l : List Arrival} {s : State} (h : s.fc.first.isSome) : (collect l s).fc.first.isSome := by
  have h1 : ∀ (all l : List Arrival) (acc : List Judged × State), acc.2.fc.first.isSome → (l.foldl (judgeStep all) acc).2.fc.first.isSome := by
    intro all l
    induction l with
    | nil => intro acc h; exact h
    | cons a l ih => intro acc h; apply ih; unfold judgeStep; dsimp only; split <;> exact h
  have hk : ∀ (js : List Judged) (t : State), t.fc.first.isSome → (js.foldl (fun u j => actOnFault j (captureFault j u)) t).fc.first.isSome := by
    intro js
    induction js with
    | nil => intro t ht; exact ht
    | cons j js ih => intro t _; exact ih _ (by rw [actOnFault_first]; exact captureFault_first j t)
  unfold collect
  exact hk _ _ (h1 _ _ ([], s) h)

/-- A raised fault of a present source is captured: a first error stands (R444). -/
theorem raiseAll_first {fs : List FaultIn} {s : State} (h : ∃ f ∈ fs, f.source < 512 ∧ s.srcPresent f.source) :
    (raiseAll fs s).fc.first.isSome := by
  obtain ⟨f, hf, h1, h2⟩ := h
  have hc : (collect (fs.map fun f => { f := f }) s).fc.first.isSome :=
    collect_first ⟨{ f := f }, List.mem_map.2 ⟨f, hf, rfl⟩, h1, h2⟩
  unfold raiseAll lastKiln
  split
  · exact collect_keeps_first hc
  · exact hc
theorem raise_first {f : FaultIn} {s : State} (h1 : f.source < 512) (h2 : s.srcPresent f.source) : (raise f s).fc.first.isSome :=
  raiseAll_first ⟨f, List.mem_singleton.2 rfl, h1, h2⟩

theorem lastKiln_frame (b s : State) : FaultFrame s (lastKiln b s) := by
  unfold lastKiln; split
  · exact collect_frame _ _
  · exact .refl s
/-- Raising faults leaves everything but the collector, its signals and the units acted on alone. -/
theorem raiseAll_frame (fs : List FaultIn) (s : State) : FaultFrame s (raiseAll fs s) :=
  (collect_frame _ s).trans (lastKiln_frame _ _)
theorem raise_frame (f : FaultIn) (s : State) : FaultFrame s (raise f s) := raiseAll_frame [f] s

end Sys2Proof.Machine
end

