-- ==== Sys2Proof/Laws/Mailboxes.lean ====
section
/-! SUPPORT. Mailboxes: what changing one leaves, what a command row does where its checks pass or fail (R366), and the
statements' `Succeeds`. -/
namespace Sys2Proof.Machine

/-! ### Lists by index -/

theorem nth_nthMod_self {α : Type} (l : List α) (i : Nat) (f : α → α) (d : α) (h : i < l.length) : nth (nthMod l i f) i d = f (nth l i d) := by
  simp [nth, nthMod, h]
theorem nth_nthMod_ne {α : Type} (l : List α) {i j : Nat} (f : α → α) (d : α) (h : j ≠ i) : nth (nthMod l i f) j d = nth l j d := by
  simp [nth, nthMod, Ne.symm h]
theorem nthMod_length {α : Type} (l : List α) (i : Nat) (f : α → α) : (nthMod l i f).length = l.length := by simp [nthMod]
theorem nth_out {α : Type} (l : List α) {i : Nat} (d : α) (h : l.length ≤ i) : nth l i d = d := by simp [nth, h]

/-! ### One mailbox changed -/

theorem mb_onMb_self (i : Nat) (f : Mailbox → Mailbox) (s : State) (h : i < s.mci.mbs.length) : (onMb i f s).mb i = f (s.mb i) :=
  nth_nthMod_self _ _ _ _ h
theorem mb_onMb_ne {i j : Nat} (f : Mailbox → Mailbox) (s : State) (h : j ≠ i) : (onMb i f s).mb j = s.mb j := nth_nthMod_ne _ _ _ h
@[simp] theorem onMb_length (i : Nat) (f : Mailbox → Mailbox) (s : State) : (onMb i f s).mci.mbs.length = s.mci.mbs.length := nthMod_length _ _ _
/-- Changing a mailbox changes nothing but the mailboxes. -/
theorem onMb_eq (i : Nat) (f : Mailbox → Mailbox) (s : State) :
    onMb i f s = { s with mci := { s.mci with mbs := nthMod s.mci.mbs i f } } := rfl
/-- A mailbox that is not idle exists. -/
theorem mb_exists {i : Nat} {s : State} (h : (s.mb i).st ≠ .idle) : i < s.mci.mbs.length := by
  rcases Nat.lt_or_ge i s.mci.mbs.length with n | n
  · exact n
  · exact absurd (by rw [State.mb, nth_out _ _ n]) h

/-! ### A command row -/

/-- Where steps 5 to 7 of R366 pass, the command's effect is all that happens beyond its own mailbox. -/
theorem mciRun_passes {i op : Nat} {s : State} {plan : Mailbox → Plan} (act : Mailbox → State → State) (h : planRuns i op s plan = true) :
    mciRun i op s plan act = act (s.mb i) (onMb i (fun m => { m with started := true, objects := (plan (s.mb i)).objects })
      (onMb i (fun m => { m with adj := m.adj ++ (plan (s.mb i)).p.adj }) s)) := by
  simp only [planRuns, Bool.and_eq_true, Bool.not_eq_true', Option.isNone_iff_eq_none] at h
  obtain ⟨⟨⟨⟨⟨h1, h2⟩, h3⟩, h4⟩, h5⟩, h6⟩ := h
  have nb : ¬ ((plan (s.mb i)).busy = true ∨ (plan (s.mb i)).objects.any (fun o => (s.heldObjects i).contains o) = true) := by rw [h3, h4]; decide
  have na : ¬ (¬ s.stateAllows op = true) := by simp [h5]
  simp only [mciRun, h1, if_true, runPlan, h2, h6]
  rw [if_neg nb, if_neg na]

/-- Where one of them fails, only the mailboxes and their counters change. -/
theorem mciFail_frame (i st a b : Nat) (s : State) : mciFail i st a b s = { s with mci := (mciFail i st a b s).mci } := by
  unfold mciFail
  split
  · rfl
  · split <;> rfl
theorem mciRun_fails {i op : Nat} {s : State} {plan : Mailbox → Plan} (act : Mailbox → State → State) (h : planRuns i op s plan = false) :
    mciRun i op s plan act = { s with mci := (mciRun i op s plan act).mci } := by
  by_cases h1 : s.mbReady i op = true
  · simp only [mciRun, h1, if_true, runPlan]
    split
    · exact mciFail_frame _ _ _ _ _
    · rename_i h2
      split
      · exact mciFail_frame _ _ _ _ _
      · rename_i h3
        split
        · exact mciFail_frame _ _ _ _ _
        · rename_i h4
          split
          · exact mciFail_frame _ _ _ _ _
          · rename_i h5
            exfalso
            have h4' : s.stateAllows op = true := Classical.not_not.mp h4
            have b : (plan (s.mb i)).busy = false := by simpa using fun x => h3 (Or.inl x)
            have o : (plan (s.mb i)).objects.any (fun o => (s.heldObjects i).contains o) = false := Bool.eq_false_iff.mpr fun x => h3 (Or.inr x)
            rw [planRuns, h1, h2, b, o, h4', h5] at h
            exact absurd h (by decide)
  · simp [mciRun, h1]

/-- A row whose mailbox does not hold its command does nothing (log entry 6). -/
theorem mciRun_notReady {i op : Nat} {s : State} (plan : Mailbox → Plan) (act : Mailbox → State → State) (h : s.mbReady i op = false) :
    mciRun i op s plan act = s := by simp [mciRun, h]

/-- The mailbox of a command whose checks pass exists, executes and has not been started. -/
theorem planRuns_ready {i op : Nat} {s : State} {plan : Mailbox → Plan} (h : planRuns i op s plan = true) :
    i < 16 ∧ (s.mb i).st = .executing ∧ (s.mb i).started = false ∧ (s.mb i).opcode = op := by
  simp only [planRuns, Bool.and_eq_true, State.mbReady, decide_eq_true_eq, beq_iff_eq, Bool.not_eq_true'] at h
  exact ⟨h.1.1.1.1.1.1.1.1, h.1.1.1.1.1.1.1.2, h.1.1.1.1.1.1.2, h.1.1.1.1.1.2⟩
theorem planRuns_exists {i op : Nat} {s : State} {plan : Mailbox → Plan} (h : planRuns i op s plan = true) : i < s.mci.mbs.length :=
  mb_exists (by rw [(planRuns_ready h).2.1]; decide)
/-- A command whose checks pass meets no refusal of the device state. -/
theorem planRuns_refuse {i op : Nat} {s : State} {plan : Mailbox → Plan} (h : planRuns i op s plan = true) : (plan (s.mb i)).refuse = none := by
  simp only [planRuns, Bool.and_eq_true, Option.isNone_iff_eq_none] at h
  exact h.2

/-! ### Success -/

/-- A response of success is staged, and nothing else happens. -/
theorem mciOk_frame (i : Nat) (a b : Bytes) (s : State) : mciOk i a b s = { s with mci := (mciOk i a b s).mci } := rfl
theorem mciOk_succeeds {i : Nat} {s : State} (a b : Bytes) (h : i < s.mci.mbs.length) : Succeeds i a b (mciOk i a b s) := by
  unfold Succeeds mciOk
  rw [mb_onMb_self _ _ _ h]
  refine ⟨⟨_, rfl, ?_⟩, rfl, rfl⟩
  show (if _ then 0 else 1) ≤ 1
  split <;> omega
/-- What the queue's rest, time and the collector hold plays no part in success. -/
theorem succeeds_of_mci {i : Nat} {a b : Bytes} {s t : State} (h : Succeeds i a b s) (e : t.mci = s.mci) : Succeeds i a b t := by
  have m : t.mb i = s.mb i := by simp only [State.mb, e]
  simpa only [Succeeds, m] using h
theorem inProgress_of_mci {i : Nat} {s t : State} (h : InProgress i s) (e : t.mci = s.mci) : InProgress i t := by
  have m : t.mb i = s.mb i := by simp only [State.mb, e]
  simpa only [InProgress, m] using h

/-- A command that only reports: its row answers a next state in which only the mailboxes differ. -/
theorem report_completes {i op : Nat} {s : State} {plan : Mailbox → Plan} (a b : Mailbox → State → Bytes) (h : planRuns i op s plan = true) :
    ∃ t, done s (mciRun i op s plan (fun m u => mciOk i (a m u) (b m u) u)) = .next t ∧ t = { s with mci := t.mci } ∧
      ∃ u, u = { s with mci := u.mci } ∧ (∀ j, j ≠ i → u.mb j = s.mb j) ∧ Succeeds i (a (s.mb i) u) (b (s.mb i) u) t := by
  rw [mciRun_passes _ h]
  refine ⟨_, done_eq rfl rfl rfl, rfl, _, rfl, ?_, mciOk_succeeds _ _ ?_⟩
  · intro j hj
    rw [mb_onMb_ne _ _ hj, mb_onMb_ne _ _ hj]
  · simpa using planRuns_exists h

end Sys2Proof.Machine
end

