-- ==== Sys2Proof/Laws/Memory.lean ====
section
/-! SUPPORT. Sparse tables with rising keys, and the staging memory: reads after writes, and the canonical form. -/
namespace Sys2Proof.Machine

/-! ### Numbers as bytes -/

@[simp] theorem leBytes_length (k n : Nat) : (leBytes k n).length = k := by
  induction k generalizing n with
  | zero => rfl
  | succ k ih => simp [leBytes, ih]

/-- Bytes read back give the number, modulo their width. -/
theorem leNat_leBytes (k n : Nat) : leNat (leBytes k n) = n % 256 ^ k := by
  induction k generalizing n with
  | zero => simp [leBytes, leNat, Nat.mod_one]
  | succ k ih => rw [leBytes, leNat, ih, BitVec.toNat_ofNat, Nat.pow_succ 256 k, Nat.mul_comm (256 ^ k), Nat.mod_mul (a := 256)]

/-! ### Tables -/

@[simp] theorem lookup_nil {α : Type} (k : Nat) : lookup ([] : List (Nat × α)) k = none := rfl

theorem lookup_cons {α : Type} (p : Nat × α) (l : List (Nat × α)) (k : Nat) :
    lookup (p :: l) k = if p.1 = k then some p.2 else lookup l k := by
  by_cases h : p.1 = k <;> simp [lookup, h]

/-- What was put in under a key is what is found. -/
@[simp] theorem lookup_insert_self {α : Type} (k : Nat) (v : α) (l : List (Nat × α)) : lookup (insert k v l) k = some v := by
  induction l with
  | nil => simp [insert, lookup_cons]
  | cons p l ih =>
    by_cases h1 : k < p.1
    · simp [insert, h1, lookup_cons]
    · by_cases h2 : k = p.1
      · simp [insert, h2, lookup_cons]
      · simp [insert, h1, h2, lookup_cons, ih, Ne.symm h2]

/-- Putting in leaves every other key as it was. -/
theorem lookup_insert_ne {α : Type} {k j : Nat} (v : α) (l : List (Nat × α)) (h : j ≠ k) : lookup (insert k v l) j = lookup l j := by
  induction l with
  | nil => simp [insert, lookup_cons, Ne.symm h]
  | cons p l ih =>
    by_cases h1 : k < p.1
    · simp [insert, h1, lookup_cons, Ne.symm h]
    · by_cases h2 : k = p.1
      · subst h2; simp [insert, lookup_cons, Ne.symm h]
      · simp [insert, h1, h2, lookup_cons, ih]

/-- A key taken out is not found. -/
@[simp] theorem lookup_erase_self {α : Type} (k : Nat) (l : List (Nat × α)) : lookup (erase k l) k = none := by
  simp [lookup, erase, List.find?_eq_none]

/-- Taking out leaves every other key as it was. -/
theorem lookup_erase_ne {α : Type} {k j : Nat} (l : List (Nat × α)) (h : j ≠ k) : lookup (erase k l) j = lookup l j := by
  induction l with
  | nil => rfl
  | cons p l ih =>
    by_cases h1 : p.1 = k
    · have e : erase k (p :: l) = erase k l := by simp [erase, h1]
      rw [e, ih, lookup_cons, if_neg (fun x : p.1 = j => h (x.symm.trans h1))]
    · have e : erase k (p :: l) = p :: erase k l := by simp [erase, h1]
      rw [e, lookup_cons, lookup_cons, ih]

/-! ### The canonical form (log entry 103) -/

/-- A rising memory that starts above `n`, or is empty. -/
def above (n : Nat) : List (Nat × BitVec 8) → Prop
  | [] => True
  | p :: _ => n < p.1

theorem rising_cons {p : Nat × BitVec 8} {l : List (Nat × BitVec 8)} : rising (p :: l) = true ↔ above p.1 l ∧ rising l = true := by
  cases l <;> simp [rising, above]

theorem above_insert {n a : Nat} {v : BitVec 8} {l : List (Nat × BitVec 8)} (h : above n l) (hn : n < a) : above n (insert a v l) := by
  cases l with
  | nil => exact hn
  | cons p l =>
    by_cases h1 : a < p.1
    · simpa [insert, h1, above] using hn
    · by_cases h2 : a = p.1
      · simpa [insert, h2, above] using h
      · simpa [insert, h1, h2, above] using h

/-- One byte written keeps the form. -/
theorem wf_insert {m : List (Nat × BitVec 8)} (a : Nat) (v : BitVec 8) (h : Memory.wf m = true) : Memory.wf (insert a v m) = true := by
  induction m with
  | nil => rfl
  | cons p l ih =>
    obtain ⟨ha, hl⟩ := rising_cons.mp h
    by_cases h1 : a < p.1
    · have e : insert a v (p :: l) = (a, v) :: p :: l := by simp [insert, h1]
      exact e ▸ rising_cons.mpr ⟨h1, h⟩
    · by_cases h2 : a = p.1
      · have e : insert a v (p :: l) = (a, v) :: l := by simp [insert, h2]
        exact e ▸ rising_cons.mpr ⟨h2 ▸ ha, hl⟩
      · have e : insert a v (p :: l) = p :: insert a v l := by simp [insert, h1, h2]
        exact e ▸ rising_cons.mpr ⟨above_insert ha (by omega), ih hl⟩

/-- Bytes written keep the form. -/
theorem wf_memWrite (a : Nat) (d : Bytes) (m : List (Nat × BitVec 8)) (h : Memory.wf m = true) : Memory.wf (memWrite a d m) = true := by
  induction d generalizing a m with
  | nil => exact h
  | cons b bs ih => exact ih (a + 1) _ (wf_insert a b h)

theorem wf_stagingWrite (a : Nat) (d : Bytes) (s : State) (h : Memory.wf s.pw.mem = true) : Memory.wf (stagingWrite a d s).pw.mem = true :=
  wf_memWrite a d _ h

/-- Staging after reset has the form. -/
theorem wf_reset : Memory.wf State.reset.pw.mem = true := rfl

/-! ### Reading what was written -/

/-- An address outside the bytes written reads as before. -/
theorem lookup_memWrite_out {a b : Nat} (d : Bytes) (m : List (Nat × BitVec 8)) (h : b < a ∨ a + d.length ≤ b) :
    lookup (memWrite a d m) b = lookup m b := by
  induction d generalizing a m with
  | nil => rfl
  | cons x xs ih =>
    simp only [List.length_cons] at h
    rw [memWrite, ih _ (by omega), lookup_insert_ne _ _ (by omega)]

/-- An address inside the bytes written reads the byte written to it. -/
theorem lookup_memWrite_in {a i : Nat} (d : Bytes) (m : List (Nat × BitVec 8)) (h : i < d.length) :
    lookup (memWrite a d m) (a + i) = some d[i] := by
  induction d generalizing a m i with
  | nil => simp at h
  | cons x xs ih =>
    cases i with
    | zero => rw [memWrite, lookup_memWrite_out _ _ (by omega)]; simp
    | succ i =>
      simp only [List.length_cons, Nat.succ_lt_succ_iff] at h
      have e : a + (i + 1) = a + 1 + i := by omega
      rw [memWrite, e, ih _ h]; rfl

/-- A staging byte outside the bytes written is unchanged. -/
theorem stagingByte_stagingWrite_out {a b : Nat} (d : Bytes) (s : State) (h : b < a ∨ a + d.length ≤ b) :
    stagingByte (stagingWrite a d s) b = stagingByte s b := by
  show (lookup (memWrite a d s.pw.mem) b).getD _ = _
  rw [lookup_memWrite_out d _ h]; rfl

/-- The bytes written are read back. -/
theorem stagingBytes_stagingWrite (a : Nat) (d : Bytes) (s : State) : stagingBytes (stagingWrite a d s) a d.length = d := by
  apply List.ext_getElem
  · simp [stagingBytes]
  · intro i h1 h2
    have h : i < d.length := h2
    simp only [stagingBytes, List.getElem_map, List.getElem_range]
    show (lookup (memWrite a d s.pw.mem) (a + i)).getD _ = _
    rw [lookup_memWrite_in d _ h]; rfl

/-- A write changes nothing but the staging memory. -/
theorem stagingWrite_eq (a : Nat) (d : Bytes) (s : State) :
    stagingWrite a d s = { s with pw := { s.pw with mem := memWrite a d s.pw.mem } } := rfl

end Sys2Proof.Machine
end

