-- ==== Sys2Proof/Laws/Parts.lean ====
section
/-! SUPPORT. Which part of the state each shared operation changes, said once: an equation that puts the changed part back
into the state before. -/
namespace Sys2Proof.Machine

/-! ### Members and jobs: the array part alone -/

/-- `t` is `s` but for its array part. -/
def ArrOnly (s t : State) : Prop := t = { s with arr := t.arr }

theorem ArrOnly.refl (s : State) : ArrOnly s s := rfl
theorem ArrOnly.trans {s t u : State} (a : ArrOnly s t) (b : ArrOnly t u) : ArrOnly s u := by
  unfold ArrOnly at a b ⊢
  rw [b, a]
/-- A fold of steps that each change the array part alone changes that part alone. -/
theorem ArrOnly.foldl {α : Type} (f : State → α → State) (h : ∀ u x, ArrOnly u (f u x)) (l : List α) (s : State) : ArrOnly s (l.foldl f s) := by
  induction l generalizing s with
  | nil => exact .refl s
  | cons x xs ih => exact (h s x).trans (ih _)

theorem onArr_only (f : Arrays → Arrays) (s : State) : ArrOnly s (s.onArr f) := rfl
theorem onNs_only (id : Nat) (f : Ns → Ns) (s : State) : ArrOnly s (onNs id f s) := rfl
theorem onArray_only (id : Nat) (f : Arr → Arr) (s : State) : ArrOnly s (onArray id f s) := rfl
theorem onJob_only (id : Nat) (f : Job → Job) (s : State) : ArrOnly s (onJob id f s) := rfl
theorem onSlice_only (id k : Nat) (f : Slice → Slice) (s : State) : ArrOnly s (onSlice id k f s) := rfl
theorem onPort_only (p : Nat) (f : Port → Port) (s : State) : ArrOnly s (onPort p f s) := rfl
theorem addCmd_only (c : MCmd) (s : State) : ArrOnly s (addCmd c s) := rfl
theorem addJob_only (j : Job) (s : State) : ArrOnly s (addJob j s) := rfl
theorem endJob_only (id : Nat) (s : State) : ArrOnly s (endJob id s) := rfl
theorem dropCmds_only (p : Nat → Bool) (s : State) : ArrOnly s (dropCmds p s) := rfl
theorem issue_only (c : MCmd) (s : State) : ArrOnly s (issue c s) := by
  unfold issue
  exact ArrOnly.foldl _ (fun u x => addCmd_only _ u) _ s
theorem launchMark_only (aid : Nat) (b : MarkBody) (mbs : List Nat) (s : State) : ArrOnly s (launchMark aid b mbs s) := by
  unfold launchMark
  split
  · exact .refl s
  · exact ArrOnly.trans ((addJob_only _ s).trans (onArray_only _ _ _)) (ArrOnly.foldl _ (fun u n => issue_only _ u) _ _)
theorem startMark_only (aid : Nat) (f : MarkBody → MarkBody) (mbs : List Nat) (s : State) : ArrOnly s (startMark aid f mbs s) := by
  unfold startMark
  split
  · exact .refl s
  · split
    · exact onArray_only _ _ s
    · exact launchMark_only _ _ _ s

/-! ### Queues, lines, channels, tests and links -/

theorem emit_eq (o : Output) (s : State) : emit o s = { s with out := o :: s.out } := rfl
theorem sample_eq (k a b v : Nat) (s : State) : sample k a b v s = { s with klog := { s.klog with samples := s.klog.samples ++ [(k, a, b, v, s.now)] } } := rfl
theorem mergeSamples_eq (s : State) : mergeSamples s = { s with klog := (mergeSamples s).klog } := rfl
theorem mergeSamples_samples (s : State) : (mergeSamples s).klog.samples = [] := rfl
theorem onLines_eq (p : Line → Bool) (f : Line → Line) (s : State) : onLines p f s = { s with sag := { s.sag with lines := mapIf s.sag.lines p f } } := rfl
theorem freeLines_eq (p : Line → Bool) (s : State) : freeLines p s = { s with sag := { s.sag with lines := s.sag.lines.filter (fun l => !p l) } } := rfl
theorem onCmd_eq (q cid : Nat) (f : Cmd → Cmd) (s : State) : onCmd q cid f s = { s with nvme := { s.nvme with admitted := mapIf s.nvme.admitted (Cmd.named q cid) f } } := rfl
theorem cmdReady_eq (q cid dw0 st : Nat) (s : State) : cmdReady q cid dw0 st s = { s with nvme := (cmdReady q cid dw0 st s).nvme } := rfl
theorem onChan_eq (ch : Nat) (f : Chan → Chan) (s : State) : onChan ch f s = { s with kc := { s.kc with chans := nthMod s.kc.chans ch f } } := rfl
theorem onBundle_eq (i : Nat) (f : Bundle → Bundle) (s : State) : onBundle i f s = { s with tst := { s.tst with bundles := nthMod s.tst.bundles i f } } := rfl
theorem interruptTests_eq (p : Test → Bool) (s : State) : interruptTests p s = { s with tst := (interruptTests p s).tst } := rfl
theorem onAssoc_eq (n : Nat) (f : Assoc → Assoc) (s : State) : onAssoc n f s = { s with coil := { s.coil with assocs := mapIf s.coil.assocs (fun e => e.no == n) f } } := rfl
theorem slipQueue_eq (c k q a : Nat) (m : SlipMsg) (s : State) : slipQueue c k q a m s = { s with twin := (slipQueue c k q a m s).twin } := rfl
theorem hostRead_frame (k : Nat) (r : HostReq) (s : State) : hostRead k r s = { s with ep := (hostRead k r s).ep, out := (hostRead k r s).out } := by
  unfold hostRead; rfl

/-! ### Faults with no arrivals -/

/-- No fault, no effect. -/
@[simp] theorem raiseAll_nil (s : State) : raiseAll [] s = s := by
  have c : collect [] s = s := rfl
  simp only [raiseAll, List.map_nil, c, lastKiln]
  cases h : s.kilns <;> rfl

end Sys2Proof.Machine
end

