-- ==== Sys2Proof/Laws/PerInstr.lean ====
section
/-! SUPPORT. Per command: no word of spec/opcode_table.json spells it, as no row gives bits (log entry 2). -/

/-- No word spells the command. -/
def Sys2Proof.Laws.NoWord.Statement (i : Sys2Proof.Instr) : Prop := ∀ n w, Sys2Proof.decodeTableWord n w ≠ some i

/-- The decoder answers nothing, so no command. -/
theorem Sys2Proof.Laws.noWord (i : Sys2Proof.Instr) : Sys2Proof.Laws.NoWord.Statement i := fun _ _ h => nomatch (show (none : Option Sys2Proof.Instr) = some i from h)

theorem Sys2Proof.Laws.NoWord.auxPowerOn (straps : _) (torn : _) : Sys2Proof.Laws.NoWord.Statement (.auxPowerOn straps torn) := Sys2Proof.Laws.noWord _
theorem Sys2Proof.Laws.NoWord.auxPowerRemoved  : Sys2Proof.Laws.NoWord.Statement (.auxPowerRemoved) := Sys2Proof.Laws.noWord _
theorem Sys2Proof.Laws.NoWord.mainPwrokAsserted (failedLanes : _) (failedKilns : _) : Sys2Proof.Laws.NoWord.Statement (.mainPwrokAsserted failedLanes failedKilns) := Sys2Proof.Laws.noWord _
theorem Sys2Proof.Laws.NoWord.mainPwrokDeasserted  : Sys2Proof.Laws.NoWord.Statement (.mainPwrokDeasserted) := Sys2Proof.Laws.noWord _
theorem Sys2Proof.Laws.NoWord.pfailFall  : Sys2Proof.Laws.NoWord.Statement (.pfailFall) := Sys2Proof.Laws.noWord _
theorem Sys2Proof.Laws.NoWord.pfailRise  : Sys2Proof.Laws.NoWord.Statement (.pfailRise) := Sys2Proof.Laws.noWord _
theorem Sys2Proof.Laws.NoWord.filteredAssertion  : Sys2Proof.Laws.NoWord.Statement (.filteredAssertion) := Sys2Proof.Laws.noWord _
theorem Sys2Proof.Laws.NoWord.resumeCountExpired  : Sys2Proof.Laws.NoWord.Statement (.resumeCountExpired) := Sys2Proof.Laws.noWord _
theorem Sys2Proof.Laws.NoWord.arrayRecoveryStart (inputs : _) : Sys2Proof.Laws.NoWord.Statement (.arrayRecoveryStart inputs) := Sys2Proof.Laws.noWord _
theorem Sys2Proof.Laws.NoWord.perstAsserted  : Sys2Proof.Laws.NoWord.Statement (.perstAsserted) := Sys2Proof.Laws.noWord _
theorem Sys2Proof.Laws.NoWord.perstDeasserted  : Sys2Proof.Laws.NoWord.Statement (.perstDeasserted) := Sys2Proof.Laws.noWord _
theorem Sys2Proof.Laws.NoWord.hostLinkTrained (speed : _) (width : _) (flit : _) : Sys2Proof.Laws.NoWord.Statement (.hostLinkTrained speed width flit) := Sys2Proof.Laws.noWord _
theorem Sys2Proof.Laws.NoWord.hostLinkDown  : Sys2Proof.Laws.NoWord.Statement (.hostLinkDown) := Sys2Proof.Laws.noWord _
theorem Sys2Proof.Laws.NoWord.configRequest (write : _) (reg : _) (value : _) : Sys2Proof.Laws.NoWord.Statement (.configRequest write reg value) := Sys2Proof.Laws.noWord _
theorem Sys2Proof.Laws.NoWord.flr  : Sys2Proof.Laws.NoWord.Statement (.flr) := Sys2Proof.Laws.noWord _
theorem Sys2Proof.Laws.NoWord.flrComplete  : Sys2Proof.Laws.NoWord.Statement (.flrComplete) := Sys2Proof.Laws.noWord _
theorem Sys2Proof.Laws.NoWord.d3hotEntry  : Sys2Proof.Laws.NoWord.Statement (.d3hotEntry) := Sys2Proof.Laws.noWord _
theorem Sys2Proof.Laws.NoWord.d3hotToD0  : Sys2Proof.Laws.NoWord.Statement (.d3hotToD0) := Sys2Proof.Laws.noWord _
theorem Sys2Proof.Laws.NoWord.barSizeWrite (log2 : _) : Sys2Proof.Laws.NoWord.Statement (.barSizeWrite log2) := Sys2Proof.Laws.noWord _
theorem Sys2Proof.Laws.NoWord.expansionRomRead (off : _) (len : _) : Sys2Proof.Laws.NoWord.Statement (.expansionRomRead off len) := Sys2Proof.Laws.noWord _
theorem Sys2Proof.Laws.NoWord.peerWindowRequest (write : _) (off : _) (len : _) (poisoned : _) (data : _) : Sys2Proof.Laws.NoWord.Statement (.peerWindowRequest write off len poisoned data) := Sys2Proof.Laws.noWord _
theorem Sys2Proof.Laws.NoWord.pwCommit (value : _) : Sys2Proof.Laws.NoWord.Statement (.pwCommit value) := Sys2Proof.Laws.noWord _
theorem Sys2Proof.Laws.NoWord.msixTableWrite (off : _) (data : _) : Sys2Proof.Laws.NoWord.Statement (.msixTableWrite off data) := Sys2Proof.Laws.noWord _
theorem Sys2Proof.Laws.NoWord.translationCompletion (sqid : _) (cid : _) (page : _) (needWrite : _) (res : _) : Sys2Proof.Laws.NoWord.Statement (.translationCompletion sqid cid page needWrite res) := Sys2Proof.Laws.noWord _
theorem Sys2Proof.Laws.NoWord.atsInvalidateRequest (itag : _) (page : _) (pages : _) : Sys2Proof.Laws.NoWord.Statement (.atsInvalidateRequest itag page pages) := Sys2Proof.Laws.noWord _
theorem Sys2Proof.Laws.NoWord.invalidationComplete (itag : _) : Sys2Proof.Laws.NoWord.Statement (.invalidationComplete itag) := Sys2Proof.Laws.noWord _
theorem Sys2Proof.Laws.NoWord.hostCompletionReceived (tag : _) (st : _) (addr : _) : Sys2Proof.Laws.NoWord.Statement (.hostCompletionReceived tag st addr) := Sys2Proof.Laws.noWord _
theorem Sys2Proof.Laws.NoWord.completionTimeout (tag : _) (addr : _) : Sys2Proof.Laws.NoWord.Statement (.completionTimeout tag addr) := Sys2Proof.Laws.noWord _
theorem Sys2Proof.Laws.NoWord.tagQuarantineExpired (tag : _) : Sys2Proof.Laws.NoWord.Statement (.tagQuarantineExpired tag) := Sys2Proof.Laws.noWord _
theorem Sys2Proof.Laws.NoWord.turnBoundary (unfinished : _) : Sys2Proof.Laws.NoWord.Statement (.turnBoundary unfinished) := Sys2Proof.Laws.noWord _
theorem Sys2Proof.Laws.NoWord.planningWindow  : Sys2Proof.Laws.NoWord.Statement (.planningWindow) := Sys2Proof.Laws.noWord _
theorem Sys2Proof.Laws.NoWord.gatherAgeExpired (array : _) (stripe : _) : Sys2Proof.Laws.NoWord.Statement (.gatherAgeExpired array stripe) := Sys2Proof.Laws.noWord _
theorem Sys2Proof.Laws.NoWord.ftSnap0Read  : Sys2Proof.Laws.NoWord.Statement (.ftSnap0Read) := Sys2Proof.Laws.noWord _
theorem Sys2Proof.Laws.NoWord.rcRegisterRead (off : _) : Sys2Proof.Laws.NoWord.Statement (.rcRegisterRead off) := Sys2Proof.Laws.noWord _
theorem Sys2Proof.Laws.NoWord.loRegisterRead (off : _) : Sys2Proof.Laws.NoWord.Statement (.loRegisterRead off) := Sys2Proof.Laws.noWord _
theorem Sys2Proof.Laws.NoWord.hiRegisterRead (off : _) : Sys2Proof.Laws.NoWord.Statement (.hiRegisterRead off) := Sys2Proof.Laws.noWord _
theorem Sys2Proof.Laws.NoWord.registerWrite (off : _) (value : _) : Sys2Proof.Laws.NoWord.Statement (.registerWrite off value) := Sys2Proof.Laws.noWord _
theorem Sys2Proof.Laws.NoWord.reservedAccess (off : _) (write : _) : Sys2Proof.Laws.NoWord.Statement (.reservedAccess off write) := Sys2Proof.Laws.noWord _
theorem Sys2Proof.Laws.NoWord.absentUnitAccess (off : _) (write : _) : Sys2Proof.Laws.NoWord.Statement (.absentUnitAccess off write) := Sys2Proof.Laws.noWord _
theorem Sys2Proof.Laws.NoWord.globalEventWrite (value : _) (coincident : _) : Sys2Proof.Laws.NoWord.Statement (.globalEventWrite value coincident) := Sys2Proof.Laws.noWord _
theorem Sys2Proof.Laws.NoWord.kilnPieceComplete (job : _) (slice : _) : Sys2Proof.Laws.NoWord.Statement (.kilnPieceComplete job slice) := Sys2Proof.Laws.noWord _
theorem Sys2Proof.Laws.NoWord.decodeMatrixDerived (kiln : _) (array : _) (erased : _) : Sys2Proof.Laws.NoWord.Statement (.decodeMatrixDerived kiln array erased) := Sys2Proof.Laws.noWord _
theorem Sys2Proof.Laws.NoWord.permutationComputed (array : _) (descGen : _) (round : _) : Sys2Proof.Laws.NoWord.Statement (.permutationComputed array descGen round) := Sys2Proof.Laws.noWord _
theorem Sys2Proof.Laws.NoWord.kilnMemError (kiln : _) (engine : _) (lane : _) (macroNo : _) (cell : _) (correctable : _) : Sys2Proof.Laws.NoWord.Statement (.kilnMemError kiln engine lane macroNo cell correctable) := Sys2Proof.Laws.noWord _
theorem Sys2Proof.Laws.NoWord.saggarPieceComplete (line : _) : Sys2Proof.Laws.NoWord.Statement (.saggarPieceComplete line) := Sys2Proof.Laws.noWord _
theorem Sys2Proof.Laws.NoWord.ddrEccError (channel : _) (line : _) (pairedCopy : _) (correctable : _) : Sys2Proof.Laws.NoWord.Statement (.ddrEccError channel line pairedCopy correctable) := Sys2Proof.Laws.noWord _
theorem Sys2Proof.Laws.NoWord.burstComplete (ref : _) : Sys2Proof.Laws.NoWord.Statement (.burstComplete ref) := Sys2Proof.Laws.noWord _
theorem Sys2Proof.Laws.NoWord.hostDataLanded (sqid : _) (cid : _) (sector : _) (data : _) (pi : _) : Sys2Proof.Laws.NoWord.Statement (.hostDataLanded sqid cid sector data pi) := Sys2Proof.Laws.noWord _
theorem Sys2Proof.Laws.NoWord.completionPost (sqid : _) (cid : _) : Sys2Proof.Laws.NoWord.Statement (.completionPost sqid cid) := Sys2Proof.Laws.noWord _
theorem Sys2Proof.Laws.NoWord.commandFetch (sqid : _) (entry : _) : Sys2Proof.Laws.NoWord.Statement (.commandFetch sqid entry) := Sys2Proof.Laws.noWord _
theorem Sys2Proof.Laws.NoWord.coalescingTimer (vector : _) : Sys2Proof.Laws.NoWord.Statement (.coalescingTimer vector) := Sys2Proof.Laws.noWord _
theorem Sys2Proof.Laws.NoWord.controllerReady  : Sys2Proof.Laws.NoWord.Statement (.controllerReady) := Sys2Proof.Laws.noWord _
theorem Sys2Proof.Laws.NoWord.ccEnable (value : _) : Sys2Proof.Laws.NoWord.Statement (.ccEnable value) := Sys2Proof.Laws.noWord _
theorem Sys2Proof.Laws.NoWord.ccDisable (value : _) : Sys2Proof.Laws.NoWord.Statement (.ccDisable value) := Sys2Proof.Laws.noWord _
theorem Sys2Proof.Laws.NoWord.shutdownNotification (value : _) : Sys2Proof.Laws.NoWord.Statement (.shutdownNotification value) := Sys2Proof.Laws.noWord _
theorem Sys2Proof.Laws.NoWord.intmsWrite (value : _) : Sys2Proof.Laws.NoWord.Statement (.intmsWrite value) := Sys2Proof.Laws.noWord _
theorem Sys2Proof.Laws.NoWord.intmcWrite (value : _) : Sys2Proof.Laws.NoWord.Statement (.intmcWrite value) := Sys2Proof.Laws.noWord _
theorem Sys2Proof.Laws.NoWord.sqTailDoorbell (qid : _) (value : _) : Sys2Proof.Laws.NoWord.Statement (.sqTailDoorbell qid value) := Sys2Proof.Laws.noWord _
theorem Sys2Proof.Laws.NoWord.cqHeadDoorbell (qid : _) (value : _) : Sys2Proof.Laws.NoWord.Statement (.cqHeadDoorbell qid value) := Sys2Proof.Laws.noWord _
theorem Sys2Proof.Laws.NoWord.deleteIoSubmissionQueue (cid : _) : Sys2Proof.Laws.NoWord.Statement (.deleteIoSubmissionQueue cid) := Sys2Proof.Laws.noWord _
theorem Sys2Proof.Laws.NoWord.createIoSubmissionQueue (cid : _) : Sys2Proof.Laws.NoWord.Statement (.createIoSubmissionQueue cid) := Sys2Proof.Laws.noWord _
theorem Sys2Proof.Laws.NoWord.getLogPage (cid : _) : Sys2Proof.Laws.NoWord.Statement (.getLogPage cid) := Sys2Proof.Laws.noWord _
theorem Sys2Proof.Laws.NoWord.deleteIoCompletionQueue (cid : _) : Sys2Proof.Laws.NoWord.Statement (.deleteIoCompletionQueue cid) := Sys2Proof.Laws.noWord _
theorem Sys2Proof.Laws.NoWord.createIoCompletionQueue (cid : _) : Sys2Proof.Laws.NoWord.Statement (.createIoCompletionQueue cid) := Sys2Proof.Laws.noWord _
theorem Sys2Proof.Laws.NoWord.identify (cid : _) : Sys2Proof.Laws.NoWord.Statement (.identify cid) := Sys2Proof.Laws.noWord _
theorem Sys2Proof.Laws.NoWord.abortCmd (cid : _) : Sys2Proof.Laws.NoWord.Statement (.abortCmd cid) := Sys2Proof.Laws.noWord _
theorem Sys2Proof.Laws.NoWord.setFeatures (cid : _) (data : _) : Sys2Proof.Laws.NoWord.Statement (.setFeatures cid data) := Sys2Proof.Laws.noWord _
theorem Sys2Proof.Laws.NoWord.getFeatures (cid : _) : Sys2Proof.Laws.NoWord.Statement (.getFeatures cid) := Sys2Proof.Laws.noWord _
theorem Sys2Proof.Laws.NoWord.asynchronousEventRequest (cid : _) : Sys2Proof.Laws.NoWord.Statement (.asynchronousEventRequest cid) := Sys2Proof.Laws.noWord _
theorem Sys2Proof.Laws.NoWord.flush (sqid : _) (cid : _) : Sys2Proof.Laws.NoWord.Statement (.flush sqid cid) := Sys2Proof.Laws.noWord _
theorem Sys2Proof.Laws.NoWord.write (sqid : _) (cid : _) : Sys2Proof.Laws.NoWord.Statement (.write sqid cid) := Sys2Proof.Laws.noWord _
theorem Sys2Proof.Laws.NoWord.read (sqid : _) (cid : _) : Sys2Proof.Laws.NoWord.Statement (.read sqid cid) := Sys2Proof.Laws.noWord _
theorem Sys2Proof.Laws.NoWord.writeZeroes (sqid : _) (cid : _) : Sys2Proof.Laws.NoWord.Statement (.writeZeroes sqid cid) := Sys2Proof.Laws.noWord _
theorem Sys2Proof.Laws.NoWord.datasetManagement (sqid : _) (cid : _) : Sys2Proof.Laws.NoWord.Statement (.datasetManagement sqid cid) := Sys2Proof.Laws.noWord _
theorem Sys2Proof.Laws.NoWord.verify (sqid : _) (cid : _) : Sys2Proof.Laws.NoWord.Statement (.verify sqid cid) := Sys2Proof.Laws.noWord _
theorem Sys2Proof.Laws.NoWord.memberCommandComplete (mcid : _) (st : _) (data : _) : Sys2Proof.Laws.NoWord.Statement (.memberCommandComplete mcid st data) := Sys2Proof.Laws.noWord _
theorem Sys2Proof.Laws.NoWord.doneRoundPersistTimer  : Sys2Proof.Laws.NoWord.Statement (.doneRoundPersistTimer) := Sys2Proof.Laws.noWord _
theorem Sys2Proof.Laws.NoWord.memberLinkDown (port : _) : Sys2Proof.Laws.NoWord.Statement (.memberLinkDown port) := Sys2Proof.Laws.noWord _
theorem Sys2Proof.Laws.NoWord.linkErrorThreshold (link : _) : Sys2Proof.Laws.NoWord.Statement (.linkErrorThreshold link) := Sys2Proof.Laws.noWord _
theorem Sys2Proof.Laws.NoWord.portTrainingComplete (link : _) (ok : _) (lanes : _) : Sys2Proof.Laws.NoWord.Statement (.portTrainingComplete link ok lanes) := Sys2Proof.Laws.noWord _
theorem Sys2Proof.Laws.NoWord.memberIdentityRead (ns : _) (ident : _) : Sys2Proof.Laws.NoWord.Statement (.memberIdentityRead ns ident) := Sys2Proof.Laws.noWord _
theorem Sys2Proof.Laws.NoWord.unavailLimitExpired (ns : _) : Sys2Proof.Laws.NoWord.Statement (.unavailLimitExpired ns) := Sys2Proof.Laws.noWord _
theorem Sys2Proof.Laws.NoWord.controllerFatal (ns : _) : Sys2Proof.Laws.NoWord.Statement (.controllerFatal ns) := Sys2Proof.Laws.noWord _
theorem Sys2Proof.Laws.NoWord.memberTimeoutExpired (mcid : _) : Sys2Proof.Laws.NoWord.Statement (.memberTimeoutExpired mcid) := Sys2Proof.Laws.noWord _
theorem Sys2Proof.Laws.NoWord.memberAbortTimeout (mcid : _) : Sys2Proof.Laws.NoWord.Statement (.memberAbortTimeout mcid) := Sys2Proof.Laws.noWord _
theorem Sys2Proof.Laws.NoWord.memberControllerResetDone (port : _) (ok : _) : Sys2Proof.Laws.NoWord.Statement (.memberControllerResetDone port ok) := Sys2Proof.Laws.noWord _
theorem Sys2Proof.Laws.NoWord.memberLateCompletion (mcid : _) : Sys2Proof.Laws.NoWord.Statement (.memberLateCompletion mcid) := Sys2Proof.Laws.noWord _
theorem Sys2Proof.Laws.NoWord.cidQuarantineExpired (mcid : _) : Sys2Proof.Laws.NoWord.Statement (.cidQuarantineExpired mcid) := Sys2Proof.Laws.noWord _
theorem Sys2Proof.Laws.NoWord.slowReadExpired (mcid : _) : Sys2Proof.Laws.NoWord.Statement (.slowReadExpired mcid) := Sys2Proof.Laws.noWord _
theorem Sys2Proof.Laws.NoWord.patrolScrubDue (array : _) : Sys2Proof.Laws.NoWord.Statement (.patrolScrubDue array) := Sys2Proof.Laws.noWord _
theorem Sys2Proof.Laws.NoWord.prsntChange (port : _) (present : _) : Sys2Proof.Laws.NoWord.Statement (.prsntChange port present) := Sys2Proof.Laws.noWord _
theorem Sys2Proof.Laws.NoWord.prsntDebounceExpired (port : _) : Sys2Proof.Laws.NoWord.Statement (.prsntDebounceExpired port) := Sys2Proof.Laws.noWord _
theorem Sys2Proof.Laws.NoWord.memberPerstDelayExpired (port : _) : Sys2Proof.Laws.NoWord.Statement (.memberPerstDelayExpired port) := Sys2Proof.Laws.noWord _
theorem Sys2Proof.Laws.NoWord.slipFlitReceived (f : _) : Sys2Proof.Laws.NoWord.Statement (.slipFlitReceived f) := Sys2Proof.Laws.noWord _
theorem Sys2Proof.Laws.NoWord.slipSilenceTimeout  : Sys2Proof.Laws.NoWord.Statement (.slipSilenceTimeout) := Sys2Proof.Laws.noWord _
theorem Sys2Proof.Laws.NoWord.slipLinkUp  : Sys2Proof.Laws.NoWord.Statement (.slipLinkUp) := Sys2Proof.Laws.noWord _
theorem Sys2Proof.Laws.NoWord.hello (seq : _) (device : _) (bound : _) (powerCycle : _) (mode : _) (lenSel : _) (part : _) : Sys2Proof.Laws.NoWord.Statement (.hello seq device bound powerCycle mode lenSel part) := Sys2Proof.Laws.noWord _
theorem Sys2Proof.Laws.NoWord.records (seq : _) (side : _) (recs : _) : Sys2Proof.Laws.NoWord.Statement (.records seq side recs) := Sys2Proof.Laws.noWord _
theorem Sys2Proof.Laws.NoWord.line (seq : _) (side : _) (twinSeq : _) (l : _) : Sys2Proof.Laws.NoWord.Statement (.line seq side twinSeq l) := Sys2Proof.Laws.noWord _
theorem Sys2Proof.Laws.NoWord.endMsg (seq : _) (side : _) (key : _) (seqs : _) : Sys2Proof.Laws.NoWord.Statement (.endMsg seq side key seqs) := Sys2Proof.Laws.noWord _
theorem Sys2Proof.Laws.NoWord.progress (seq : _) (key : _) (markGen : _) (directRound : _) (entries : _) : Sys2Proof.Laws.NoWord.Statement (.progress seq key markGen directRound entries) := Sys2Proof.Laws.noWord _
theorem Sys2Proof.Laws.NoWord.snapshotBegin (seq : _) : Sys2Proof.Laws.NoWord.Statement (.snapshotBegin seq) := Sys2Proof.Laws.noWord _
theorem Sys2Proof.Laws.NoWord.snapshotEnd (seq : _) : Sys2Proof.Laws.NoWord.Statement (.snapshotEnd seq) := Sys2Proof.Laws.noWord _
theorem Sys2Proof.Laws.NoWord.handover (seq : _) (key : _) (done : _) (lastAdmit : _) : Sys2Proof.Laws.NoWord.Statement (.handover seq key done lastAdmit) := Sys2Proof.Laws.noWord _
theorem Sys2Proof.Laws.NoWord.statePage (seq : _) (side : _) (pageSeq : _) (lines : _) (recs : _) (ends : _) : Sys2Proof.Laws.NoWord.Statement (.statePage seq side pageSeq lines recs ends) := Sys2Proof.Laws.noWord _
theorem Sys2Proof.Laws.NoWord.partnerLost  : Sys2Proof.Laws.NoWord.Statement (.partnerLost) := Sys2Proof.Laws.noWord _
theorem Sys2Proof.Laws.NoWord.side1DelayExpired (registered : _) : Sys2Proof.Laws.NoWord.Statement (.side1DelayExpired registered) := Sys2Proof.Laws.noWord _
theorem Sys2Proof.Laws.NoWord.reservationCheckDue  : Sys2Proof.Laws.NoWord.Statement (.reservationCheckDue) := Sys2Proof.Laws.noWord _
theorem Sys2Proof.Laws.NoWord.reservationReportDone (array : _) (registered : _) : Sys2Proof.Laws.NoWord.Statement (.reservationReportDone array registered) := Sys2Proof.Laws.noWord _
theorem Sys2Proof.Laws.NoWord.fenceWaitExpired (array : _) (input : _) : Sys2Proof.Laws.NoWord.Statement (.fenceWaitExpired array input) := Sys2Proof.Laws.noWord _
theorem Sys2Proof.Laws.NoWord.moveDrainComplete (array : _) : Sys2Proof.Laws.NoWord.Statement (.moveDrainComplete array) := Sys2Proof.Laws.noWord _
theorem Sys2Proof.Laws.NoWord.drillHoldExpired (array : _) : Sys2Proof.Laws.NoWord.Statement (.drillHoldExpired array) := Sys2Proof.Laws.noWord _
theorem Sys2Proof.Laws.NoWord.openReq (h : _) (openerBase : _) : Sys2Proof.Laws.NoWord.Statement (.openReq h openerBase) := Sys2Proof.Laws.noWord _
theorem Sys2Proof.Laws.NoWord.challenge (h : _) (openerBase : _) (cookie : _) : Sys2Proof.Laws.NoWord.Statement (.challenge h openerBase cookie) := Sys2Proof.Laws.noWord _
theorem Sys2Proof.Laws.NoWord.confirm (h : _) (openerBase : _) (cookie : _) : Sys2Proof.Laws.NoWord.Statement (.confirm h openerBase cookie) := Sys2Proof.Laws.noWord _
theorem Sys2Proof.Laws.NoWord.accept (h : _) (openerBase : _) (responderBase : _) : Sys2Proof.Laws.NoWord.Statement (.accept h openerBase responderBase) := Sys2Proof.Laws.noWord _
theorem Sys2Proof.Laws.NoWord.ack (h : _) (sack : _) : Sys2Proof.Laws.NoWord.Statement (.ack h sack) := Sys2Proof.Laws.noWord _
theorem Sys2Proof.Laws.NoWord.nak (h : _) (reason : _) (refIndex : _) : Sys2Proof.Laws.NoWord.Statement (.nak h reason refIndex) := Sys2Proof.Laws.noWord _
theorem Sys2Proof.Laws.NoWord.close (h : _) (endSeq : _) : Sys2Proof.Laws.NoWord.Statement (.close h endSeq) := Sys2Proof.Laws.noWord _
theorem Sys2Proof.Laws.NoWord.closeAck (h : _) (endSeq : _) : Sys2Proof.Laws.NoWord.Statement (.closeAck h endSeq) := Sys2Proof.Laws.noWord _
theorem Sys2Proof.Laws.NoWord.send (h : _) (data : _) : Sys2Proof.Laws.NoWord.Statement (.send h data) := Sys2Proof.Laws.noWord _
theorem Sys2Proof.Laws.NoWord.coilWrite (h : _) (data : _) : Sys2Proof.Laws.NoWord.Statement (.coilWrite h data) := Sys2Proof.Laws.noWord _
theorem Sys2Proof.Laws.NoWord.readReq (h : _) : Sys2Proof.Laws.NoWord.Statement (.readReq h) := Sys2Proof.Laws.noWord _
theorem Sys2Proof.Laws.NoWord.readResp (h : _) (data : _) : Sys2Proof.Laws.NoWord.Statement (.readResp h data) := Sys2Proof.Laws.noWord _
theorem Sys2Proof.Laws.NoWord.nonCoilPacket (kind : _) (port : _) : Sys2Proof.Laws.NoWord.Statement (.nonCoilPacket kind port) := Sys2Proof.Laws.noWord _
theorem Sys2Proof.Laws.NoWord.pauseFrame (port : _) : Sys2Proof.Laws.NoWord.Statement (.pauseFrame port) := Sys2Proof.Laws.noWord _
theorem Sys2Proof.Laws.NoWord.openRetryTimer (entry : _) : Sys2Proof.Laws.NoWord.Statement (.openRetryTimer entry) := Sys2Proof.Laws.noWord _
theorem Sys2Proof.Laws.NoWord.busyBackoffExpired (entry : _) : Sys2Proof.Laws.NoWord.Statement (.busyBackoffExpired entry) := Sys2Proof.Laws.noWord _
theorem Sys2Proof.Laws.NoWord.ackTimer (entry : _) : Sys2Proof.Laws.NoWord.Statement (.ackTimer entry) := Sys2Proof.Laws.noWord _
theorem Sys2Proof.Laws.NoWord.rtoExpired (entry : _) (index : _) : Sys2Proof.Laws.NoWord.Statement (.rtoExpired entry index) := Sys2Proof.Laws.noWord _
theorem Sys2Proof.Laws.NoWord.giveUp (entry : _) (index : _) : Sys2Proof.Laws.NoWord.Statement (.giveUp entry index) := Sys2Proof.Laws.noWord _
theorem Sys2Proof.Laws.NoWord.closeTimeout (entry : _) : Sys2Proof.Laws.NoWord.Statement (.closeTimeout entry) := Sys2Proof.Laws.noWord _
theorem Sys2Proof.Laws.NoWord.remoteKeepaliveTimer (node : _) : Sys2Proof.Laws.NoWord.Statement (.remoteKeepaliveTimer node) := Sys2Proof.Laws.noWord _
theorem Sys2Proof.Laws.NoWord.remoteSilenceTimeout (node : _) : Sys2Proof.Laws.NoWord.Statement (.remoteSilenceTimeout node) := Sys2Proof.Laws.noWord _
theorem Sys2Proof.Laws.NoWord.coilPortLinkDown (port : _) : Sys2Proof.Laws.NoWord.Statement (.coilPortLinkDown port) := Sys2Proof.Laws.noWord _
theorem Sys2Proof.Laws.NoWord.mbLockWrite (mb : _) (value : _) : Sys2Proof.Laws.NoWord.Statement (.mbLockWrite mb value) := Sys2Proof.Laws.noWord _
theorem Sys2Proof.Laws.NoWord.mbRing (mb : _) (withCancel : _) : Sys2Proof.Laws.NoWord.Statement (.mbRing mb withCancel) := Sys2Proof.Laws.noWord _
theorem Sys2Proof.Laws.NoWord.mbCancel (mb : _) : Sys2Proof.Laws.NoWord.Statement (.mbCancel mb) := Sys2Proof.Laws.noWord _
theorem Sys2Proof.Laws.NoWord.sidebandMailboxHostAccess (mb : _) (off : _) (write : _) : Sys2Proof.Laws.NoWord.Statement (.sidebandMailboxHostAccess mb off write) := Sys2Proof.Laws.noWord _
theorem Sys2Proof.Laws.NoWord.mailboxTake  : Sys2Proof.Laws.NoWord.Statement (.mailboxTake) := Sys2Proof.Laws.noWord _
theorem Sys2Proof.Laws.NoWord.mciInputReadDone (mb : _) (input : _) (listsOk : _) : Sys2Proof.Laws.NoWord.Statement (.mciInputReadDone mb input listsOk) := Sys2Proof.Laws.noWord _
theorem Sys2Proof.Laws.NoWord.mciComplete (mb : _) (outputWritten : _) : Sys2Proof.Laws.NoWord.Statement (.mciComplete mb outputWritten) := Sys2Proof.Laws.noWord _
theorem Sys2Proof.Laws.NoWord.sidebandWrite (mb : _) (off : _) (data : _) : Sys2Proof.Laws.NoWord.Statement (.sidebandWrite mb off data) := Sys2Proof.Laws.noWord _
theorem Sys2Proof.Laws.NoWord.sidebandRead (mb : _) (off : _) (len : _) : Sys2Proof.Laws.NoWord.Statement (.sidebandRead mb off len) := Sys2Proof.Laws.noWord _
theorem Sys2Proof.Laws.NoWord.sidebandRing (mb : _) : Sys2Proof.Laws.NoWord.Statement (.sidebandRing mb) := Sys2Proof.Laws.noWord _
theorem Sys2Proof.Laws.NoWord.sidebandCancel (mb : _) : Sys2Proof.Laws.NoWord.Statement (.sidebandCancel mb) := Sys2Proof.Laws.noWord _
theorem Sys2Proof.Laws.NoWord.getState (mb : _) : Sys2Proof.Laws.NoWord.Statement (.getState mb) := Sys2Proof.Laws.noWord _
theorem Sys2Proof.Laws.NoWord.wakeHost (mb : _) : Sys2Proof.Laws.NoWord.Statement (.wakeHost mb) := Sys2Proof.Laws.noWord _
theorem Sys2Proof.Laws.NoWord.setEndpointId (eid : _) : Sys2Proof.Laws.NoWord.Statement (.setEndpointId eid) := Sys2Proof.Laws.noWord _
theorem Sys2Proof.Laws.NoWord.getEndpointId  : Sys2Proof.Laws.NoWord.Statement (.getEndpointId) := Sys2Proof.Laws.noWord _
theorem Sys2Proof.Laws.NoWord.getMctpVersionSupport (msgType : _) : Sys2Proof.Laws.NoWord.Statement (.getMctpVersionSupport msgType) := Sys2Proof.Laws.noWord _
theorem Sys2Proof.Laws.NoWord.getMessageTypeSupport  : Sys2Proof.Laws.NoWord.Statement (.getMessageTypeSupport) := Sys2Proof.Laws.noWord _
theorem Sys2Proof.Laws.NoWord.getVendorDefinedMessageSupport (selector : _) : Sys2Proof.Laws.NoWord.Statement (.getVendorDefinedMessageSupport selector) := Sys2Proof.Laws.noWord _
theorem Sys2Proof.Laws.NoWord.identifyDevice (mb : _) : Sys2Proof.Laws.NoWord.Statement (.identifyDevice mb) := Sys2Proof.Laws.noWord _
theorem Sys2Proof.Laws.NoWord.getLimits (mb : _) : Sys2Proof.Laws.NoWord.Statement (.getLimits mb) := Sys2Proof.Laws.noWord _
theorem Sys2Proof.Laws.NoWord.deviceSetConfig (mb : _) : Sys2Proof.Laws.NoWord.Statement (.deviceSetConfig mb) := Sys2Proof.Laws.noWord _
theorem Sys2Proof.Laws.NoWord.deviceRestart (mb : _) : Sys2Proof.Laws.NoWord.Statement (.deviceRestart mb) := Sys2Proof.Laws.noWord _
theorem Sys2Proof.Laws.NoWord.unitControl (mb : _) (selfTestPasses : _) : Sys2Proof.Laws.NoWord.Statement (.unitControl mb selfTestPasses) := Sys2Proof.Laws.noWord _
theorem Sys2Proof.Laws.NoWord.memberList (mb : _) : Sys2Proof.Laws.NoWord.Statement (.memberList mb) := Sys2Proof.Laws.noWord _
theorem Sys2Proof.Laws.NoWord.memberAdopt (mb : _) : Sys2Proof.Laws.NoWord.Statement (.memberAdopt mb) := Sys2Proof.Laws.noWord _
theorem Sys2Proof.Laws.NoWord.memberRelease (mb : _) : Sys2Proof.Laws.NoWord.Statement (.memberRelease mb) := Sys2Proof.Laws.noWord _
theorem Sys2Proof.Laws.NoWord.memberFail (mb : _) : Sys2Proof.Laws.NoWord.Statement (.memberFail mb) := Sys2Proof.Laws.noWord _
theorem Sys2Proof.Laws.NoWord.memberReplace (mb : _) : Sys2Proof.Laws.NoWord.Statement (.memberReplace mb) := Sys2Proof.Laws.noWord _
theorem Sys2Proof.Laws.NoWord.arrayCreate (mb : _) : Sys2Proof.Laws.NoWord.Statement (.arrayCreate mb) := Sys2Proof.Laws.noWord _
theorem Sys2Proof.Laws.NoWord.arrayDelete (mb : _) : Sys2Proof.Laws.NoWord.Statement (.arrayDelete mb) := Sys2Proof.Laws.noWord _
theorem Sys2Proof.Laws.NoWord.arrayImport (mb : _) (scans : _) : Sys2Proof.Laws.NoWord.Statement (.arrayImport mb scans) := Sys2Proof.Laws.noWord _
theorem Sys2Proof.Laws.NoWord.arrayExpand (mb : _) : Sys2Proof.Laws.NoWord.Statement (.arrayExpand mb) := Sys2Proof.Laws.noWord _
theorem Sys2Proof.Laws.NoWord.arrayMigrate (mb : _) : Sys2Proof.Laws.NoWord.Statement (.arrayMigrate mb) := Sys2Proof.Laws.noWord _
theorem Sys2Proof.Laws.NoWord.arrayGet (mb : _) : Sys2Proof.Laws.NoWord.Statement (.arrayGet mb) := Sys2Proof.Laws.noWord _
theorem Sys2Proof.Laws.NoWord.arrayExport (mb : _) : Sys2Proof.Laws.NoWord.Statement (.arrayExport mb) := Sys2Proof.Laws.noWord _
theorem Sys2Proof.Laws.NoWord.volumeCreate (mb : _) : Sys2Proof.Laws.NoWord.Statement (.volumeCreate mb) := Sys2Proof.Laws.noWord _
theorem Sys2Proof.Laws.NoWord.volumeDelete (mb : _) : Sys2Proof.Laws.NoWord.Statement (.volumeDelete mb) := Sys2Proof.Laws.noWord _
theorem Sys2Proof.Laws.NoWord.volumeResize (mb : _) : Sys2Proof.Laws.NoWord.Statement (.volumeResize mb) := Sys2Proof.Laws.noWord _
theorem Sys2Proof.Laws.NoWord.volumeSetPolicy (mb : _) : Sys2Proof.Laws.NoWord.Statement (.volumeSetPolicy mb) := Sys2Proof.Laws.noWord _
theorem Sys2Proof.Laws.NoWord.volumeList (mb : _) : Sys2Proof.Laws.NoWord.Statement (.volumeList mb) := Sys2Proof.Laws.noWord _
theorem Sys2Proof.Laws.NoWord.rebuildGetStatus (mb : _) : Sys2Proof.Laws.NoWord.Statement (.rebuildGetStatus mb) := Sys2Proof.Laws.noWord _
theorem Sys2Proof.Laws.NoWord.rebuildSetPolicy (mb : _) : Sys2Proof.Laws.NoWord.Statement (.rebuildSetPolicy mb) := Sys2Proof.Laws.noWord _
theorem Sys2Proof.Laws.NoWord.rebuildStart (mb : _) : Sys2Proof.Laws.NoWord.Statement (.rebuildStart mb) := Sys2Proof.Laws.noWord _
theorem Sys2Proof.Laws.NoWord.scrubStart (mb : _) : Sys2Proof.Laws.NoWord.Statement (.scrubStart mb) := Sys2Proof.Laws.noWord _
theorem Sys2Proof.Laws.NoWord.scrubStop (mb : _) : Sys2Proof.Laws.NoWord.Statement (.scrubStop mb) := Sys2Proof.Laws.noWord _
theorem Sys2Proof.Laws.NoWord.lostExtentsGet (mb : _) : Sys2Proof.Laws.NoWord.Statement (.lostExtentsGet mb) := Sys2Proof.Laws.noWord _
theorem Sys2Proof.Laws.NoWord.twinPair (mb : _) : Sys2Proof.Laws.NoWord.Statement (.twinPair mb) := Sys2Proof.Laws.noWord _
theorem Sys2Proof.Laws.NoWord.twinUnpair (mb : _) : Sys2Proof.Laws.NoWord.Statement (.twinUnpair mb) := Sys2Proof.Laws.noWord _
theorem Sys2Proof.Laws.NoWord.twinGetStatus (mb : _) : Sys2Proof.Laws.NoWord.Statement (.twinGetStatus mb) := Sys2Proof.Laws.noWord _
theorem Sys2Proof.Laws.NoWord.twinSetPolicy (mb : _) : Sys2Proof.Laws.NoWord.Statement (.twinSetPolicy mb) := Sys2Proof.Laws.noWord _
theorem Sys2Proof.Laws.NoWord.twinMoveArray (mb : _) : Sys2Proof.Laws.NoWord.Statement (.twinMoveArray mb) := Sys2Proof.Laws.noWord _
theorem Sys2Proof.Laws.NoWord.twinSwapDrill (mb : _) (lines : _) (records : _) (members : _) : Sys2Proof.Laws.NoWord.Statement (.twinSwapDrill mb lines records members) := Sys2Proof.Laws.noWord _
theorem Sys2Proof.Laws.NoWord.twinTakeover (mb : _) : Sys2Proof.Laws.NoWord.Statement (.twinTakeover mb) := Sys2Proof.Laws.noWord _
theorem Sys2Proof.Laws.NoWord.coilGetStatus (mb : _) : Sys2Proof.Laws.NoWord.Statement (.coilGetStatus mb) := Sys2Proof.Laws.noWord _
theorem Sys2Proof.Laws.NoWord.coilConfig (mb : _) : Sys2Proof.Laws.NoWord.Statement (.coilConfig mb) := Sys2Proof.Laws.noWord _
theorem Sys2Proof.Laws.NoWord.coilSetTrust (mb : _) : Sys2Proof.Laws.NoWord.Statement (.coilSetTrust mb) := Sys2Proof.Laws.noWord _
theorem Sys2Proof.Laws.NoWord.coilRegionRegister (mb : _) : Sys2Proof.Laws.NoWord.Statement (.coilRegionRegister mb) := Sys2Proof.Laws.noWord _
theorem Sys2Proof.Laws.NoWord.coilRegionDeregister (mb : _) : Sys2Proof.Laws.NoWord.Statement (.coilRegionDeregister mb) := Sys2Proof.Laws.noWord _
theorem Sys2Proof.Laws.NoWord.coilRecvPost (mb : _) : Sys2Proof.Laws.NoWord.Statement (.coilRecvPost mb) := Sys2Proof.Laws.noWord _
theorem Sys2Proof.Laws.NoWord.coilExportMember (mb : _) : Sys2Proof.Laws.NoWord.Statement (.coilExportMember mb) := Sys2Proof.Laws.noWord _
theorem Sys2Proof.Laws.NoWord.ownershipGet (mb : _) : Sys2Proof.Laws.NoWord.Statement (.ownershipGet mb) := Sys2Proof.Laws.noWord _
theorem Sys2Proof.Laws.NoWord.ownershipClaim (mb : _) : Sys2Proof.Laws.NoWord.Statement (.ownershipClaim mb) := Sys2Proof.Laws.noWord _
theorem Sys2Proof.Laws.NoWord.ownershipTransfer (mb : _) : Sys2Proof.Laws.NoWord.Statement (.ownershipTransfer mb) := Sys2Proof.Laws.noWord _
theorem Sys2Proof.Laws.NoWord.policySet (mb : _) : Sys2Proof.Laws.NoWord.Statement (.policySet mb) := Sys2Proof.Laws.noWord _
theorem Sys2Proof.Laws.NoWord.debugUnlock (mb : _) : Sys2Proof.Laws.NoWord.Statement (.debugUnlock mb) := Sys2Proof.Laws.noWord _
theorem Sys2Proof.Laws.NoWord.decommission (mb : _) : Sys2Proof.Laws.NoWord.Statement (.decommission mb) := Sys2Proof.Laws.noWord _
theorem Sys2Proof.Laws.NoWord.firingRecordGet (mb : _) : Sys2Proof.Laws.NoWord.Statement (.firingRecordGet mb) := Sys2Proof.Laws.noWord _
theorem Sys2Proof.Laws.NoWord.attestQuote (mb : _) : Sys2Proof.Laws.NoWord.Statement (.attestQuote mb) := Sys2Proof.Laws.noWord _
theorem Sys2Proof.Laws.NoWord.certGet (mb : _) : Sys2Proof.Laws.NoWord.Statement (.certGet mb) := Sys2Proof.Laws.noWord _
theorem Sys2Proof.Laws.NoWord.kilnLogGet (mb : _) : Sys2Proof.Laws.NoWord.Statement (.kilnLogGet mb) := Sys2Proof.Laws.noWord _
theorem Sys2Proof.Laws.NoWord.kilnLogClear (mb : _) : Sys2Proof.Laws.NoWord.Statement (.kilnLogClear mb) := Sys2Proof.Laws.noWord _
theorem Sys2Proof.Laws.NoWord.hostTimeHint (mb : _) : Sys2Proof.Laws.NoWord.Statement (.hostTimeHint mb) := Sys2Proof.Laws.noWord _
theorem Sys2Proof.Laws.NoWord.fwDownload (mb : _) (manifest : _) (badPartition : _) : Sys2Proof.Laws.NoWord.Statement (.fwDownload mb manifest badPartition) := Sys2Proof.Laws.noWord _
theorem Sys2Proof.Laws.NoWord.fwActivate (mb : _) : Sys2Proof.Laws.NoWord.Statement (.fwActivate mb) := Sys2Proof.Laws.noWord _
theorem Sys2Proof.Laws.NoWord.fwGetStatus (mb : _) : Sys2Proof.Laws.NoWord.Statement (.fwGetStatus mb) := Sys2Proof.Laws.noWord _
theorem Sys2Proof.Laws.NoWord.faultGet (mb : _) : Sys2Proof.Laws.NoWord.Statement (.faultGet mb) := Sys2Proof.Laws.noWord _
theorem Sys2Proof.Laws.NoWord.faultAck (mb : _) (coincident : _) : Sys2Proof.Laws.NoWord.Statement (.faultAck mb coincident) := Sys2Proof.Laws.noWord _
theorem Sys2Proof.Laws.NoWord.faultSetSeverity (mb : _) : Sys2Proof.Laws.NoWord.Statement (.faultSetSeverity mb) := Sys2Proof.Laws.noWord _
theorem Sys2Proof.Laws.NoWord.faultInject (mb : _) : Sys2Proof.Laws.NoWord.Statement (.faultInject mb) := Sys2Proof.Laws.noWord _
theorem Sys2Proof.Laws.NoWord.diagPattern (mb : _) : Sys2Proof.Laws.NoWord.Statement (.diagPattern mb) := Sys2Proof.Laws.noWord _
theorem Sys2Proof.Laws.NoWord.diagMbist (mb : _) : Sys2Proof.Laws.NoWord.Statement (.diagMbist mb) := Sys2Proof.Laws.noWord _
theorem Sys2Proof.Laws.NoWord.diagMargin (mb : _) : Sys2Proof.Laws.NoWord.Statement (.diagMargin mb) := Sys2Proof.Laws.noWord _
theorem Sys2Proof.Laws.NoWord.saggarGetStatus (mb : _) : Sys2Proof.Laws.NoWord.Statement (.saggarGetStatus mb) := Sys2Proof.Laws.noWord _
theorem Sys2Proof.Laws.NoWord.saggarSetPolicy (mb : _) : Sys2Proof.Laws.NoWord.Statement (.saggarSetPolicy mb) := Sys2Proof.Laws.noWord _
theorem Sys2Proof.Laws.NoWord.vaultConfig (mb : _) : Sys2Proof.Laws.NoWord.Statement (.vaultConfig mb) := Sys2Proof.Laws.noWord _
theorem Sys2Proof.Laws.NoWord.vaultTest (mb : _) : Sys2Proof.Laws.NoWord.Statement (.vaultTest mb) := Sys2Proof.Laws.noWord _
theorem Sys2Proof.Laws.NoWord.vaultTestEnd (rates : _) (memberError : _) : Sys2Proof.Laws.NoWord.Statement (.vaultTestEnd rates memberError) := Sys2Proof.Laws.noWord _
theorem Sys2Proof.Laws.NoWord.vaultGetStatus (mb : _) : Sys2Proof.Laws.NoWord.Statement (.vaultGetStatus mb) := Sys2Proof.Laws.noWord _
theorem Sys2Proof.Laws.NoWord.peerWindowConfig (mb : _) : Sys2Proof.Laws.NoWord.Statement (.peerWindowConfig mb) := Sys2Proof.Laws.noWord _
theorem Sys2Proof.Laws.NoWord.kcCommit (ch : _) : Sys2Proof.Laws.NoWord.Statement (.kcCommit ch) := Sys2Proof.Laws.noWord _
theorem Sys2Proof.Laws.NoWord.kcStart (ch : _) : Sys2Proof.Laws.NoWord.Statement (.kcStart ch) := Sys2Proof.Laws.noWord _
theorem Sys2Proof.Laws.NoWord.kcStop (ch : _) : Sys2Proof.Laws.NoWord.Statement (.kcStop ch) := Sys2Proof.Laws.noWord _
theorem Sys2Proof.Laws.NoWord.reqSet (mask : _) : Sys2Proof.Laws.NoWord.Statement (.reqSet mask) := Sys2Proof.Laws.noWord _
theorem Sys2Proof.Laws.NoWord.requestLinePulse (line : _) : Sys2Proof.Laws.NoWord.Statement (.requestLinePulse line) := Sys2Proof.Laws.noWord _
theorem Sys2Proof.Laws.NoWord.descriptorFetched (ch : _) (d : _) : Sys2Proof.Laws.NoWord.Statement (.descriptorFetched ch d) := Sys2Proof.Laws.noWord _
theorem Sys2Proof.Laws.NoWord.descriptorBoundary (ch : _) (commitNow : _) : Sys2Proof.Laws.NoWord.Statement (.descriptorBoundary ch commitNow) := Sys2Proof.Laws.noWord _
theorem Sys2Proof.Laws.NoWord.kcMemError (ch : _) (macroNo : _) (cell : _) (correctable : _) : Sys2Proof.Laws.NoWord.Statement (.kcMemError ch macroNo cell correctable) := Sys2Proof.Laws.noWord _
theorem Sys2Proof.Laws.NoWord.faultArrival (faults : _) : Sys2Proof.Laws.NoWord.Statement (.faultArrival faults) := Sys2Proof.Laws.noWord _
theorem Sys2Proof.Laws.NoWord.pendingWrite (index : _) (value : _) (coincident : _) : Sys2Proof.Laws.NoWord.Statement (.pendingWrite index value coincident) := Sys2Proof.Laws.noWord _
theorem Sys2Proof.Laws.NoWord.clearFirst (coincident : _) : Sys2Proof.Laws.NoWord.Statement (.clearFirst coincident) := Sys2Proof.Laws.noWord _
theorem Sys2Proof.Laws.NoWord.autoAck (source : _) : Sys2Proof.Laws.NoWord.Statement (.autoAck source) := Sys2Proof.Laws.noWord _
theorem Sys2Proof.Laws.NoWord.injectionApply (source : _) (coincident : _) : Sys2Proof.Laws.NoWord.Statement (.injectionApply source coincident) := Sys2Proof.Laws.noWord _
theorem Sys2Proof.Laws.NoWord.kilnLogHappening (h : _) : Sys2Proof.Laws.NoWord.Statement (.kilnLogHappening h) := Sys2Proof.Laws.noWord _
theorem Sys2Proof.Laws.NoWord.opMinuteTick (linkErrors : _) : Sys2Proof.Laws.NoWord.Statement (.opMinuteTick linkErrors) := Sys2Proof.Laws.noWord _
theorem Sys2Proof.Laws.NoWord.temperatureSample (t0 : _) (t1 : _) (t2 : _) (t3 : _) : Sys2Proof.Laws.NoWord.Statement (.temperatureSample t0 t1 t2 t3) := Sys2Proof.Laws.noWord _
theorem Sys2Proof.Laws.NoWord.dirtyLinesSample  : Sys2Proof.Laws.NoWord.Statement (.dirtyLinesSample) := Sys2Proof.Laws.noWord _
theorem Sys2Proof.Laws.NoWord.thermalTrip (sensor : _) : Sys2Proof.Laws.NoWord.Statement (.thermalTrip sensor) := Sys2Proof.Laws.noWord _
theorem Sys2Proof.Laws.NoWord.partitionVerified (partition : _) (slotB : _) (manifest : _) (digestOk : _) (ddrFailed : _) (ddrGiB : _) (ddrSpeed : _) : Sys2Proof.Laws.NoWord.Statement (.partitionVerified partition slotB manifest digestOk ddrFailed ddrGiB ddrSpeed) := Sys2Proof.Laws.noWord _
theorem Sys2Proof.Laws.NoWord.firingRecordSigned  : Sys2Proof.Laws.NoWord.Statement (.firingRecordSigned) := Sys2Proof.Laws.noWord _
theorem Sys2Proof.Laws.NoWord.bootOk  : Sys2Proof.Laws.NoWord.Statement (.bootOk) := Sys2Proof.Laws.noWord _
theorem Sys2Proof.Laws.NoWord.recoveryProgressReport (arrays : _) (stripes : _) : Sys2Proof.Laws.NoWord.Statement (.recoveryProgressReport arrays stripes) := Sys2Proof.Laws.noWord _
theorem Sys2Proof.Laws.NoWord.bootOkDeadlineExpired  : Sys2Proof.Laws.NoWord.Statement (.bootOkDeadlineExpired) := Sys2Proof.Laws.noWord _
theorem Sys2Proof.Laws.NoWord.newImageReady  : Sys2Proof.Laws.NoWord.Statement (.newImageReady) := Sys2Proof.Laws.noWord _
theorem Sys2Proof.Laws.NoWord.activationReadyTimeout  : Sys2Proof.Laws.NoWord.Statement (.activationReadyTimeout) := Sys2Proof.Laws.noWord _
theorem Sys2Proof.Laws.NoWord.pllUnlock (pll : _) : Sys2Proof.Laws.NoWord.Statement (.pllUnlock pll) := Sys2Proof.Laws.noWord _
theorem Sys2Proof.Laws.NoWord.resetNotification (n : _) : Sys2Proof.Laws.NoWord.Statement (.resetNotification n) := Sys2Proof.Laws.noWord _
theorem Sys2Proof.Laws.NoWord.crossingHandshake (unit : _) : Sys2Proof.Laws.NoWord.Statement (.crossingHandshake unit) := Sys2Proof.Laws.noWord _
theorem Sys2Proof.Laws.NoWord.wakeRequest (domain : _) (index : _) : Sys2Proof.Laws.NoWord.Statement (.wakeRequest domain index) := Sys2Proof.Laws.noWord _
theorem Sys2Proof.Laws.NoWord.clockStop (domain : _) (index : _) : Sys2Proof.Laws.NoWord.Statement (.clockStop domain index) := Sys2Proof.Laws.noWord _
theorem Sys2Proof.Laws.NoWord.d2dLaneFailed (bundle : _) (lane : _) : Sys2Proof.Laws.NoWord.Statement (.d2dLaneFailed bundle lane) := Sys2Proof.Laws.noWord _
theorem Sys2Proof.Laws.NoWord.d2dSpareFailed (bundle : _) (lane : _) : Sys2Proof.Laws.NoWord.Statement (.d2dSpareFailed bundle lane) := Sys2Proof.Laws.noWord _
theorem Sys2Proof.Laws.NoWord.testDurationExpired (mb : _) (results : _) : Sys2Proof.Laws.NoWord.Statement (.testDurationExpired mb results) := Sys2Proof.Laws.noWord _
theorem Sys2Proof.Laws.NoWord.marginDwellExpired (mb : _) (errors : _) : Sys2Proof.Laws.NoWord.Statement (.marginDwellExpired mb errors) := Sys2Proof.Laws.noWord _
theorem Sys2Proof.Laws.NoWord.mbistComplete (mb : _) (failing : _) (corrected : _) (loc : _) (cell : _) : Sys2Proof.Laws.NoWord.Statement (.mbistComplete mb failing corrected loc cell) := Sys2Proof.Laws.noWord _
theorem Sys2Proof.Laws.NoWord.jtagInstruction (instr : _) : Sys2Proof.Laws.NoWord.Statement (.jtagInstruction instr) := Sys2Proof.Laws.noWord _
theorem Sys2Proof.Laws.NoWord.trst  : Sys2Proof.Laws.NoWord.Statement (.trst) := Sys2Proof.Laws.noWord _
theorem Sys2Proof.Laws.NoWord.prsntHoldoffExpired (port : _) : Sys2Proof.Laws.NoWord.Statement (.prsntHoldoffExpired port) := Sys2Proof.Laws.noWord _
theorem Sys2Proof.Laws.NoWord.restartWaitExpired  : Sys2Proof.Laws.NoWord.Statement (.restartWaitExpired) := Sys2Proof.Laws.noWord _
theorem Sys2Proof.Laws.NoWord.controlComplexRestarted  : Sys2Proof.Laws.NoWord.Statement (.controlComplexRestarted) := Sys2Proof.Laws.noWord _
theorem Sys2Proof.Laws.NoWord.trialDirtyWaitExpired  : Sys2Proof.Laws.NoWord.Statement (.trialDirtyWaitExpired) := Sys2Proof.Laws.noWord _
theorem Sys2Proof.Laws.NoWord.checkerLockChange (mb : _) (lane : _) (locked : _) : Sys2Proof.Laws.NoWord.Statement (.checkerLockChange mb lane locked) := Sys2Proof.Laws.noWord _
end

