-- ==== Sys2Proof/WellFormed.lean ====
section
/-! DEFINITION. Which operands a command can carry: the ranges that the spec gives the things they name (mailboxes of
R360, channels of R412, ports of R547, queues of R337, sources of R435, arrays of 00_scope). -/
namespace Sys2Proof

/-- Every operand lies in the range of what it names. -/
def wellFormed : Instr → Bool
  | .auxPowerOn _ _ => true
  | .auxPowerRemoved => true
  | .mainPwrokAsserted _ _ => true
  | .mainPwrokDeasserted => true
  | .pfailFall => true
  | .pfailRise => true
  | .filteredAssertion => true
  | .resumeCountExpired => true
  | .arrayRecoveryStart _ => true
  | .perstAsserted => true
  | .perstDeasserted => true
  | .hostLinkTrained _ _ _ => true
  | .hostLinkDown => true
  | .configRequest _ _ value => decide (value < 18446744073709551616)
  | .flr => true
  | .flrComplete => true
  | .d3hotEntry => true
  | .d3hotToD0 => true
  | .barSizeWrite _ => true
  | .expansionRomRead _ _ => true
  | .peerWindowRequest _ _ len _ data => decide (data.length ≤ len)
  | .pwCommit value => decide (value < 18446744073709551616)
  | .msixTableWrite _ _ => true
  | .translationCompletion sqid cid _ _ _ => decide (sqid < 4096) && decide (cid < 65536)
  | .atsInvalidateRequest _ _ _ => true
  | .invalidationComplete _ => true
  | .hostCompletionReceived tag _ _ => decide (tag < 1024)
  | .completionTimeout tag _ => decide (tag < 1024)
  | .tagQuarantineExpired tag => decide (tag < 1024)
  | .turnBoundary _ => true
  | .planningWindow => true
  | .gatherAgeExpired array _ => decide (array < 64)
  | .ftSnap0Read => true
  | .rcRegisterRead _ => true
  | .loRegisterRead _ => true
  | .hiRegisterRead _ => true
  | .registerWrite _ value => decide (value < 18446744073709551616)
  | .reservedAccess _ _ => true
  | .absentUnitAccess _ _ => true
  | .globalEventWrite value _ => decide (value < 18446744073709551616)
  | .kilnPieceComplete _ _ => true
  | .decodeMatrixDerived kiln array _ => decide (kiln < 4) && decide (array < 64)
  | .permutationComputed array _ _ => decide (array < 64)
  | .kilnMemError kiln _ _ _ _ _ => decide (kiln < 4)
  | .saggarPieceComplete _ => true
  | .ddrEccError channel _ _ _ => decide (channel < 8)
  | .burstComplete _ => true
  | .hostDataLanded sqid cid sector data pi => decide (sqid < 4096) && decide (cid < 65536) && decide (sector < 256) && decide (data.length ≤ 4096) && decide (pi.length ≤ 8)
  | .completionPost sqid cid => decide (sqid < 4096) && decide (cid < 65536)
  | .commandFetch sqid _ => decide (sqid < 4096)
  | .coalescingTimer _ => true
  | .controllerReady => true
  | .ccEnable value => decide (value < 18446744073709551616)
  | .ccDisable value => decide (value < 18446744073709551616)
  | .shutdownNotification value => decide (value < 18446744073709551616)
  | .intmsWrite value => decide (value < 18446744073709551616)
  | .intmcWrite value => decide (value < 18446744073709551616)
  | .sqTailDoorbell qid value => decide (qid < 4096) && decide (value < 18446744073709551616)
  | .cqHeadDoorbell qid value => decide (qid < 4096) && decide (value < 18446744073709551616)
  | .deleteIoSubmissionQueue cid => decide (cid < 65536)
  | .createIoSubmissionQueue cid => decide (cid < 65536)
  | .getLogPage cid => decide (cid < 65536)
  | .deleteIoCompletionQueue cid => decide (cid < 65536)
  | .createIoCompletionQueue cid => decide (cid < 65536)
  | .identify cid => decide (cid < 65536)
  | .abortCmd cid => decide (cid < 65536)
  | .setFeatures cid _ => decide (cid < 65536)
  | .getFeatures cid => decide (cid < 65536)
  | .asynchronousEventRequest cid => decide (cid < 65536)
  | .flush sqid cid => decide (sqid < 4096) && decide (cid < 65536)
  | .write sqid cid => decide (sqid < 4096) && decide (cid < 65536)
  | .read sqid cid => decide (sqid < 4096) && decide (cid < 65536)
  | .writeZeroes sqid cid => decide (sqid < 4096) && decide (cid < 65536)
  | .datasetManagement sqid cid => decide (sqid < 4096) && decide (cid < 65536)
  | .verify sqid cid => decide (sqid < 4096) && decide (cid < 65536)
  | .memberCommandComplete _ _ _ => true
  | .doneRoundPersistTimer => true
  | .memberLinkDown port => decide (port < 48)
  | .linkErrorThreshold _ => true
  | .portTrainingComplete _ _ _ => true
  | .memberIdentityRead _ _ => true
  | .unavailLimitExpired _ => true
  | .controllerFatal _ => true
  | .memberTimeoutExpired _ => true
  | .memberAbortTimeout _ => true
  | .memberControllerResetDone port _ => decide (port < 48)
  | .memberLateCompletion _ => true
  | .cidQuarantineExpired _ => true
  | .slowReadExpired _ => true
  | .patrolScrubDue array => decide (array < 64)
  | .prsntChange port _ => decide (port < 48)
  | .prsntDebounceExpired port => decide (port < 48)
  | .memberPerstDelayExpired port => decide (port < 48)
  | .slipFlitReceived _ => true
  | .slipSilenceTimeout => true
  | .slipLinkUp => true
  | .hello _ _ _ _ _ _ _ => true
  | .records _ side _ => decide (side < 2)
  | .line _ side _ _ => decide (side < 2)
  | .endMsg _ side _ _ => decide (side < 2)
  | .progress _ _ _ _ _ => true
  | .snapshotBegin _ => true
  | .snapshotEnd _ => true
  | .handover _ _ _ _ => true
  | .statePage _ side _ _ _ _ => decide (side < 2)
  | .partnerLost => true
  | .side1DelayExpired _ => true
  | .reservationCheckDue => true
  | .reservationReportDone array _ => decide (array < 64)
  | .fenceWaitExpired array _ => decide (array < 64)
  | .moveDrainComplete array => decide (array < 64)
  | .drillHoldExpired array => decide (array < 64)
  | .openReq _ _ => true
  | .challenge _ _ _ => true
  | .confirm _ _ _ => true
  | .accept _ _ _ => true
  | .ack _ _ => true
  | .nak _ _ _ => true
  | .close _ _ => true
  | .closeAck _ _ => true
  | .send _ data => decide (data.length ≤ 8192)
  | .coilWrite _ data => decide (data.length ≤ 8192)
  | .readReq _ => true
  | .readResp _ data => decide (data.length ≤ 8192)
  | .nonCoilPacket _ port => decide (port < 2)
  | .pauseFrame port => decide (port < 2)
  | .openRetryTimer _ => true
  | .busyBackoffExpired _ => true
  | .ackTimer _ => true
  | .rtoExpired _ _ => true
  | .giveUp _ _ => true
  | .closeTimeout _ => true
  | .remoteKeepaliveTimer _ => true
  | .remoteSilenceTimeout _ => true
  | .coilPortLinkDown port => decide (port < 2)
  | .mbLockWrite mb value => decide (mb < 16) && decide (value < 18446744073709551616)
  | .mbRing mb _ => decide (mb < 16)
  | .mbCancel mb => decide (mb < 16)
  | .sidebandMailboxHostAccess mb _ _ => decide (mb < 16)
  | .mailboxTake => true
  | .mciInputReadDone mb _ _ => decide (mb < 16)
  | .mciComplete mb _ => decide (mb < 16)
  | .sidebandWrite mb _ data => decide (mb < 16) && decide (data.length ≤ 1024)
  | .sidebandRead mb _ _ => decide (mb < 16)
  | .sidebandRing mb => decide (mb < 16)
  | .sidebandCancel mb => decide (mb < 16)
  | .getState mb => decide (mb < 16)
  | .wakeHost mb => decide (mb < 16)
  | .setEndpointId eid => decide (eid < 256)
  | .getEndpointId => true
  | .getMctpVersionSupport _ => true
  | .getMessageTypeSupport => true
  | .getVendorDefinedMessageSupport _ => true
  | .identifyDevice mb => decide (mb < 16)
  | .getLimits mb => decide (mb < 16)
  | .deviceSetConfig mb => decide (mb < 16)
  | .deviceRestart mb => decide (mb < 16)
  | .unitControl mb _ => decide (mb < 16)
  | .memberList mb => decide (mb < 16)
  | .memberAdopt mb => decide (mb < 16)
  | .memberRelease mb => decide (mb < 16)
  | .memberFail mb => decide (mb < 16)
  | .memberReplace mb => decide (mb < 16)
  | .arrayCreate mb => decide (mb < 16)
  | .arrayDelete mb => decide (mb < 16)
  | .arrayImport mb _ => decide (mb < 16)
  | .arrayExpand mb => decide (mb < 16)
  | .arrayMigrate mb => decide (mb < 16)
  | .arrayGet mb => decide (mb < 16)
  | .arrayExport mb => decide (mb < 16)
  | .volumeCreate mb => decide (mb < 16)
  | .volumeDelete mb => decide (mb < 16)
  | .volumeResize mb => decide (mb < 16)
  | .volumeSetPolicy mb => decide (mb < 16)
  | .volumeList mb => decide (mb < 16)
  | .rebuildGetStatus mb => decide (mb < 16)
  | .rebuildSetPolicy mb => decide (mb < 16)
  | .rebuildStart mb => decide (mb < 16)
  | .scrubStart mb => decide (mb < 16)
  | .scrubStop mb => decide (mb < 16)
  | .lostExtentsGet mb => decide (mb < 16)
  | .twinPair mb => decide (mb < 16)
  | .twinUnpair mb => decide (mb < 16)
  | .twinGetStatus mb => decide (mb < 16)
  | .twinSetPolicy mb => decide (mb < 16)
  | .twinMoveArray mb => decide (mb < 16)
  | .twinSwapDrill mb _ _ _ => decide (mb < 16)
  | .twinTakeover mb => decide (mb < 16)
  | .coilGetStatus mb => decide (mb < 16)
  | .coilConfig mb => decide (mb < 16)
  | .coilSetTrust mb => decide (mb < 16)
  | .coilRegionRegister mb => decide (mb < 16)
  | .coilRegionDeregister mb => decide (mb < 16)
  | .coilRecvPost mb => decide (mb < 16)
  | .coilExportMember mb => decide (mb < 16)
  | .ownershipGet mb => decide (mb < 16)
  | .ownershipClaim mb => decide (mb < 16)
  | .ownershipTransfer mb => decide (mb < 16)
  | .policySet mb => decide (mb < 16)
  | .debugUnlock mb => decide (mb < 16)
  | .decommission mb => decide (mb < 16)
  | .firingRecordGet mb => decide (mb < 16)
  | .attestQuote mb => decide (mb < 16)
  | .certGet mb => decide (mb < 16)
  | .kilnLogGet mb => decide (mb < 16)
  | .kilnLogClear mb => decide (mb < 16)
  | .hostTimeHint mb => decide (mb < 16)
  | .fwDownload mb _ _ => decide (mb < 16)
  | .fwActivate mb => decide (mb < 16)
  | .fwGetStatus mb => decide (mb < 16)
  | .faultGet mb => decide (mb < 16)
  | .faultAck mb coincident => decide (mb < 16) && coincident.all (fun f => f.source < 512)
  | .faultSetSeverity mb => decide (mb < 16)
  | .faultInject mb => decide (mb < 16)
  | .diagPattern mb => decide (mb < 16)
  | .diagMbist mb => decide (mb < 16)
  | .diagMargin mb => decide (mb < 16)
  | .saggarGetStatus mb => decide (mb < 16)
  | .saggarSetPolicy mb => decide (mb < 16)
  | .vaultConfig mb => decide (mb < 16)
  | .vaultTest mb => decide (mb < 16)
  | .vaultTestEnd _ _ => true
  | .vaultGetStatus mb => decide (mb < 16)
  | .peerWindowConfig mb => decide (mb < 16)
  | .kcCommit ch => decide (ch < 64)
  | .kcStart ch => decide (ch < 64)
  | .kcStop ch => decide (ch < 64)
  | .reqSet _ => true
  | .requestLinePulse line => decide (line < 96)
  | .descriptorFetched ch _ => decide (ch < 64)
  | .descriptorBoundary ch _ => decide (ch < 64)
  | .kcMemError ch _ _ _ => decide (ch < 64)
  | .faultArrival faults => faults.all (fun f => f.source < 512)
  | .pendingWrite index _ coincident => decide (index < 16) && coincident.all (fun f => f.source < 512)
  | .clearFirst coincident => coincident.all (fun f => f.source < 512)
  | .autoAck source => decide (source < 512)
  | .injectionApply source coincident => decide (source < 512) && coincident.all (fun f => f.source < 512)
  | .kilnLogHappening _ => true
  | .opMinuteTick _ => true
  | .temperatureSample _ _ _ _ => true
  | .dirtyLinesSample => true
  | .thermalTrip sensor => decide (sensor < 4)
  | .partitionVerified _ _ _ _ _ _ _ => true
  | .firingRecordSigned => true
  | .bootOk => true
  | .recoveryProgressReport _ _ => true
  | .bootOkDeadlineExpired => true
  | .newImageReady => true
  | .activationReadyTimeout => true
  | .pllUnlock pll => decide (pll < 5)
  | .resetNotification _ => true
  | .crossingHandshake _ => true
  | .wakeRequest _ _ => true
  | .clockStop _ _ => true
  | .d2dLaneFailed bundle lane => decide (bundle < 16) && decide (lane < 36)
  | .d2dSpareFailed bundle lane => decide (bundle < 16) && decide (lane < 36)
  | .testDurationExpired mb _ => decide (mb < 16)
  | .marginDwellExpired mb _ => decide (mb < 16)
  | .mbistComplete mb _ _ _ _ => decide (mb < 16)
  | .jtagInstruction _ => true
  | .trst => true
  | .prsntHoldoffExpired port => decide (port < 48)
  | .restartWaitExpired => true
  | .controlComplexRestarted => true
  | .trialDirtyWaitExpired => true
  | .checkerLockChange mb _ _ => decide (mb < 16)

end Sys2Proof
end

