-- ==== Sys2Proof/Tests/Slice0.lean ====
section
/-! SUPPORT. The tests of the model: witnesses for the hypotheses of every statement, the worked examples of the spec, and ill-formed terms. -/
namespace Sys2Proof.Machine

-- One proof at a time: each one's evaluation would otherwise hold a thread of its own.
set_option Elab.async false

/-! ### Small states that the tests start from -/

/-- Powered, booted and in service, with an empty pool. -/
def tUp : State where
  pins := { main := true, perst := false, pfailRaw := false, pfailFiltered := false, resumeDone := true }
  sched := { running := true, kilnSet := 15, service := 0x1FFFFF }
  sec := { bootStep := 6 }
  cfg := { mse := true, busMaster := true }
  ep := { up := true, speed := 6, width := 16, flit := true }
/-- A namespace of port `p`, member `p` of the array below. -/
def tNs (p : Nat) : Ns where
  id := p * 2 ^ 32 + 1
  loc := { port := p, nsid := 1 }
  ident := { uid := 100 + p, capacity := 1000000 }
  dataStart := 70000
  dataSectors := 900000
  markValid := true
  arrayUid := 77
  markGen := 1
  poolIndex := p
  adopted := true
/-- A 2+1 array of three members with one volume. -/
def tA : Arr where
  service := 2
  markGen := 1
  body := { uid := 77, gen := 1, members := (List.range 3).map (fun p => { uid := 100 + p, port := p, dataStart := 70000, dataSectors := 900000 }),
            volumes := [{ capacity := 65536 }], extents := [{ len := 65536 }], journalMembers := [0, 1, 2], volumeIdNext := 2,
            desc := { rounds := 56250 } }
/-- The device in service with that array. -/
def tArr : State := { tUp with arr := { ns := [tNs 0, tNs 1, tNs 2], arrays := [tA], ports := List.replicate 48 { present := true, level := true, power := true, refclk := true, perst := false, up := true } } }
/-- Mailbox `mb` holds a command that has been taken. -/
def tMb (mb op : Nat) (params : Bytes) (s : State) : State :=
  onMb mb (fun m => { m with lock := 1, st := .executing, opcode := op, params := params, paramLen := params.length }) s
/-- The same with an input payload. -/
def tMbP (payload : Bytes) (op : Nat) (params : Bytes) (s : State) : State := onMb 0 (fun m => { m with payload := payload }) (tMb 0 op params s)
/-- The controller ready, with an admin and an I/O queue pair and the commands admitted. -/
def tQ (l : List Cmd) : State := { tArr with nvme := {
  cc := 0x00460001, rdy := true, sqs := [{ qid := 0, size := 16, tail := 1 }, { qid := 1, size := 16, cqid := 1, tail := 1 }],
  cqs := [{ qid := 0, size := 16 }, { qid := 1, size := 16 }], admitted := l } }
/-- An admin command admitted. -/
def tAdm (e : SqEntry) : Cmd := { e := e, admittedAt := some 0 }
/-- A one-sector I/O command of queue 1 on volume 1, admitted. -/
def tIo (e : SqEntry) : Cmd := { sqid := 1, e := e, admittedAt := some 0, nlb := 1, todo := [0], volume := 1, seq := 5 }
/-- Twinned with partner 9, the link up and mirroring; the array is shared and `own` says whether this side owns it. -/
def tTw (own : Bool) : State := { tArr with
  arr := { tArr.arr with arrays := [{ tA with shared := true, owner := own }] }
  twin := { bound := some 9, partner := some 9, mode := 1, areaReady := true, st := .mirroring, up := true, trained := true, helloGot := true, helloOk := true, lanes := 8 }
  sag := { poolLines := 1024, rxAreaLines := 4 } }
/-- Coil port 0 up, trust slot 0 valid, node 2 in the directory, and the associations `l`. -/
def tCoil (l : List Assoc) : State := { tArr with
  coil := {
    linkUp := 1
    slot0 := { valid := true, secret := 7 }
    directory := [(2, 0)]
    assocs := l
    regions := [{ idx := 1, live := true, gen := 1, len := 8192, read := true, write := true }] }
  pw := { active := [(0, { valid := true, read := true, write := true, pages := 2, off := 4096 })] } }
/-- A header from node 2. -/
def tHdr : CoilHdr := { src := 2, dst := 1 }
/-- The established association with node 2. -/
def tAs : Assoc := { no := 0, peer := 2, st := .established }

/-! ### Witnesses: for every clause of every statement with hypotheses, states and operands that meet all of them -/

theorem test_witness_PowerEffects :
    ((fun (s : State) => (¬ (s.pins.pfailRaw ∧ s.pins.pfailFilter))) State.reset) ∧
    ((fun (s : State) => (s.pins.pfailRaw) ∧ (s.pins.pfailFilter)) ({ tArr with pins := { tArr.pins with pfailRaw := true, pfailFilter := true }, vault := { tArr.vault with armed := true } })) ∧
    ((fun (s : State) => (s.pins.pfailRaw) ∧ (s.pins.pfailFilter)) ({ tUp with pins := { tUp.pins with pfailRaw := true, pfailFilter := true }, dev := { tUp.dev with recovering := true } })) ∧
    ((fun (s : State) => (¬ s.pins.resumeCounting ∨ s.pins.pfailRaw)) ({ tUp with pins := { tUp.pins with pfailRaw := true } })) ∧
    ((fun (s : State) => (s.pins.resumeCounting) ∧ (¬ s.pins.pfailRaw) ∧ (s.vault.phase ≠ .holding)) ({ tUp with pins := { tUp.pins with resumeCounting := true } })) ∧
    ((fun (s : State) => (¬ s.pins.main)) State.reset) ∧
    ((fun (s : State) => (s.pins.main)) tUp) ∧
    ((fun (s : State) => (s.pins.aux) ∧ (s.pins.main)) tUp) ∧
    ((fun (s : State) => (¬ s.pins.aux)) ({ tUp with pins := { tUp.pins with aux := false, main := false } })) ∧
    ((fun (s : State) => (s.pins.aux) ∧ (¬ s.pins.main)) ({ State.reset with fc := { State.reset.fc with fatal := true }, pins := { State.reset.pins with faultPin := true } })) ∧
    ((fun (s : State) => (¬ s.pins.aux)) ({ tUp with pins := { tUp.pins with aux := false } })) ∧
    ((fun (s : State) => (s.pins.aux) ∧ (s.pins.main)) tUp) ∧
    ((fun (s : State) => (s.pins.aux) ∧ (¬ s.pins.main)) State.reset) ∧
    ((fun (s : State) => (s.pins.aux) ∧ (¬ s.pins.main)) ({ State.reset with clk := { State.reset.clk with started := true, keeper := 2 ^ 48 } })) ∧
    ((fun (s : State) => (¬ s.pins.main)) State.reset) ∧
    ((fun (s : State) => (s.pins.main)) tArr) := by
  refine ⟨?_, ?_, ?_, ?_, ?_, ?_, ?_, ?_, ?_, ?_, ?_, ?_, ?_, ?_, ?_, ?_⟩ <;> decide +kernel

theorem test_witness_HostLinkEffects :
    ((fun (s : State) => (s.pins.perst)) State.reset) ∧
    ((fun (s : State) => (¬ s.pins.perst)) tUp) ∧
    ((fun (s : State) => (¬ (s.pins.main ∧ ¬ s.pins.perst))) State.reset) ∧
    ((fun (s : State) => (s.pins.main) ∧ (¬ s.pins.perst)) tUp) ∧
    ((fun (s : State) => (s.pins.main) ∧ (¬ s.pins.perst)) tUp) ∧
    ((fun (s : State) => (¬ s.memReachable)) ({ tUp with sec := { tUp.sec with bootStep := 2 } })) ∧
    ((fun (s : State) => (s.memReachable)) tUp) ∧
    ((fun (s : State) => (¬ s.reachable ∨ ¬ s.ep.d3hot)) tUp) ∧
    ((fun (s : State) => (s.reachable) ∧ (s.ep.d3hot)) ({ tUp with ep := { tUp.ep with d3hot := true } })) := by
  refine ⟨?_, ?_, ?_, ?_, ?_, ?_, ?_, ?_, ?_⟩ <;> decide +kernel

theorem test_witness_ConfigSpaceEffects :
    ((fun (s : State) => (¬ s.reachable)) ({ tUp with pins := { tUp.pins with main := false } })) ∧
    ((fun (s : State) => (s.reachable) ∧ (¬ s.bootReleased ∨ s.ep.flrActive)) ({ tUp with sec := { tUp.sec with bootStep := 2 } })) ∧
    ((fun (s : State) => (s.reachable) ∧ (s.bootReleased) ∧ (¬ s.ep.flrActive)) tUp) ∧
    ((fun (s : State) => (s.reachable) ∧ (s.bootReleased) ∧ (¬ s.ep.flrActive)) tUp) ∧
    ((fun (off : Nat) (len : Nat) (s : State) => (s.memReachable) ∧ (off + len ≤ 0x80000)) 0x7FFF0 16 tUp) ∧
    ((fun (off : Nat) (len : Nat) (s : State) => (¬ (s.memReachable ∧ off + len ≤ 0x80000))) 0x80000 1 tUp) ∧
    ((fun (off : Nat) (data : Bytes) (s : State) => (¬ (s.memReachable ∧ off < 32768 ∧ off % 16 + data.length ≤ 16))) 32768 ([]) tUp) ∧
    ((fun (off : Nat) (data : Bytes) (s : State) => (s.memReachable) ∧ (off < 32768) ∧ (off % 16 + data.length ≤ 16) ∧ (s.cfg.irqMode ≠ 3)) 32764 ([1, 2, 3, 4]) tUp) ∧
    ((fun (off : Nat) (data : Bytes) (s : State) => (s.memReachable) ∧ (off < 32768) ∧ (off % 16 + data.length ≤ 16)) 32752 (List.replicate 16 1) ({ tUp with cfg := { tUp.cfg with irqMode := 3, msixEn := true } })) := by
  refine ⟨?_, ?_, ?_, ?_, ?_, ?_, ?_, ?_, ?_⟩ <;> decide +kernel

theorem test_witness_PeerWindowEffects :
    ((fun (s : State) => (¬ s.memReachable)) ({ tUp with pins := { tUp.pins with main := false } })) ∧
    ((fun (off : Nat) (len : Nat) (s : State) (a : Nat) => (s.memReachable) ∧ (pwTranslate s true off len = some a)) (255 * 4194304 + 4092) 4 ({ tUp with pw := { tUp.pw with active := [(255, { valid := true, read := true, write := true, pages := 1, off := 8192 })] } }) 12284) ∧
    ((fun (off : Nat) (len : Nat) (s : State) (a : Nat) => (s.memReachable) ∧ (pwTranslate s false off len = some a)) (255 * 4194304 + 4092) 4 ({ tUp with pw := { tUp.pw with active := [(255, { valid := true, read := true, write := true, pages := 1, off := 8192 })] } }) 12284) ∧
    ((fun (s : State) => (s.memReachable)) tUp) ∧
    ((fun (w : Bool) (off : Nat) (len : Nat) (s : State) => (s.memReachable) ∧ (pwTranslate s w off len = none)) true (255 * 4194304 + 4093) 4 ({ tUp with pw := { tUp.pw with active := [(255, { valid := true, read := true, write := true, pages := 1, off := 8192 })] } })) ∧
    ((fun (w : Bool) (off : Nat) (len : Nat) (s : State) => (s.memReachable) ∧ (pwTranslate s w off len = none)) false 0 4 tUp) := by
  refine ⟨?_, ?_, ?_, ?_, ?_, ?_⟩ <;> decide +kernel

theorem test_witness_TranslationAndTagEffects :
    ((fun (s : State) => (¬ s.cfg.atsEn)) tUp) ∧
    ((fun (w : Bool) (rd : Bool) (wr : Bool) (s : State) => (s.cfg.atsEn) ∧ ((if w then wr else rd) = true)) true false true ({ tUp with cfg := { tUp.cfg with atsEn := true }, ep := { tUp.ep with atc := [(7, true, false), (8, true, true)] } })) ∧
    ((fun (w : Bool) (rd : Bool) (wr : Bool) (s : State) => (s.cfg.atsEn) ∧ ((if w then wr else rd) = true)) false true false ({ tUp with cfg := { tUp.cfg with atsEn := true } })) ∧
    ((fun (s : State) => (s.cfg.atsEn)) ({ tUp with cfg := { tUp.cfg with atsEn := true } })) ∧
    ((fun (s : State) => (s.cfg.atsEn)) ({ tUp with cfg := { tUp.cfg with atsEn := true } })) ∧
    ((fun (i : Nat) (x : Nat × Nat × Nat × List Nat) (s : State) => (s.ep.invalidations.find? (fun y => y.1 == i) = some x) ∧ (¬ s.ep.reqs.any (fun r => x.2.2.2.contains r.1))) 3 ((3, 0, 1, [9])) ({ tUp with ep := { tUp.ep with invalidations := [(3, 0, 1, [9])] } })) ∧
    ((fun (g : Nat) (s : State) => (s.ep.quarantined.contains g)) 9 ({ tUp with ep := { tUp.ep with quarantined := [9] } })) ∧
    ((fun (g : Nat) (s : State) => (¬ s.ep.quarantined.contains g) ∧ (s.hostReq g = none)) 1023 tUp) ∧
    ((fun (g : Nat) (ch : Nat) (p : Bool) (s : State) => (¬ s.ep.quarantined.contains g) ∧ (s.hostReq g = some (.channel ch p))) 9 63 true ({ tUp with ep := { tUp.ep with reqs := [(9, .channel 63 true)] } })) ∧
    ((fun (g : Nat) (s : State) => (s.hostReq g = none)) 0 tUp) ∧
    ((fun (g : Nat) (s : State) => ((s.hostReq g).isSome)) 9 ({ tUp with ep := { tUp.ep with reqs := [(9, .mciInput 0)] } })) ∧
    ((fun (g : Nat) (s : State) => ((s.hostReq g).isSome)) 9 ({ tUp with ep := { tUp.ep with reqs := [(9, .channel 63 true)] } })) ∧
    ((fun (g : Nat) (s : State) => ((s.hostReq g).isSome)) 9 ({ tUp with ep := { tUp.ep with reqs := [(9, .writeData 1 2 3)] } })) := by
  refine ⟨?_, ?_, ?_, ?_, ?_, ?_, ?_, ?_, ?_, ?_, ?_, ?_, ?_⟩ <;> decide +kernel

theorem test_witness_TurnTime :
    ((fun (s : State) => (¬ s.sched.running)) State.reset) ∧
    ((fun (s : State) => (s.sched.running)) tArr) ∧
    ((fun (s : State) => (s.sched.running)) ({ tUp with hw := { tUp.hw with turn := 2 ^ 48 - 1 } })) ∧
    ((fun (s : State) => (s.sched.running)) ({ tUp with sec := { tUp.sec with trialFailed := true } })) ∧
    ((fun (s : State) => (¬ s.sched.running ∨ s.sched.planned)) State.reset) ∧
    ((fun (s : State) => (s.sched.running) ∧ (¬ s.sched.planned)) tArr) ∧
    ((fun (s : State) => (s.sched.running) ∧ (¬ s.sched.planned)) ({ tUp with hw := { tUp.hw with cycle := 1000 } })) ∧
    ((fun (s : State) => (s.hostReaches 0x1008)) tUp) := by
  refine ⟨?_, ?_, ?_, ?_, ?_, ?_, ?_, ?_⟩ <;> decide +kernel

theorem test_witness_RegisterAccessEffects :
    ((fun (off : Nat) (s : State) => (s.hostReaches off)) 0x1008 tUp) ∧
    ((fun (off : Nat) (s : State) => (s.hostReaches off)) 0x34 tUp) ∧
    ((fun (s : State) => (s.hostReaches 0x44)) tUp) ∧
    ((fun (s : State) => (¬ s.reachable ∨ s.ep.d3hot)) State.reset) ∧
    ((fun (off : Nat) (s : State) => (s.hostReaches off) ∧ (isLo off)) 0x14008 tUp) ∧
    ((fun (off : Nat) (v : Nat) (s : State) => (s.hostReaches off) ∧ (lookup s.clk.latches off = some v)) 0x1400C 5 ({ tUp with clk := { tUp.clk with latches := [(0x1400C, 5)] } })) ∧
    ((fun (off : Nat) (s : State) => (s.hostReaches off) ∧ (lookup s.clk.latches off = none)) 0x1400C tUp) ∧
    ((fun (s : State) => (s.hostReaches 0x3004)) tUp) ∧
    ((fun (s : State) => (s.hostReaches 0x34)) tUp) ∧
    ((fun (off : Nat) (s : State) => (s.reachable) ∧ (¬ s.ep.d3hot) ∧ (s.memReachable) ∧ (¬ (0x3C000 ≤ off ∧ off < 0x40000)) ∧ (¬ absentReg off s) ∧ (regAt off s = none)) 0xFFC tUp) ∧
    ((fun (off : Nat) (s : State) => (s.reachable) ∧ (¬ s.ep.d3hot) ∧ (s.memReachable) ∧ (¬ (0x3C000 ≤ off ∧ off < 0x40000)) ∧ (absentReg off s)) 0x9000 ({ tUp with hw := { tUp.hw with present := 0 } })) ∧
    ((fun (off : Nat) (s : State) => (s.reachable) ∧ (¬ s.ep.d3hot) ∧ (s.memReachable) ∧ (¬ (0x3C000 ≤ off ∧ off < 0x40000)) ∧ (absentReg off s)) 0x103C ({ tUp with hw := { tUp.hw with present := 0 } })) ∧
    ((fun (s : State) => (s.hostReaches 0x30)) ({ tUp with sched := { tUp.sched with globalEvent := 5 } })) := by
  refine ⟨?_, ?_, ?_, ?_, ?_, ?_, ?_, ?_, ?_, ?_, ?_, ?_, ?_⟩ <;> decide +kernel

theorem test_witness_ControllerEffects :
    ((fun (v : Nat) (s : State) => (¬ ccEn s.nvme.cc) ∧ (bit v 0) ∧ (v / 16 % 8 = 0) ∧ (v / 2048 % 8 = 0) ∧ (v / 128 % 16 ≤ 4)) 0x00460001 tUp) ∧
    ((fun (v : Nat) (s : State) => (¬ ccEn s.nvme.cc) ∧ (bit v 0) ∧ (v / 16 % 8 = 0) ∧ (v / 2048 % 8 = 0) ∧ (v / 128 % 16 ≤ 4)) 0x00460201 tUp) ∧
    ((fun (v : Nat) (s : State) => (¬ ccEn s.nvme.cc) ∧ (bit v 0) ∧ (¬ (v / 16 % 8 = 0 ∧ v / 2048 % 8 = 0 ∧ v / 128 % 16 ≤ 4))) 0x281 tUp) ∧
    ((fun (v : Nat) (s : State) => (ccEn s.nvme.cc) ∧ (¬ bit v 0)) 0x00460000 (tQ [tIo {}])) ∧
    ((fun (v : Nat) => (v / 16384 % 4 = 1 ∨ v / 16384 % 4 = 2)) 0x4000) ∧
    ((fun (v : Nat) => (v / 16384 % 4 = 1 ∨ v / 16384 % 4 = 2)) 0x8000) := by
  refine ⟨?_, ?_, ?_, ?_, ?_, ?_⟩ <;> decide +kernel

theorem test_witness_QueueEffects :
    ((fun (q : Nat) (v : Nat) (x : Sq) (s : State) => (s.nvme.rdy) ∧ (q < 4096) ∧ (s.sq q = some x) ∧ (v < x.size)) 1 15 ({ qid := 1, size := 16, cqid := 1, tail := 1 }) (tQ [])) ∧
    ((fun (q : Nat) (v : Nat) (x : Sq) (s : State) => (s.nvme.rdy) ∧ (q < 4096) ∧ (s.sq q = some x) ∧ (x.size ≤ v)) 1 16 ({ qid := 1, size := 16, cqid := 1, tail := 1 }) (tQ [])) ∧
    ((fun (q : Nat) (v : Nat) (x : Cq) (s : State) => (s.nvme.rdy) ∧ (q < 4096) ∧ (s.cq q = some x) ∧ (v < x.size) ∧ ((v + x.size - x.head) % max x.size 1 ≤ x.used)) 1 0 ({ qid := 1, size := 16 }) (tQ [])) ∧
    ((fun (q : Nat) (v : Nat) (x : Cq) (s : State) => (s.nvme.rdy) ∧ (q < 4096) ∧ (s.cq q = some x) ∧ (x.size ≤ v)) 1 16 ({ qid := 1, size := 16 }) (tQ [])) ∧
    ((fun (q : Nat) (e : SqEntry) (x : Sq) (s : State) => (s.sq q = some x) ∧ (s.nvme.rdy) ∧ (¬ s.nvme.fetchStop) ∧ (¬ s.ep.d3Stop) ∧ (s.cfg.busMaster) ∧ (x.waiting ≠ 0) ∧ ((s.nvme.fetched.filter (fun c => c.sqid == q)).length < 16) ∧ (s.nvme.fetched.length < 8192) ∧ (¬ (s.nvme.fetched ++ s.nvme.admitted).any (fun y => y.sqid == q && y.e.cid == e.cid))) 1 ({ cid := 7 }) ({ qid := 1, size := 16, cqid := 1, tail := 1 }) (tQ [])) ∧
    ((fun (q : Nat) (e : SqEntry) (x : Sq) (s : State) => (s.sq q = some x) ∧ (s.nvme.rdy) ∧ (¬ s.nvme.fetchStop) ∧ (¬ s.ep.d3Stop) ∧ (s.cfg.busMaster) ∧ (x.waiting ≠ 0) ∧ ((s.nvme.fetched.filter (fun c => c.sqid == q)).length < 16) ∧ (s.nvme.fetched.length < 8192) ∧ ((s.nvme.fetched ++ s.nvme.admitted).any (fun y => y.sqid == q && y.e.cid == e.cid))) 1 ({ cid := 7 }) ({ qid := 1, size := 16, cqid := 1, tail := 1 }) (tQ [tIo { cid := 7 }])) ∧
    ((fun (q : Nat) (cid : Nat) (c : Cmd) (x : Sq) (k : Cq) (dw0 : Nat) (st : Nat) (s : State) => (s.nvme.admitted.find? (fun c => c.sqid == q && c.e.cid == cid && match c.stage with | .ready _ _ => true | _ => false) = some c) ∧ (s.sq q = some x) ∧ (s.cq x.cqid = some k) ∧ (c.stage = .ready dw0 st) ∧ (s.nvme.rdy) ∧ (s.cfg.busMaster) ∧ (¬ s.ep.d3hot) ∧ (c.admittedAt ≠ none) ∧ (¬ k.ien) ∧ ((∀ y ∈ s.nvme.sqs, ¬ y.deleting))) 1 7 ({ tIo { cid := 7 } with stage := .ready 0 0 }) ({ qid := 1, size := 16, cqid := 1, tail := 1 }) ({ qid := 1, size := 16 }) 0 0 (tQ [{ tIo { cid := 7 } with stage := .ready 0 0 }])) := by
  refine ⟨?_, ?_, ?_, ?_, ?_, ?_, ?_⟩ <;> decide +kernel

theorem test_witness_AdminCommandEffects :
    ((fun (cid : Nat) (c : Cmd) (s : State) => (s.freshAdmin cid 0x05 = some c) ∧ (qidOk s.nvme.feat.ncq (s.cq (newQid c.e)).isSome (newQid c.e)) ∧ (2 ≤ newSize c.e) ∧ (bit c.e.cdw11 0) ∧ (s.nvme.cc.toNat / 2 ^ 20 % 16 = 4) ∧ (ivOk s (c.e.cdw11 / 65536))) 7 (tAdm { cid := 7, opc := 5, cdw10 := 0x10002, cdw11 := 1 }) (tQ [tAdm { cid := 7, opc := 5, cdw10 := 0x10002, cdw11 := 1 }])) ∧
    ((fun (cid : Nat) (c : Cmd) (s : State) => (s.freshAdmin cid 0x01 = some c) ∧ (qidOk s.nvme.feat.nsq (s.sq (newQid c.e)).isSome (newQid c.e)) ∧ (2 ≤ newSize c.e) ∧ (bit c.e.cdw11 0) ∧ (s.nvme.cc.toNat / 2 ^ 16 % 16 = 6) ∧ (c.e.cdw11 / 65536 ≠ 0) ∧ ((s.cq (c.e.cdw11 / 65536)).isSome)) 7 (tAdm { cid := 7, opc := 1, cdw10 := 0x10002, cdw11 := 0x10001 }) (tQ [tAdm { cid := 7, opc := 1, cdw10 := 0x10002, cdw11 := 0x10001 }])) ∧
    ((fun (cid : Nat) (c : Cmd) (s : State) => (s.freshAdmin cid 0x04 = some c) ∧ (newQid c.e ≠ 0) ∧ ((s.cq (newQid c.e)).isSome) ∧ (¬ s.nvme.sqs.any (fun x => x.cqid == newQid c.e))) 7 (tAdm { cid := 7, opc := 4, cdw10 := 2 }) ({ tQ [tAdm { cid := 7, opc := 4, cdw10 := 2 }] with nvme := { (tQ [tAdm { cid := 7, opc := 4, cdw10 := 2 }]).nvme with cqs := [{ qid := 2 }] } })) ∧
    ((fun (cid : Nat) (c : Cmd) (s : State) => (s.freshAdmin cid 0x00 = some c) ∧ (newQid c.e ≠ 0) ∧ ((s.sq (newQid c.e)).isSome) ∧ (¬ s.nvme.sqs.any (·.deleting)) ∧ ((∀ x ∈ s.nvme.admitted ++ s.nvme.fetched, x.sqid ≠ newQid c.e))) 7 (tAdm { cid := 7, opc := 0, cdw10 := 1 }) (tQ [tAdm { cid := 7, opc := 0, cdw10 := 1 }])) ∧
    ((fun (cid : Nat) (c : Cmd) (s : State) => (s.freshAdmin cid 0x08 = some c) ∧ (c.error = none)) 7 (tAdm { cid := 7, opc := 8, cdw10 := 0x30001 }) (tQ [tAdm { cid := 7, opc := 8, cdw10 := 0x30001 }])) ∧
    ((fun (cid : Nat) (c : Cmd) (s : State) => (s.freshAdmin cid 0x0C = some c) ∧ (s.nvme.aers.length < 4) ∧ (s.nvme.events = [])) 7 (tAdm { cid := 7, opc := 12 }) (tQ [tAdm { cid := 7, opc := 12 }])) ∧
    ((fun (cid : Nat) (c : Cmd) (e : Nat × Nat × Nat) (es : List (Nat × Nat × Nat)) (s : State) => (s.freshAdmin cid 0x0C = some c) ∧ (s.nvme.aers.length < 4) ∧ (s.nvme.events = e :: es)) 7 (tAdm { cid := 7, opc := 12 }) ((0, 0, 0)) ([]) ({ tQ [] with nvme := { (tQ [tAdm { cid := 7, opc := 12 }]).nvme with events := [(0, 0, 0)] } })) ∧
    ((fun (cid : Nat) (c : Cmd) (s : State) => (s.freshAdmin cid 0x09 = some c) ∧ (featureIds.contains (c.e.cdw10 % 256)) ∧ (¬ bit c.e.cdw10 31) ∧ ((setFeature (c.e.cdw10 % 256) c.e.cdw11 s.nvme.feat).2.2 = 0)) 7 (tAdm { cid := 7, opc := 9, cdw10 := 7, cdw11 := 0x00FF00FF }) (tQ [tAdm { cid := 7, opc := 9, cdw10 := 7, cdw11 := 0x00FF00FF }])) ∧
    ((fun (cid : Nat) (c : Cmd) (s : State) => (s.freshAdmin cid 0x09 = some c) ∧ (featureIds.contains (c.e.cdw10 % 256)) ∧ (bit c.e.cdw10 31)) 7 (tAdm { cid := 7, opc := 9, cdw10 := 0x80000007 }) (tQ [tAdm { cid := 7, opc := 9, cdw10 := 0x80000007 }])) ∧
    ((fun (cid : Nat) (c : Cmd) (s : State) => (s.freshAdmin cid 0x0A = some c) ∧ (featureIds.contains (c.e.cdw10 % 256)) ∧ (c.e.cdw10 / 256 % 8 = 0) ∧ (¬ (c.e.cdw10 % 256 = 9 ∧ 2047 < c.e.cdw11 % 65536))) 7 (tAdm { cid := 7, opc := 10, cdw10 := 11 }) (tQ [tAdm { cid := 7, opc := 10, cdw10 := 11 }])) ∧
    ((fun (cid : Nat) (c : Cmd) (s : State) => (s.freshAdmin cid 0x06 = some c) ∧ (c.e.cdw10 % 256 = 1)) 7 (tAdm { cid := 7, opc := 6, cdw10 := 1 }) (tQ [tAdm { cid := 7, opc := 6, cdw10 := 1 }])) ∧
    ((fun (cid : Nat) (c : Cmd) (s : State) => (s.freshAdmin cid 0x06 = some c) ∧ (c.e.cdw10 % 256 = 0) ∧ (c.e.nsid ≠ 0xFFFFFFFF) ∧ (s.volumeOf c.e.nsid = none)) 7 (tAdm { cid := 7, opc := 6, nsid := 1024 }) (tQ [tAdm { cid := 7, opc := 6, nsid := 1024 }])) ∧
    ((fun (cid : Nat) (c : Cmd) (b : Bytes) (s : State) => (s.freshAdmin cid 0x02 = some c) ∧ (c.e.cdw10 % 256 ≠ 4) ∧ (logPage s (c.e.cdw10 % 256) (c.e.cdw10 / 256 % 128) = some b) ∧ ((u32 c.e.cdw12 + u32 c.e.cdw13 * 2 ^ 32) % 4 = 0) ∧ (u32 c.e.cdw12 + u32 c.e.cdw13 * 2 ^ 32 ≤ b.length)) 7 (tAdm { cid := 7, opc := 2, cdw10 := 0x10003 }) ((logPage tUp 3 0).getD []) (tQ [tAdm { cid := 7, opc := 2, cdw10 := 0x10003 }])) := by
  refine ⟨?_, ?_, ?_, ?_, ?_, ?_, ?_, ?_, ?_, ?_, ?_, ?_, ?_⟩ <;> decide +kernel

theorem test_witness_IoCommandEffects :
    ((fun (q : Nat) (cid : Nat) (c : Cmd) (s : State) => (s.fresh q cid 1 = some c) ∧ (c.error = none) ∧ (c.nlb = 1)) 1 7 ({ tIo { cid := 7, opc := 1 } with nlb := 1 }) (tQ [{ tIo { cid := 7, opc := 1 } with nlb := 1 }])) ∧
    ((fun (q : Nat) (cid : Nat) (c : Cmd) (s : State) => (s.fresh q cid 1 = some c) ∧ (c.error = none)) 1 7 ({ tIo { cid := 7, opc := 1 } with nlb := 256 }) (tQ [{ tIo { cid := 7, opc := 1 } with nlb := 256 }])) ∧
    ((fun (q : Nat) (cid : Nat) (c : Cmd) (st : Nat) (s : State) => (s.fresh q cid 2 = some c) ∧ (c.error = some st) ∧ (st ≠ scNotReady)) 1 7 ({ tIo { cid := 7, opc := 2 } with error := some 0x80 }) 0x80 (tQ [{ tIo { cid := 7, opc := 2 } with error := some 0x80 }])) ∧
    ((fun (q : Nat) (cid : Nat) (c : Cmd) (i : Nat) (a : Arr) (v : Volume) (l : Line) (s : State) => (s.fresh q cid 2 = some c) ∧ (s.cmd q cid = some c) ∧ ((∀ x ∈ s.nvme.admitted, Cmd.named q cid x → x = c)) ∧ (c.error = none) ∧ (c.todo = [i]) ∧ (c.fetching = []) ∧ (c.arrived = []) ∧ (s.array c.array = some a) ∧ (a.volume c.volume = some v) ∧ (¬ s.nvme.admitted.any (·.uncommitted)) ∧ (s.version a.id (c.lba a i) c.seq = some l) ∧ (l.prim)) 1 7 (tIo { cid := 7, opc := 2 }) 0 tA ({ capacity := 65536 }) ({ no := 3, st := .dirty, seq := 4, written := true }) ({ tQ [tIo { cid := 7, opc := 2 }] with sag := { lines := [{ no := 3, st := .dirty, seq := 4, written := true }] } })) ∧
    ((fun (q : Nat) (cid : Nat) (c : Cmd) (i : Nat) (a : Arr) (v : Volume) (l : Line) (s : State) => (s.fresh q cid 0x0C = some c) ∧ (s.cmd q cid = some c) ∧ ((∀ x ∈ s.nvme.admitted, Cmd.named q cid x → x = c)) ∧ (c.error = none) ∧ (c.todo = [i]) ∧ (c.fetching = []) ∧ (c.arrived = []) ∧ (s.array c.array = some a) ∧ (a.volume c.volume = some v) ∧ (¬ s.nvme.admitted.any (·.uncommitted)) ∧ (s.version a.id (c.lba a i) c.seq = some l) ∧ (l.prim)) 1 7 (tIo { cid := 7, opc := 12 }) 0 tA ({ capacity := 65536 }) ({ no := 3, st := .dirty, seq := 4, written := true }) ({ tQ [tIo { cid := 7, opc := 12 }] with sag := { lines := [{ no := 3, st := .dirty, seq := 4, written := true }] } })) ∧
    ((fun (q : Nat) (cid : Nat) (c : Cmd) (s : State) => (s.fresh q cid 8 = some c) ∧ (c.error = none)) 1 7 ({ tIo { cid := 7, opc := 8 } with nlb := 1 }) (tQ [{ tIo { cid := 7, opc := 8 } with nlb := 1 }])) ∧
    ((fun (q : Nat) (cid : Nat) (c : Cmd) (s : State) => (s.fresh q cid 9 = some c) ∧ (c.error = none)) 1 7 ({ tIo { cid := 7, opc := 9 } with nlb := 1 }) (tQ [{ tIo { cid := 7, opc := 9 } with nlb := 1 }])) ∧
    ((fun (q : Nat) (cid : Nat) (c : Cmd) (s : State) => (s.fresh q cid 0 = some c) ∧ (c.error = none) ∧ (s.sag.lines = []) ∧ (¬ s.nvme.admitted.any (fun w => w.isWrite && decide (w.seq < c.seq)))) 1 7 ({ tIo { cid := 7, opc := 0 } with nlb := 1 }) (tQ [{ tIo { cid := 7, opc := 0 } with nlb := 1 }])) ∧
    ((fun (q : Nat) (cid : Nat) (i : Nat) (s : State) => (s.ep.reqs.any (fun r => r.2 == .writeData q cid i))) 1 7 255 ({ tQ [tIo { cid := 7, opc := 1 }] with ep := { tUp.ep with reqs := [(0, .writeData 1 7 255)] } })) ∧
    ((fun (q : Nat) (cid : Nat) (i : Nat) (s : State) => (¬ s.ep.reqs.any (fun r => r.2 == .writeData q cid i))) 0 0 0 tUp) := by
  refine ⟨?_, ?_, ?_, ?_, ?_, ?_, ?_, ?_, ?_, ?_⟩ <;> decide +kernel

theorem test_witness_KilnEffects :
    ((fun (j : Nat) (k : Nat) (job : Job) (a : Arr) (s : State) => (s.job j = some job) ∧ (s.array job.array = some a) ∧ ((nth job.slices k {}).phase = .granted) ∧ ((nth job.slices k {}).pos + (nth job.slices k {}).width < 4096)) 1 0 ({ id := 1, kind := .rebuild, slices := [{ phase := .granted, pos := 1024, width := 1024 }] }) tA ({ tArr with arr := { tArr.arr with jobs := [{ id := 1, kind := .rebuild, slices := [{ phase := .granted, pos := 1024, width := 1024 }] }] } })) ∧
    ((fun (j : Nat) (s : State) => (s.job j = none)) 0 tUp) ∧
    ((fun (n : Nat) (aid : Nat) (er : List Nat) (s : State) => (s.kilnPresent n) ∧ ((s.array aid).isSome) ∧ (((s.arr.matrices.filter (fun m => m != (n, aid, er))).filter (fun m => m.1 == n)).length < 32)) 3 0 ([2]) tArr) ∧
    ((fun (aid : Nat) (dg : Nat) (r : Nat) (s : State) => ((s.array aid).isSome) ∧ ((s.arr.perms.filter (fun p => p != (aid, dg, r))).length < 4096)) 0 1 999 tArr) ∧
    ((fun (n : Nat) (s : State) => (¬ s.kilnPresent n)) 4 tUp) ∧
    ((fun (n : Nat) (s : State) => (s.kilnPresent n)) 3 tArr) ∧
    ((fun (n : Nat) (s : State) => (s.kilnPresent n)) 0 tArr) := by
  refine ⟨?_, ?_, ?_, ?_, ?_, ?_, ?_⟩ <;> decide +kernel

theorem test_witness_SaggarEffects :
    ((fun (c : Nat) (s : State) => (¬ s.ddrPresent c)) 8 tUp) ∧
    ((fun (c : Nat) (s : State) => (s.ddrPresent c)) 7 tUp) ∧
    ((fun (c : Nat) (s : State) => (s.ddrPresent c)) 7 tArr) ∧
    ((fun (n : Nat) (s : State) => (s.lineAt n = none)) 0 tUp) ∧
    ((fun (n : Nat) (l : Line) (s : State) => (s.lineAt n = some l) ∧ (¬ l.granted)) 3 ({ no := 3 }) ({ tUp with sag := { tUp.sag with lines := [{ no := 3 }] } })) ∧
    ((fun (n : Nat) (l : Line) (s : State) => (s.lineAt n = some l) ∧ (l.granted) ∧ (l.st = .pending) ∧ (¬ l.written) ∧ (¬ s.sag.rewrites.contains n) ∧ (s.array l.array = none)) 3 ({ no := 3, granted := true, sqid := 1, cid := 7, array := 5, data := [1] }) ({ tUp with sag := { tUp.sag with lines := [{ no := 3, granted := true, sqid := 1, cid := 7, array := 5, data := [1] }] } })) ∧
    ((fun (aid : Nat) (n : Nat) (o : OpenStripe) (s : State) => (s.sag.openStripes = [o]) ∧ (o.array = aid) ∧ (o.stripe = n) ∧ (¬ o.ready) ∧ (o.start + s.sag.gatherTurns ≤ s.hw.turn)) 0 9 ({ stripe := 9 }) ({ tUp with hw := { tUp.hw with turn := 1954 }, sag := { tUp.sag with openStripes := [{ stripe := 9 }] } })) := by
  refine ⟨?_, ?_, ?_, ?_, ?_, ?_, ?_⟩ <;> decide +kernel

theorem test_witness_KilnCarEffects :
    ((fun (ch : Nat) (s : State) => (ch < 64) ∧ ((s.chan ch).st = .running) ∧ ((s.chan ch).committed = none)) 63 ({ tUp with kc := { chans := nthMod (List.replicate 64 {}) 63 (fun _ => { st := .running }) } })) ∧
    ((fun (ch : Nat) (p : KcSet) (s : State) => (ch < 64) ∧ ((s.chan ch).st = .running) ∧ ((s.chan ch).committed = some p)) 63 ({}) ({ tUp with kc := { chans := nthMod (List.replicate 64 {}) 63 (fun _ => { st := .running, committed := some {} }) } })) ∧
    ((fun (ch : Nat) (s : State) => (ch < 48) ∧ (ch < s.kc.chans.length) ∧ ((s.chan ch).st = .idle)) 47 ({ tUp with kc := { chans := nthMod (List.replicate 64 {}) 47 (fun _ => { st := .idle, commitSeq := 255, shadow := { chain := 64 } }) } })) ∧
    ((fun (ch : Nat) (s : State) => (ch < 48) ∧ (ch < s.kc.chans.length) ∧ ((s.chan ch).st = .idle)) 0 tUp) ∧
    ((fun (ch : Nat) (s : State) => (ch < 64) ∧ ((s.chan ch).st = .running)) 63 ({ tUp with kc := { chans := nthMod (List.replicate 64 {}) 63 (fun _ => { st := .running }) } })) ∧
    ((fun (ch : Nat) (s : State) => (ch < 64) ∧ ((s.chan ch).st = .idle)) 63 tUp) ∧
    ((fun (ch : Nat) (s : State) => (ch < 64) ∧ ((s.chan ch).st = .stopped) ∧ ((s.chan ch).committed = none) ∧ (¬ (s.chan ch).ended)) 63 ({ tUp with kc := { chans := nthMod (List.replicate 64 {}) 63 (fun _ => { st := .stopped }) } })) ∧
    ((fun (s : State) => (nth s.kc.reqs 88 0 < 255)) tUp) ∧
    ((fun (n : Nat) (s : State) => (n < 96) ∧ (nth s.kc.reqs n 0 < 255)) 95 tUp) ∧
    ((fun (n : Nat) (s : State) => (n < 96) ∧ (255 ≤ nth s.kc.reqs n 0)) 95 ({ tUp with kc := { tUp.kc with reqs := List.replicate 96 255 } })) ∧
    ((fun (ch : Nat) (d : KcDesc) (s : State) => (ch < 64) ∧ ((s.chan ch).active?) ∧ ((s.chan ch).desc = none) ∧ (¬ descInvalid d (isMaint ch) (s.pw.stagingMib * 1048576)) ∧ (d.last) ∧ (¬ d.crcContinue)) 63 ({ last := true, op := 1, srcSpace := 1, dstSpace := 1, srcWidth := 0, dstWidth := 0, byteCount := 1 }) ({ tUp with kc := { chans := nthMod (List.replicate 64 {}) 63 (fun _ => { st := .running }) } })) ∧
    ((fun (ch : Nat) (d : KcDesc) (s : State) => (ch < 64) ∧ ((s.chan ch).active?) ∧ ((s.chan ch).desc = none) ∧ (descInvalid d (isMaint ch) (s.pw.stagingMib * 1048576))) 63 ({ byteCount := 0 }) ({ tUp with kc := { chans := nthMod (List.replicate 64 {}) 63 (fun _ => { st := .stopping }) } })) ∧
    ((fun (ch : Nat) (d : KcDesc) (c : Chan) (s : State) => (ch < 48) ∧ (ch < s.kc.chans.length) ∧ (s.chan ch = c) ∧ (c.st = .running) ∧ (c.desc = some d) ∧ (c.committed = none) ∧ (¬ s.kc.halted) ∧ (d.byteCount ≤ c.bytesDone) ∧ (d.last)) 47 ({ last := true }) ({ st := .running, desc := some { last := true }, bytesDone := 1 }) ({ tUp with kc := { chans := nthMod (List.replicate 64 {}) 47 (fun _ => { st := .running, desc := some { last := true }, bytesDone := 1 }) } })) ∧
    ((fun (ch : Nat) => (ch < 64)) 63) ∧
    ((fun (ch : Nat) => (ch < 64)) 0) ∧
    ((fun (ch : Nat) (d : KcDesc) (s : State) => (ch < 64) ∧ ((s.chan ch).desc = some d) ∧ ((s.chan ch).st = .running) ∧ ((s.chan ch).granted) ∧ (¬ s.kc.halted) ∧ (d.op = 3) ∧ (d.crc = 0)) 63 ({ op := 3, srcSpace := 2, byteCount := 100 }) ({ tUp with kc := { chans := nthMod (List.replicate 64 {}) 63 (fun _ => { st := .running, granted := true, desc := some { op := 3, srcSpace := 2, byteCount := 100 } }) } })) ∧
    ((fun (ch : Nat) (s : State) => (ch < 64) ∧ ((s.chan ch).desc = none)) 63 tUp) := by
  refine ⟨?_, ?_, ?_, ?_, ?_, ?_, ?_, ?_, ?_, ?_, ?_, ?_, ?_, ?_, ?_, ?_, ?_⟩ <;> decide +kernel

theorem test_witness_HotPlugEffects :
    ((fun (p : Nat) (s : State) => (¬ s.portExists p)) 24 tUp) ∧
    ((fun (p : Nat) (s : State) => (¬ s.portExists p)) 48 tUp) ∧
    ((fun (p : Nat) (s : State) => (s.portExists p)) 23 tUp) ∧
    ((fun (p : Nat) (s : State) => (s.portExists p) ∧ ((s.port p).debounce = none)) 23 tUp) ∧
    ((fun (p : Nat) (b : Bool) (s : State) => (s.portExists p) ∧ ((s.port p).debounce = some b) ∧ ((s.port p).holdoff)) 23 true ({ tArr with arr := { tArr.arr with ports := nthMod (List.replicate 48 {}) 23 (fun _ => { debounce := some true, holdoff := true }) } })) ∧
    ((fun (p : Nat) (s : State) => (s.portExists p) ∧ (p < s.arr.ports.length) ∧ ((s.port p).debounce = some true) ∧ (¬ (s.port p).holdoff) ∧ (¬ (s.port p).present)) 23 ({ tArr with arr := { tArr.arr with ports := nthMod (List.replicate 48 {}) 23 (fun _ => { debounce := some true }) } })) ∧
    ((fun (p : Nat) (s : State) => (s.portExists p) ∧ (¬ (s.port p).holdoff)) 23 tUp) ∧
    ((fun (p : Nat) (s : State) => (s.portExists p) ∧ ((s.port p).holdoff) ∧ ((s.port p).level = (s.port p).present)) 23 ({ tArr with arr := { tArr.arr with ports := nthMod (List.replicate 48 {}) 23 (fun _ => { holdoff := true }) } })) ∧
    ((fun (p : Nat) (s : State) => (s.portExists p) ∧ ((s.port p).power) ∧ ((s.port p).perst)) 23 ({ tArr with arr := { tArr.arr with ports := nthMod (List.replicate 48 {}) 23 (fun _ => { power := true }) } })) ∧
    ((fun (p : Nat) (s : State) => (¬ (s.portExists p ∧ (s.port p).up))) 24 tUp) ∧
    ((fun (p : Nat) (s : State) => (s.portExists p) ∧ (p < s.arr.ports.length) ∧ ((s.port p).up)) 2 ({ tArr with arr := { tArr.arr with ports := nthMod (List.replicate 48 {}) 2 (fun _ => { up := true }) } })) ∧
    ((fun (p : Nat) (s : State) => (s.portExists p) ∧ (p < s.arr.ports.length) ∧ ((s.port p).debounce = some false) ∧ (¬ (s.port p).holdoff) ∧ ((s.port p).present)) 2 ({ tArr with arr := { tArr.arr with ports := nthMod (List.replicate 48 {}) 2 (fun _ => { debounce := some false, present := true }) } })) := by
  refine ⟨?_, ?_, ?_, ?_, ?_, ?_, ?_, ?_, ?_, ?_, ?_, ?_⟩ <;> decide +kernel

theorem test_witness_MemberConditionEffects :
    ((fun (id : Nat) (i : NsIdent) (s : State) => (i.mark = none) ∧ (s.ns id = none) ∧ (¬ (nsLoc id).remote) ∧ ((s.port (nsLoc id).port).up) ∧ (s.arr.releases = [])) (23 * 2 ^ 32 + 1) ({ uid := 5 }) tArr) ∧
    ((fun (id : Nat) (i : NsIdent) (s : State) => (i.mark = none) ∧ (s.ns id = none) ∧ (¬ (nsLoc id).remote) ∧ (¬ (s.port (nsLoc id).port).up)) (23 * 2 ^ 32 + 1) ({ uid := 5 }) tUp) ∧
    ((fun (id : Nat) (n : Ns) (s : State) => (s.ns id = some n) ∧ (n.cond = .healthy)) 1 (tNs 0) tArr) ∧
    ((fun (id : Nat) (n : Ns) (c : Nat) (s : State) => (s.ns id = some n) ∧ (n.cond = .unavailable c) ∧ (n.arrayUid ≠ 0) ∧ (¬ n.stale) ∧ (n.declare = none) ∧ (n.failing = none)) 1 ({ tNs 0 with cond := .unavailable 6 }) 6 ({ tArr with arr := { tArr.arr with ns := [{ tNs 0 with cond := .unavailable 6 }, tNs 1] } })) ∧
    ((fun (id : Nat) (n : Ns) (s : State) => (s.ns id = some n) ∧ (n.arrayUid ≠ 0) ∧ (¬ n.stale) ∧ (n.declare = none) ∧ (n.failing = none)) (2 ^ 32 + 1) (tNs 1) tArr) ∧
    ((fun (aid : Nat) (a : Arr) (s : State) => (s.array aid = some a) ∧ (s.pol.scrubPeriod ≠ 255) ∧ (a.service = 2) ∧ (a.owner) ∧ (¬ s.arr.scrubs.any (fun x => x.array == aid))) 0 tA tArr) ∧
    ((fun (s : State) => (¬ s.arr.arrays.any (fun a => a.owner && a.unpersisted))) tUp) ∧
    ((fun (a : Arr) (s : State) => (s.arr.arrays.filter (fun a => a.owner && a.unpersisted) = [a]) ∧ (s.array a.id = some a)) ({ tA with body := { tA.body with relocs := [{ stop := 9 }] }, exact := [(1, 5, 5)] }) ({ tArr with arr := { tArr.arr with arrays := [{ tA with body := { tA.body with relocs := [{ stop := 9 }] }, exact := [(1, 5, 5)] }] } })) := by
  refine ⟨?_, ?_, ?_, ?_, ?_, ?_, ?_, ?_⟩ <;> decide +kernel

theorem test_witness_MemberCommandEffects :
    ((fun (id : Nat) (s : State) => (s.mcmd id = none)) 0 tUp) ∧
    ((fun (id : Nat) (c : MCmd) (s : State) => (s.mcmd id = some c) ∧ (c.sent) ∧ (¬ c.timedOut) ∧ (c.job = 0) ∧ (c.op = .format)) 4 ({ id := 4, ns := 1, sent := true, op := .format }) ({ tArr with arr := { tArr.arr with cmds := [{ id := 4, ns := 1, sent := true, op := .format }] } })) ∧
    ((fun (id : Nat) (c : MCmd) (s : State) => (s.mcmd id = some c) ∧ (¬ c.timedOut) ∧ (s.job c.job = none) ∧ (c.op = .write)) 4 ({ id := 4, ns := 1, sent := true, op := .write }) ({ tArr with arr := { tArr.arr with cmds := [{ id := 4, ns := 1, sent := true, op := .write }] } })) ∧
    ((fun (id : Nat) (c : MCmd) (s : State) => (s.mcmd id = some c) ∧ (c.timedOut) ∧ (c.abortSent)) 4 ({ id := 4, ns := 1, sent := true, timedOut := true, abortSent := true }) ({ tArr with arr := { tArr.arr with cmds := [{ id := 4, ns := 1, sent := true, timedOut := true, abortSent := true }] } })) ∧
    ((fun (s : State) => (¬ s.arr.cmds.any (fun c => c.sent))) tArr) ∧
    ((fun (id : Nat) (c : MCmd) (s : State) => (s.mcmd id = some c) ∧ (c.timedOut)) 4 ({ id := 4, ns := 1, sent := true, timedOut := true }) ({ tArr with arr := { tArr.arr with cmds := [{ id := 4, ns := 1, sent := true, timedOut := true }] } })) ∧
    ((fun (id : Nat) (c : MCmd) (s : State) => (s.mcmd id = some c) ∧ (s.job c.job = none)) 4 ({ id := 4, ns := 1, sent := true, op := .read }) ({ tArr with arr := { tArr.arr with cmds := [{ id := 4, ns := 1, sent := true, op := .read }] } })) ∧
    ((fun (id : Nat) (c : MCmd) (j : Job) (s : State) => (s.mcmd id = some c) ∧ (s.job c.job = some j) ∧ (j.kind = .hostRead) ∧ (c.op = .read) ∧ (c.role = j.intentGen)) 4 ({ id := 4, ns := 1, sent := true, op := .read, job := 1, role := 0 }) ({ id := 1, kind := .hostRead, sqid := 1, cid := 7 }) ({ tArr with arr := { tArr.arr with cmds := [{ id := 4, ns := 1, sent := true, op := .read, job := 1, role := 0 }], jobs := [{ id := 1, kind := .hostRead, sqid := 1, cid := 7 }] } })) := by
  refine ⟨?_, ?_, ?_, ?_, ?_, ?_, ?_, ?_⟩ <;> decide +kernel

theorem test_witness_SlipLinkEffects :
    ((fun (s : State) => (¬ s.twin.trained)) tUp) ∧
    ((fun (f : Flit) (s : State) => (s.twin.trained) ∧ ((¬ f.crcOk ∨ 1 < f.kind ∨ f.linkSeq ≠ s.twin.expected)) ∧ (s.twin.nakSent < 3)) ({ crcOk := false }) (tTw true)) ∧
    ((fun (f : Flit) (s : State) => (s.twin.trained) ∧ ((¬ f.crcOk ∨ 1 < f.kind ∨ f.linkSeq ≠ s.twin.expected)) ∧ (s.twin.nakSent < 3)) ({ linkSeq := 1 }) (tTw true)) ∧
    ((fun (f : Flit) (s : State) => (s.twin.trained) ∧ ((¬ f.crcOk ∨ 1 < f.kind ∨ f.linkSeq ≠ s.twin.expected)) ∧ (3 ≤ s.twin.nakSent)) ({ kind := 2 }) ({ tTw true with twin := { (tTw true).twin with nakSent := 3 } })) ∧
    ((fun (f : Flit) (s : State) => (s.twin.trained) ∧ (f.crcOk) ∧ (f.kind ≤ 1) ∧ (f.linkSeq = s.twin.expected) ∧ (¬ f.nak) ∧ (f.mirrorAck ≤ s.twin.mirrorAckRx)) ({ kind := 1, mirrorAck := 0 }) (tTw true)) ∧
    ((fun (f : Flit) (s : State) (m : SentMsg) => (s.twin.trained) ∧ (f.crcOk) ∧ (f.kind ≤ 1) ∧ (f.linkSeq = s.twin.expected) ∧ (¬ f.nak) ∧ (s.twin.mirrorAckRx < f.mirrorAck) ∧ (f.mirrorAck ≤ s.twin.msgSeqTx) ∧ (m ∈ s.twin.sent) ∧ (m.seq ≤ f.mirrorAck)) ({ kind := 1, mirrorAck := 2 }) ({ tTw true with twin := { (tTw true).twin with msgSeqTx := 3, sent := [{ seq := 2 }, { seq := 3 }] } }) ({ seq := 2 })) ∧
    ((fun (s : State) => (s.twin.trained)) (tTw true)) ∧
    ((fun (d : BitVec 128) (b : BitVec 128) (md : Nat) (s : State) => (s.twin.trained) ∧ (s.twin.partner = some d) ∧ (b = Config.deviceId) ∧ (md = 1) ∧ (s.twin.mode = 1)) 9 Config.deviceId 1 ({ tTw true with twin := { (tTw true).twin with helloOk := false } })) ∧
    ((fun (d : BitVec 128) (s : State) => (s.twin.trained) ∧ (s.twin.partner ≠ some d)) 8 (tTw true)) ∧
    ((fun (s : State) => (¬ s.twin.trained)) tUp) ∧
    ((fun (s : State) => (s.twin.trained) ∧ (s.twin.helloGot) ∧ (¬ s.twin.up) ∧ (s.twin.helloOk) ∧ (s.twin.areaReady)) ({ tTw true with twin := { (tTw true).twin with up := false, st := .linkDown }, sag := { lines := [{ st := .mirror }], poolLines := 1, rxAreaLines := 4 } })) ∧
    ((fun (s : State) => (s.twin.trained) ∧ (s.twin.helloGot) ∧ (¬ s.twin.up) ∧ (¬ s.twin.helloOk) ∧ (s.twin.partner ≠ none)) ({ tTw true with twin := { (tTw true).twin with up := false, helloOk := false } })) := 
  ⟨by decide +kernel,
   by decide +kernel,
   by decide +kernel,
   by decide +kernel,
   by decide +kernel,
   by decide +kernel,
   by decide +kernel,
   by refine ⟨?_, ?_, ?_, ?_, ?_⟩ <;> rfl,
   by decide +kernel,
   by decide +kernel,
   by decide +kernel,
   by decide +kernel⟩

theorem test_witness_SlipMessageEffects :
    ((fun (q : Nat) (s : State) => (s.slipRx) ∧ (q = s.twin.msgSeqRx + 1) ∧ (s.twin.heldRx = [])) 1 (tTw false)) ∧
    ((fun (q : Nat) (s : State) => (s.slipRx) ∧ (q = s.twin.msgSeqRx + 1) ∧ (s.twin.heldRx = [])) 1 (tTw false)) ∧
    ((fun (q : Nat) (s : State) => (s.slipRx) ∧ (s.twin.msgSeqRx + 1 < q) ∧ (s.twin.heldRx = [])) 2 (tTw false)) ∧
    ((fun (s : State) => (s.slipRx)) ({ tTw false with twin := { (tTw false).twin with heldTwinSeq := [5] } })) ∧
    ((fun (r : Rec) (s : State) => (s.slipRx) ∧ (r.twinSeq ∈ s.twin.heldTwinSeq)) ({ twinSeq := 5 }) ({ tTw false with twin := { (tTw false).twin with heldTwinSeq := [5] } })) ∧
    ((fun (ts : Nat) (s : State) => (s.slipRx) ∧ (ts ∈ s.twin.heldTwinSeq)) 5 ({ tTw false with twin := { (tTw false).twin with heldTwinSeq := [5] } })) ∧
    ((fun (ts : Nat) (l : SlipLine) (s : State) => (s.slipRx) ∧ (ts ∉ s.twin.heldTwinSeq) ∧ (l.admitSeq ∉ s.twin.ended) ∧ (s.freeMirror ≠ none)) 6 ({ key := 77, admitSeq := 4 }) ({ tTw false with twin := { (tTw false).twin with heldTwinSeq := [5] } })) ∧
    ((fun (ts : Nat) (l : SlipLine) (s : State) => (s.slipRx) ∧ (ts ∉ s.twin.heldTwinSeq) ∧ (l.admitSeq ∉ s.twin.ended) ∧ (s.freeMirror = none)) 6 ({ key := 77, admitSeq := 4 }) ({ tTw false with sag := {} })) ∧
    ((fun (s : State) => (s.slipRx)) ({ tTw false with sag := { lines := [{ st := .mirror, key := 77, seq := 4 }] } })) ∧
    ((fun (key : Nat) (a : Arr) (s : State) => (s.slipRx) ∧ (s.arrayOfKey key = some a) ∧ (s.array a.id = some a) ∧ (¬ a.owner)) 77 ({ tA with shared := true, owner := false }) (tTw false)) ∧
    ((fun (key : Nat) (a : Arr) (s : State) => (s.slipRx) ∧ (s.arrayOfKey key = some a) ∧ (a.owner)) 77 ({ tA with shared := true }) (tTw true)) ∧
    ((fun (s : State) => (s.slipRx) ∧ (s.twin.mode = 2)) ({ tTw false with twin := { (tTw false).twin with mode := 2 } })) ∧
    ((fun (s : State) => (s.twin.mode ≠ 2)) tUp) := by
  refine ⟨?_, ?_, ?_, ?_, ?_, ?_, ?_, ?_, ?_, ?_, ?_, ?_, ?_⟩ <;> decide +kernel

theorem test_witness_HandoverEffects :
    ((fun (key : Nat) (a : Arr) (s : State) => (s.slipRx) ∧ (s.arrayOfKey key = some a) ∧ (¬ a.owner) ∧ (a.shared) ∧ (a.takeover = 0)) 77 ({ tA with shared := true, owner := false }) (tTw false)) ∧
    ((fun (key : Nat) (a : Arr) (s : State) => (s.slipRx) ∧ (s.arrayOfKey key = some a) ∧ (a.moving = 3)) 77 ({ tA with shared := true, owner := false, moving := 3 }) ({ tTw false with arr := { tArr.arr with arrays := [{ tA with shared := true, owner := false, moving := 3 }] }, vault := { own := [{ key := 77 }] } })) ∧
    ((fun (key : Nat) (a : Arr) (s : State) => (s.slipRx) ∧ (s.arrayOfKey key = some a) ∧ (a.moving ≠ 3)) 77 ({ tA with shared := true }) (tTw true)) ∧
    ((fun (aid : Nat) (a : Arr) (s : State) => (s.array aid = some a) ∧ (a.moving = 2) ∧ (s.twin.up) ∧ (s.drained a)) 0 ({ tA with shared := true, owner := true, moving := 2 }) ({ tTw true with arr := { tArr.arr with arrays := [{ tA with shared := true, owner := true, moving := 2 }] }, nvme := { admitSeq := 9 } })) ∧
    ((fun (aid : Nat) (a : Arr) (s : State) => (s.array aid = some a) ∧ (¬ s.drained a)) 0 ({ tA with shared := true, owner := true, moving := 2 }) ({ tTw true with arr := { tArr.arr with arrays := [{ tA with shared := true, owner := true, moving := 2 }] }, nvme := { admitted := [tIo {}] } })) ∧
    ((fun (aid : Nat) (a : Arr) (s : State) => (s.array aid = some a) ∧ (a.shared) ∧ (a.owner) ∧ (a.moving = 0) ∧ (s.slipRx)) 0 ({ tA with shared := true }) (tTw true)) ∧
    ((fun (aid : Nat) (a : Arr) (s : State) => (s.array aid = some a) ∧ (¬ a.owner)) 0 ({ tA with shared := true, owner := false }) (tTw false)) := by
  refine ⟨?_, ?_, ?_, ?_, ?_, ?_, ?_⟩ <;> decide +kernel

theorem test_witness_TakeoverEffects :
    ((fun (s : State) => (s.twin.up)) (tTw true)) ∧
    ((fun (a : Arr) (n : Ns) (s : State) => (¬ s.twin.up) ∧ (s.twin.partner ≠ none) ∧ (s.ownShared = [a]) ∧ (s.checkNs a = some n)) ({ tA with shared := true }) (tNs 0) ({ tTw true with twin := { (tTw true).twin with up := false, st := .linkDown } })) ∧
    ((fun (aid : Nat) (a : Arr) (s : State) => (s.array aid = some a) ∧ (¬ s.twin.up) ∧ (a.shared) ∧ (a.owner)) 0 ({ tA with shared := true }) ({ tTw true with twin := { (tTw true).twin with up := false, st := .linkDown } })) ∧
    ((fun (aid : Nat) (a : Arr) (s : State) => (s.array aid = some a) ∧ (¬ s.twin.up) ∧ (a.shared) ∧ (a.owner)) 0 ({ tA with shared := true }) ({ tTw true with twin := { (tTw true).twin with up := false, st := .linkDown } })) ∧
    ((fun (s : State) => (¬ s.twin.up) ∧ (s.twin.partner ≠ none) ∧ (s.twin.st ≠ .partnerLost)) ({ tTw true with twin := { (tTw true).twin with up := false, st := .linkDown } })) ∧
    ((fun (s : State) => (¬ s.twin.up) ∧ (s.twin.partner ≠ none) ∧ (s.twin.st ≠ .partnerLost)) ({ tTw false with twin := { (tTw false).twin with up := false, st := .stoodDown } })) ∧
    ((fun (s : State) => (s.twin.up ∨ s.twin.partner = none ∨ s.twin.st = .partnerLost)) (tTw true)) ∧
    ((fun (s : State) => (s.twin.st = .partnerLost) ∧ (¬ s.twin.up)) ({ tTw false with twin := { (tTw false).twin with up := false, st := .partnerLost } })) ∧
    ((fun (aid : Nat) (a : Arr) (s : State) => (s.array aid = some a) ∧ (a.takeover = 2)) 0 ({ tA with shared := true, owner := false, takeover := 2 }) ({ tTw false with arr := { tArr.arr with arrays := [{ tA with shared := true, owner := false, takeover := 2 }] } })) ∧
    ((fun (aid : Nat) (a : Arr) (s : State) => (s.array aid = some a) ∧ (a.takeover ≠ 2)) 0 ({ tA with shared := true }) (tTw true)) := by
  refine ⟨?_, ?_, ?_, ?_, ?_, ?_, ?_, ?_, ?_, ?_⟩ <;> decide +kernel

theorem test_witness_TwinCommandEffects :
    ((fun (mb : Nat) (s : State) => (planRuns mb 0x0501 s (pairPlan s) = true) ∧ (s.twin.bound ≠ some (BitVec.ofNat 128 (pairFields s (s.mb mb)).1))) 0 (tMb 0 0x0501 (leBytes 16 9) (tUp))) ∧
    ((fun (mb : Nat) (s : State) => (planRuns mb 0x0501 s (pairPlan s) = true) ∧ (s.twin.bound = some (BitVec.ofNat 128 (pairFields s (s.mb mb)).1))) 0 (tMb 0 0x0501 ([]) ({ tUp with twin := { tUp.twin with bound := some 9 } }))) ∧
    ((fun (mb : Nat) (s : State) => (planRuns mb 0x0502 s (twinUnpairPlan s) = true)) 0 (tMb 0 0x0502 ([]) ({ tTw true with twin := { (tTw true).twin with st := .linkDown, up := false } }))) ∧
    ((fun (mb : Nat) (s : State) => (planRuns mb 0x0503 s (twinGetStatusPlan s) = true)) 15 (tMb 15 0x0503 ([]) (tTw true))) ∧
    ((fun (mb : Nat) (s : State) => (planRuns mb 0x0504 s (twinSetPolicyPlan s) = true)) 0 (tMb 0 0x0504 ([2, 0]) (tTw true))) ∧
    ((fun (mb : Nat) (s : State) => (planRuns mb 0x0505 s (twinMoveArrayPlan s) = true) ∧ ((s.mb mb).staged = none) ∧ (movable s (moveFields s (s.mb mb)).1 ≠ [])) 0 (tMb 0 0x0505 ([]) (tTw true))) ∧
    ((fun (mb : Nat) (ls : List Nat) (rs : List Nat) (ms : Nat) (a : Arr) (l : List Arr) (s : State) => (planRuns mb 0x0506 s (twinSwapDrillPlan s) = true) ∧ (movable s (drillFields s (s.mb mb)).1 = a :: l) ∧ ((drillFields s (s.mb mb)).2.1 = true) ∧ ((ls ≠ [] ∨ rs ≠ [] ∨ ms ≠ 0))) 0 ([]) ([]) 3 ({ tA with shared := true }) ([]) (tMb 0 0x0506 ([]) (tTw true))) ∧
    ((fun (mb : Nat) (ls : List Nat) (rs : List Nat) (ms : Nat) (a : Arr) (l : List Arr) (s : State) => (planRuns mb 0x0506 s (twinSwapDrillPlan s) = true) ∧ (movable s (drillFields s (s.mb mb)).1 = a :: l) ∧ ((drillFields s (s.mb mb)).2.1 = true) ∧ ((ls ≠ [] ∨ rs ≠ [] ∨ ms ≠ 0))) 0 ([1]) ([]) 0 ({ tA with shared := true }) ([]) (tMb 0 0x0506 ([]) (tTw true))) ∧
    ((fun (mb : Nat) (a : Arr) (l : List Arr) (s : State) => (planRuns mb 0x0506 s (twinSwapDrillPlan s) = true) ∧ ((s.mb mb).staged = none) ∧ (movable s (drillFields s (s.mb mb)).1 = a :: l)) 0 ({ tA with shared := true }) ([]) (tMb 0 0x0506 ([]) (tTw true))) ∧
    ((fun (mb : Nat) (a : Arr) (fc : Bool) (p : Parse) (s : State) => (planRuns mb 0x0507 s (twinTakeoverPlan s) = true) ∧ ((s.mb mb).staged = none) ∧ (takeoverFields s (s.mb mb) = (some a, fc, p))) 0 ({ tA with shared := true, owner := false }) true ({ bytes := [1, 2], len := 2 }) (tMb 0 0x0507 ([1, 2]) ({ tTw false with twin := { (tTw false).twin with up := false, st := .partnerLost } }))) := by
  refine ⟨?_, ?_, ?_, ?_, ?_, ?_, ?_, ?_, ?_, ?_⟩ <;> decide +kernel

theorem test_witness_CoilPacketGate :
    ((fun (h : CoilHdr) (s : State) => (¬ (s.coilPresent h.port ∧ s.coil.linkUp.getLsbD h.port))) ({ tHdr with port := 1 }) (tCoil [])) ∧
    ((fun (h : CoilHdr) (s : State) => (s.coilPresent h.port) ∧ (s.coil.linkUp.getLsbD h.port) ∧ ((h.version ≠ 1 ∨ h.dst ≠ s.coil.cfg.nodeId ∨ ¬ h.sizeOk))) ({ tHdr with dst := 2 }) (tCoil [])) ∧
    ((fun (h : CoilHdr) (s : State) => (s.coilPresent h.port) ∧ (s.coil.linkUp.getLsbD h.port) ∧ ((h.version ≠ 1 ∨ h.dst ≠ s.coil.cfg.nodeId ∨ ¬ h.sizeOk))) ({ tHdr with version := 2 }) (tCoil [])) ∧
    ((fun (h : CoilHdr) (s : State) => (s.coilPresent h.port) ∧ (s.coil.linkUp.getLsbD h.port) ∧ (h.version = 1) ∧ (h.dst = s.coil.cfg.nodeId) ∧ (h.sizeOk) ∧ (¬ (s.coil.slot h.keySlot).valid)) ({ tHdr with keySlot := true }) (tCoil [])) ∧
    ((fun (h : CoilHdr) (s : State) => (s.coilPresent h.port) ∧ (s.coil.linkUp.getLsbD h.port) ∧ (h.version = 1) ∧ (h.dst = s.coil.cfg.nodeId) ∧ (h.sizeOk) ∧ ((s.coil.slot h.keySlot).valid) ∧ (¬ s.dev.debugActive) ∧ (¬ h.authentic)) ({ tHdr with authentic := false }) (tCoil [])) ∧
    ((fun (k : Nat) (p : Nat) (s : State) => (s.coilPresent p) ∧ (s.coil.linkUp.getLsbD p) ∧ (1 ≤ k) ∧ (k ≤ 3)) 3 0 (tCoil [])) ∧
    ((fun (k : Nat) (p : Nat) (s : State) => (s.coilPresent p) ∧ (s.coil.linkUp.getLsbD p) ∧ (1 ≤ k) ∧ (k ≤ 3)) 1 0 (tCoil [])) ∧
    ((fun (k : Nat) => (k = 0 ∨ 3 < k)) 4) ∧
    ((fun (p : Nat) (s : State) => (s.coilPresent p) ∧ (s.coil.linkUp.getLsbD p)) 0 (tCoil [])) ∧
    ((fun (p : Nat) (s : State) => (s.coilPresent p) ∧ (s.coil.linkUp.getLsbD p)) 0 (tCoil [])) ∧
    ((fun (p : Nat) (s : State) => (¬ (s.coilPresent p ∧ s.coil.linkUp.getLsbD p))) 2 (tCoil [])) := by
  refine ⟨?_, ?_, ?_, ?_, ?_, ?_, ?_, ?_, ?_, ?_, ?_⟩ <;> decide +kernel

theorem test_witness_CoilHandshakeEffects :
    ((fun (h : CoilHdr) (b : Nat) (s : State) => (s.coilPasses h) ∧ (baseOk b) ∧ (¬ ((coilSeen h s).coil.slot h.keySlot).exhausted) ∧ ((coilSeen h s).freeEntry ≠ none)) tHdr (65535 * 2 ^ 32) (tCoil [])) ∧
    ((fun (h : CoilHdr) (b : Nat) (s : State) => (s.coilPasses h) ∧ (baseOk b) ∧ (¬ ((coilSeen h s).coil.slot h.keySlot).exhausted) ∧ ((coilSeen h s).freeEntry = none)) tHdr 0 (tCoil ((List.range 4096).map (fun n => { no := n, lastRx := 1 })))) ∧
    ((fun (h : CoilHdr) (b : Nat) (s : State) => (s.coilPasses h) ∧ (¬ baseOk b)) tHdr 1 (tCoil [])) ∧
    ((fun (h : CoilHdr) (b : Nat) (s : State) => (s.coilPasses h) ∧ (¬ baseOk b)) tHdr (2 ^ 48) (tCoil [])) ∧
    ((fun (h : CoilHdr) (b : Nat) (e : Assoc) (s : State) => (s.coilPasses h) ∧ ((coilSeen h s).coil.assocs.find? (fun e => e.opener && e.peer == h.src && e.block * 2 ^ 32 == b && (e.st == .opening || e.st == .confirming)) = some e)) tHdr 0 ({ tAs with st := .opening }) (tCoil [{ tAs with st := .opening }])) ∧
    ((fun (h : CoilHdr) (b : Nat) (c : Nat) (no : Nat) (s : State) => (s.coilPasses h) ∧ (baseOk b) ∧ ((coilSeen h s).coil.assocs.find? (fun e => e.peer == h.src && e.peerEpoch == h.epoch && e.peerBlock == b / 2 ^ 32 && !e.opener) = none) ∧ (c = cookieFor (coilSeen h s) h.src h.epoch (b / 2 ^ 32) (coilSeen h s).bucket) ∧ ((coilSeen h s).freeEntry = some no) ∧ (¬ ((coilSeen h s).coil.slot h.keySlot).exhausted)) tHdr 0 (cookieFor (coilSeen tHdr (tCoil [])) 2 0 0 0) 0 (tCoil [])) ∧
    ((fun (h : CoilHdr) (b : Nat) (c : Nat) (s : State) => (s.coilPasses h) ∧ (baseOk b) ∧ ((coilSeen h s).coil.assocs.find? (fun e => e.peer == h.src && e.peerEpoch == h.epoch && e.peerBlock == b / 2 ^ 32 && !e.opener) = none) ∧ (c ≠ cookieFor (coilSeen h s) h.src h.epoch (b / 2 ^ 32) (coilSeen h s).bucket) ∧ (c ≠ cookieFor (coilSeen h s) h.src h.epoch (b / 2 ^ 32) (u32 ((coilSeen h s).bucket + 2 ^ 32 - 1)))) tHdr 0 (2 ^ 64) (tCoil [])) ∧
    ((fun (h : CoilHdr) (ob : Nat) (e : Assoc) (s : State) => (s.coilPasses h) ∧ ((coilSeen h s).coil.assocs.find? (fun e => e.opener && e.st == .confirming && e.peer == h.src && e.block * 2 ^ 32 == ob) = some e) ∧ (¬ s.arr.cmds.any (fun c => c.sent && c.timedOut))) tHdr 0 ({ tAs with st := .confirming }) (tCoil [{ tAs with st := .confirming }])) ∧
    ((fun (n : Nat) (e : Assoc) (s : State) => (s.assoc n = some e) ∧ (e.opener) ∧ (¬ e.busy) ∧ ((e.st = .opening ∨ e.st = .confirming))) 0 ({ tAs with st := .opening, retryUs := 32000 }) (tCoil [{ tAs with st := .opening, retryUs := 32000 }])) ∧
    ((fun (n : Nat) (e : Assoc) (s : State) => (s.assoc n = some e) ∧ (e.st = .established)) 0 tAs (tCoil [tAs])) ∧
    ((fun (n : Nat) (e : Assoc) (s : State) => (s.assoc n = some e) ∧ (e.busy)) 0 ({ tAs with st := .opening, busy := true }) (tCoil [{ tAs with st := .opening, busy := true }])) ∧
    ((fun (n : Nat) (e : Assoc) (s : State) => (s.assoc n = some e) ∧ (¬ e.busy)) 0 tAs (tCoil [tAs])) := 
  ⟨by decide +kernel,
   by decide +kernel,
   by decide +kernel,
   by decide +kernel,
   by decide +kernel,
   by refine ⟨?_, ?_, ?_, ?_, ?_, ?_⟩ <;> first | rfl | decide +kernel,
   by refine ⟨?_, ?_, ?_, ?_, ?_⟩ <;> first | decide +kernel | exact Nat.ne_of_gt (Nat.mod_lt _ (by decide)),
   by decide +kernel,
   by decide +kernel,
   by decide +kernel,
   by decide +kernel,
   by decide +kernel⟩

theorem test_witness_CoilCloseEffects :
    ((fun (h : CoilHdr) (e : Assoc) (s : State) => (s.coilPasses h) ∧ ((coilSeen h s).assocOf h = some e)) tHdr tAs (tCoil [tAs])) ∧
    ((fun (h : CoilHdr) (e : Assoc) (s : State) => (s.coilPasses h) ∧ ((coilSeen h s).assocOf h = some e) ∧ (e.st = .closing)) tHdr ({ tAs with st := .closing }) (tCoil [{ tAs with st := .closing }])) ∧
    ((fun (h : CoilHdr) (e : Assoc) (s : State) => (s.coilPasses h) ∧ ((coilSeen h s).assocOf h = some e) ∧ (e.st ≠ .closing)) tHdr tAs (tCoil [tAs])) ∧
    ((fun (n : Nat) (e : Assoc) (s : State) => (s.assoc n = some e) ∧ (e.st = .closing)) 0 ({ tAs with st := .closing, unacked := [{ index := 3 }] }) (tCoil [{ tAs with st := .closing, unacked := [{ index := 3 }] }])) ∧
    ((fun (n : Nat) (e : Assoc) (s : State) => (s.assoc n = some e) ∧ (e.st ≠ .closing)) 0 tAs (tCoil [tAs])) ∧
    ((fun (n : Nat) (i : Nat) (e : Assoc) (s : State) => (s.assoc n = some e) ∧ (e.unacked.any (fun u => u.index == i))) 0 3 ({ tAs with unacked := [{ index := 3 }] }) (tCoil [{ tAs with unacked := [{ index := 3 }] }])) ∧
    ((fun (n : Nat) (s : State) => (s.remoteBusy n)) 2 ({ tCoil [{ tAs with sinceAck := 3 }] with arr := { ns := [{ tNs 0 with loc := { remote := true, node := 2 } }], cmds := [{ id := 4, ns := 1, sent := true }] } })) ∧
    ((fun (n : Nat) (e : Assoc) (s : State) => (s.remoteBusy n) ∧ (s.assocTo n = some e)) 2 ({ tAs with sinceAck := 3 }) ({ tCoil [{ tAs with sinceAck := 3 }] with arr := { ns := [{ tNs 0 with loc := { remote := true, node := 2 } }], cmds := [{ id := 4, ns := 1, sent := true }] } })) ∧
    ((fun (n : Nat) (s : State) => (¬ s.remoteBusy n)) 3 ({ tCoil [{ tAs with sinceAck := 3 }] with arr := { ns := [{ tNs 0 with loc := { remote := true, node := 2 } }], cmds := [{ id := 4, ns := 1, sent := true }] } })) ∧
    ((fun (h : CoilHdr) (e : Assoc) (s : State) => (s.coilPasses h) ∧ ((coilSeen h s).coil.assocs.find? (fun e => e.opener && e.peer == h.src && (e.st == .opening || e.st == .confirming)) = some e)) tHdr ({ tAs with st := .opening }) (tCoil [{ tAs with st := .opening }])) ∧
    ((fun (h : CoilHdr) (r : Nat) (e : Assoc) (s : State) => (s.coilPasses h) ∧ ((coilSeen h s).coil.assocs.find? (fun e => e.peer == h.src && e.unacked.any (fun u => u.index == r % 2 ^ 32) && e.block == r / 2 ^ 32) = some e)) tHdr 3 ({ tAs with unacked := [{ index := 3 }] }) (tCoil [{ tAs with unacked := [{ index := 3 }] }])) ∧
    ((fun (h : CoilHdr) (n : Nat) (r : Nat) (e : Assoc) (s : State) => (n ≠ 1) ∧ (n ≠ 2) ∧ (s.coilPasses h) ∧ ((coilSeen h s).coil.assocs.find? (fun e => e.peer == h.src && e.unacked.any (fun u => u.index == r % 2 ^ 32) && e.block == r / 2 ^ 32) = some e)) tHdr 3 3 ({ tAs with unacked := [{ index := 3 }] }) (tCoil [{ tAs with unacked := [{ index := 3 }] }])) ∧
    ((fun (h : CoilHdr) (e : Assoc) (s : State) => (s.coilPasses h) ∧ ((coilSeen h s).assocOf h = some e) ∧ (e.st = .established)) ({ tHdr with ackIndex := 4 }) ({ tAs with unacked := [{ index := 3 }, { index := 4 }] }) (tCoil [{ tAs with unacked := [{ index := 3 }, { index := 4 }] }])) ∧
    ((fun (h : CoilHdr) (e : Assoc) (s : State) => (s.coilPasses h) ∧ ((coilSeen h s).assocOf h = some e) ∧ (e.st = .closed)) tHdr ({ tAs with st := .closed }) (tCoil [{ tAs with st := .closed }])) ∧
    ((fun (n : Nat) (e : Assoc) (s : State) => (s.assoc n = some e) ∧ (e.sinceAck ≠ 0) ∧ (e.st = .established)) 0 ({ tAs with sinceAck := 3 }) (tCoil [{ tAs with sinceAck := 3 }])) ∧
    ((fun (n : Nat) (e : Assoc) (s : State) => (s.assoc n = some e) ∧ (e.sinceAck = 0)) 0 tAs (tCoil [tAs])) ∧
    ((fun (n : Nat) (i : Nat) (e : Assoc) (u : Unacked) (s : State) => (s.assoc n = some e) ∧ (e.unacked.find? (fun u => u.index == i) = some u)) 0 3 ({ tAs with unacked := [{ index := 3 }] }) ({ index := 3 }) (tCoil [{ tAs with unacked := [{ index := 3 }] }])) ∧
    ((fun (n : Nat) (i : Nat) (e : Assoc) (s : State) => (s.assoc n = some e) ∧ (e.unacked.find? (fun u => u.index == i) = none)) 0 3 tAs (tCoil [tAs])) := by
  refine ⟨?_, ?_, ?_, ?_, ?_, ?_, ?_, ?_, ?_, ?_, ?_, ?_, ?_, ?_, ?_, ?_, ?_, ?_⟩ <;> decide +kernel

theorem test_witness_CoilMessageEffects :
    ((fun (h : CoilHdr) (d : Bytes) (e : Assoc) (s : State) => (s.coilTakes h d.length e) ∧ (granulesOk h d) ∧ (s.context e.no h.msgId = none) ∧ ((s.coil.reasm.filter (fun r => !r.complete)).length < 4096) ∧ ((h.tag.testBit 63 = true ∨ s.coil.posted.any (fun p => p.takes h.tag && s.postedOk p) = true ∨ s.unexpectedUsed + h.msgLen ≤ s.coil.cfg.unexpectedMib * 2 ^ 20))) ({ tHdr with index := 1023, msgLen := 12 }) (List.replicate 12 1) tAs (tCoil [tAs])) ∧
    ((fun (h : CoilHdr) (d : Bytes) (e : Assoc) (s : State) => (s.coilTakes h d.length e) ∧ (granulesOk h d) ∧ (s.context e.no h.msgId = none) ∧ ((s.coil.reasm.filter (fun r => !r.complete)).length < 4096) ∧ ((h.tag.testBit 63 = true ∨ s.coil.posted.any (fun p => p.takes h.tag && s.postedOk p) = true ∨ s.unexpectedUsed + h.msgLen ≤ s.coil.cfg.unexpectedMib * 2 ^ 20))) ({ tHdr with msgLen := 12, tag := 2 ^ 63 }) (List.replicate 12 1) tAs (tCoil [tAs])) ∧
    ((fun (h : CoilHdr) (d : Bytes) (e : Assoc) (s : State) => (s.coilTakes h d.length e) ∧ (granulesOk h d) ∧ (s.context e.no h.msgId = none) ∧ (h.tag.testBit 63 = false) ∧ (s.coil.posted.any (fun p => p.takes h.tag && s.postedOk p) = false) ∧ (s.coil.cfg.unexpectedMib * 2 ^ 20 < s.unexpectedUsed + h.msgLen)) ({ tHdr with msgLen := 12 }) (List.replicate 12 1) tAs ({ tCoil [tAs] with coil := { (tCoil [tAs]).coil with cfg := { unexpectedMib := 0 } } })) ∧
    ((fun (h : CoilHdr) (d : Bytes) (e : Assoc) (r : Reasm) (s : State) => (s.coilTakes h d.length e) ∧ (granulesOk h d) ∧ (s.context e.no h.msgId = some r) ∧ (r.msgLen = h.msgLen) ∧ (r.tag = h.tag)) ({ tHdr with msgLen := 4108, msgId := 6, offset := 4096 }) (List.replicate 12 1) tAs ({ msgId := 6, msgLen := 4108, src := 2 }) ({ tCoil [tAs] with coil := { (tCoil [tAs]).coil with reasm := [{ msgId := 6, msgLen := 4108, src := 2 }] } })) ∧
    ((fun (h : CoilHdr) (d : Bytes) (e : Assoc) (r : Region) (s : State) => (s.coilTakes h d.length e) ∧ (granulesOk h d) ∧ (regionCheck h true s = .ok r) ∧ (s.context e.no h.msgId = none) ∧ ((s.coil.reasm.filter (fun r => !r.complete)).length < 4096)) ({ tHdr with msgLen := 12, tag := (2 ^ 22 + 1) * 2 ^ 32 + 1 }) (List.replicate 12 1) tAs ({ idx := 1, live := true, gen := 1, len := 8192, read := true, write := true }) (tCoil [tAs])) ∧
    ((fun (h : CoilHdr) (d : Bytes) (e : Assoc) (n : Nat) (s : State) => (s.coilTakes h d.length e) ∧ (granulesOk h d) ∧ (regionCheck h true s = .error n)) ({ tHdr with msgLen := 12, tag := (2 ^ 22 + 1) * 2 ^ 32 + 2 }) (List.replicate 12 1) tAs 5 (tCoil [tAs])) ∧
    ((fun (h : CoilHdr) (d : Bytes) (e : Assoc) (n : Nat) (s : State) => (s.coilTakes h d.length e) ∧ (granulesOk h d) ∧ (regionCheck h true s = .error n)) ({ tHdr with msgLen := 12 }) (List.replicate 12 1) tAs 3 (tCoil [tAs])) ∧
    ((fun (h : CoilHdr) (e : Assoc) (r : Region) (s : State) => (s.coilTakes h 0 e) ∧ (regionCheck h false s = .ok r)) ({ tHdr with msgLen := 4096, msgId := 9, tag := (2 ^ 22 + 1) * 2 ^ 32 + 1 }) tAs ({ idx := 1, live := true, gen := 1, len := 8192, read := true, write := true }) (tCoil [tAs])) ∧
    ((fun (h : CoilHdr) (d : Bytes) (e : Assoc) (x : Nat × Nat × Nat) (s : State) => (s.coilTakes h d.length e) ∧ (granulesOk h d) ∧ (s.context e.no h.msgId = none) ∧ ((s.coil.reasm.filter (fun r => !r.complete)).length < 4096) ∧ (s.coil.reads.find? (fun x => x.1 == e.no && x.2.1 == h.tag % 2 ^ 32) = some x)) ({ tHdr with msgLen := 12, tag := 6 }) (List.replicate 12 1) tAs ((0, 6, 8192)) ({ tCoil [tAs] with coil := { (tCoil [tAs]).coil with reads := [(0, 6, 8192)] } })) := 
  ⟨by refine ⟨?_, ?_, ?_, ?_, ?_⟩ <;> first | rfl | decide +kernel | (simp only [State.coilTakes]; decide +kernel),
   by refine ⟨?_, ?_, ?_, ?_, ?_⟩ <;> first | rfl | decide +kernel | (simp only [State.coilTakes]; decide +kernel),
   by refine ⟨?_, ?_, ?_, ?_, ?_, ?_⟩ <;> first | rfl | decide +kernel | (simp only [State.coilTakes]; decide +kernel),
   by refine ⟨?_, ?_, ?_, ?_, ?_⟩ <;> first | rfl | decide +kernel | (simp only [State.coilTakes]; decide +kernel),
   by refine ⟨?_, ?_, ?_, ?_, ?_⟩ <;> first | rfl | decide +kernel | (simp only [State.coilTakes]; decide +kernel),
   by refine ⟨?_, ?_, ?_⟩ <;> first | rfl | decide +kernel | (simp only [State.coilTakes]; decide +kernel),
   by refine ⟨?_, ?_, ?_⟩ <;> first | rfl | decide +kernel | (simp only [State.coilTakes]; decide +kernel),
   by refine ⟨?_, ?_⟩ <;> first | rfl | decide +kernel | (simp only [State.coilTakes]; decide +kernel),
   by refine ⟨?_, ?_, ?_, ?_, ?_⟩ <;> first | rfl | decide +kernel | (simp only [State.coilTakes]; decide +kernel)⟩

theorem test_witness_CoilCommandEffects :
    ((fun (mb : Nat) (s : State) => (planRuns mb 0x0601 s (coilPlan s (coilGetStatusPlan s)) = true)) 0 ((tMb 0 0x0601 ([]) (tCoil [tAs])))) ∧
    ((fun (mb : Nat) (s : State) => (planRuns mb 0x0602 s (coilPlan s (coilConfigPlan s)) = true)) 0 ((tMb 0 0x0602 (leBytes 4 7) (tCoil [tAs])))) ∧
    ((fun (mb : Nat) (one : Bool) (sec : Bytes) (p : Parse) (s : State) => (planRuns mb 0x0603 s (coilPlan s (coilSetTrustPlan s)) = true) ∧ (trustFields (s.mb mb) = (one, 1, sec, p))) 0 ((trustFields ((tMb 0 0x0603 ([2, 1] ++ leBytes 30 0 ++ leBytes 32 99) (tCoil [tAs])).mb 0)).1) ((trustFields ((tMb 0 0x0603 ([2, 1] ++ leBytes 30 0 ++ leBytes 32 99) (tCoil [tAs])).mb 0)).2.2.1) ((trustFields ((tMb 0 0x0603 ([2, 1] ++ leBytes 30 0 ++ leBytes 32 99) (tCoil [tAs])).mb 0)).2.2.2) ((tMb 0 0x0603 ([2, 1] ++ leBytes 30 0 ++ leBytes 32 99) (tCoil [tAs])))) ∧
    ((fun (mb : Nat) (one : Bool) (sec : Bytes) (p : Parse) (s : State) => (planRuns mb 0x0603 s (coilPlan s (coilSetTrustPlan s)) = true) ∧ (trustFields (s.mb mb) = (one, 2, sec, p))) 0 ((trustFields ((tMb 0 0x0603 ([2, 2]) (tCoil [tAs])).mb 0)).1) ((trustFields ((tMb 0 0x0603 ([2, 2]) (tCoil [tAs])).mb 0)).2.2.1) ((trustFields ((tMb 0 0x0603 ([2, 2]) (tCoil [tAs])).mb 0)).2.2.2) ((tMb 0 0x0603 ([2, 2]) (tCoil [tAs])))) ∧
    ((fun (mb : Nat) (one : Bool) (sec : Bytes) (p : Parse) (s : State) => (planRuns mb 0x0603 s (coilPlan s (coilSetTrustPlan s)) = true) ∧ (trustFields (s.mb mb) = (one, 3, sec, p))) 0 ((trustFields ((tMb 0 0x0603 ([2, 3]) (tCoil [tAs])).mb 0)).1) ((trustFields ((tMb 0 0x0603 ([2, 3]) (tCoil [tAs])).mb 0)).2.2.1) ((trustFields ((tMb 0 0x0603 ([2, 3]) (tCoil [tAs])).mb 0)).2.2.2) ((tMb 0 0x0603 ([2, 3]) (tCoil [tAs])))) ∧
    ((fun (mb : Nat) (r : Region) (s : State) => (planRuns mb 0x0604 s (coilPlan s (coilRegionRegisterPlan s)) = true) ∧ (s.freeRegion = some r)) 0 ({ idx := 0 }) ((tMb 0 0x0604 ([0, 0, 3]) (tCoil [tAs])))) ∧
    ((fun (mb : Nat) (s : State) => (planRuns mb 0x0605 s (coilPlan s (coilRegionDeregisterPlan s)) = true)) 0 ((tMb 0 0x0605 (leBytes 4 (2 ^ 22 + 1)) (tCoil [tAs])))) ∧
    ((fun (mb : Nat) (s : State) => (planRuns mb 0x0606 s (coilPlan s (coilRecvPostPlan s)) = true)) 0 ((tMb 0 0x0606 ([]) (tCoil [tAs])))) ∧
    ((fun (mb : Nat) (s : State) => (planRuns mb 0x0606 s (coilPlan s (coilRecvPostPlan s)) = true) ∧ ((∀ r ∈ s.coil.reasm, r.dest ≠ .unexpected))) 0 (onMb 0 (fun m => { m with payload := leBytes 8 1 ++ leBytes 8 2 ++ leBytes 8 0 ++ leBytes 2 0 ++ leBytes 6 0 ++ leBytes 8 0 ++ leBytes 8 4096 }) (tMb 0 0x606 [] (tCoil [tAs])))) ∧
    ((fun (mb : Nat) (x : Ns) (s : State) => (planRuns mb 0x0607 s (coilPlan s (coilExportMemberPlan s)) = true) ∧ (exportTarget s (s.mb mb) = .ok x)) 0 ({ tNs 0 with adopted := false, markValid := false, arrayUid := 0 }) ((tMb 0 0x0607 (leBytes 4 0 ++ leBytes 4 1) ({ tArr with arr := { tArr.arr with ns := [{ tNs 0 with adopted := false, markValid := false, arrayUid := 0 }] } })))) := 
  ⟨by decide +kernel,
   by decide +kernel,
   by decide +kernel,
   by decide +kernel,
   by decide +kernel,
   by decide +kernel,
   by decide +kernel,
   by decide +kernel,
   by decide +kernel,
   by refine ⟨?_, ?_⟩ <;> rfl⟩

theorem test_witness_MailboxHostEffects :
    ((fun (mb : Nat) (v : Nat) (s : State) => (mb < 14) ∧ ((s.mb mb).lock = 0) ∧ (v ≠ 0) ∧ (v ≠ 0xFFFFFFFF)) 13 1 tUp) ∧
    ((fun (mb : Nat) (v : Nat) (s : State) => (mb < 14) ∧ ((s.mb mb).lock = 0) ∧ (v ≠ 0) ∧ (v ≠ 0xFFFFFFFF)) 0 0xFFFFFFFE tUp) ∧
    ((fun (mb : Nat) (s : State) => (mb < 14) ∧ (((s.mb mb).st = .idle ∨ (s.mb mb).st = .finished))) 13 ((onMb 13 (fun m => { m with lock := 5, st := .finished }) (tUp)))) ∧
    ((fun (mb : Nat) (s : State) => (mb < 14) ∧ (((s.mb mb).st = .idle ∨ (s.mb mb).st = .finished))) 0 tUp) ∧
    ((fun (mb : Nat) (v : Nat) (s : State) => (mb < 14) ∧ ((s.mb mb).lock ≠ 0) ∧ (v ≠ 0)) 0 0xFFFFFFFF ((onMb 0 (fun m => { m with lock := 5 }) (tUp)))) ∧
    ((fun (mb : Nat) (v : Nat) (s : State) => (mb < 14) ∧ ((s.mb mb).lock ≠ 0) ∧ (v ≠ 0)) 0 7 ((onMb 0 (fun m => { m with lock := 5, st := .executing }) (tUp)))) ∧
    ((fun (mb : Nat) => (14 ≤ mb)) 14) ∧
    ((fun (mb : Nat) (s : State) => (mb < 14) ∧ ((s.mb mb).lock ≠ 0) ∧ (((s.mb mb).st = .idle ∨ (s.mb mb).st = .finished))) 0 ((onMb 0 (fun m => { m with lock := 5 }) (tUp)))) ∧
    ((fun (mb : Nat) (s : State) => (mb < 14) ∧ ((s.mb mb).lock ≠ 0) ∧ (((s.mb mb).st = .idle ∨ (s.mb mb).st = .finished))) 13 ((onMb 13 (fun m => { m with lock := 5, st := .finished }) (tUp)))) ∧
    ((fun (mb : Nat) (s : State) => (mb < 14) ∧ (¬ ((s.mb mb).lock ≠ 0 ∧ ((s.mb mb).st = .idle ∨ (s.mb mb).st = .finished)))) 0 tUp) ∧
    ((fun (mb : Nat) (s : State) => (mb < 14) ∧ (¬ ((s.mb mb).lock ≠ 0 ∧ ((s.mb mb).st = .idle ∨ (s.mb mb).st = .finished)))) 0 ((onMb 0 (fun m => { m with lock := 5, st := .executing }) (tUp)))) ∧
    ((fun (mb : Nat) (s : State) => (mb < 14) ∧ ((s.mb mb).st = .queued)) 0 ((onMb 0 (fun m => { m with lock := 5, st := .queued }) (tUp)))) ∧
    ((fun (mb : Nat) (s : State) => (mb < 14) ∧ ((s.mb mb).st = .queued)) 0 ((onMb 0 (fun m => { m with lock := 5, st := .queued }) (tUp)))) ∧
    ((fun (mb : Nat) (s : State) => (mb < 14) ∧ ((s.mb mb).st ≠ .queued)) 0 tUp) := by
  refine ⟨?_, ?_, ?_, ?_, ?_, ?_, ?_, ?_, ?_, ?_, ?_, ?_, ?_, ?_⟩ <;> decide +kernel

theorem test_witness_MailboxTakeEffects :
    ((fun (i : Nat) (s : State) => (¬ s.dev.activating) ∧ (s.mci.restart = 0) ∧ (s.released) ∧ (nextQueued s = some i)) 3 ((onMb 3 (fun m => { m with lock := 1, st := .queued, opcode := 0x0101 }) tUp))) ∧
    ((fun (s : State) => (nextQueued s = none)) tUp) ∧
    ((fun (mb : Nat) (s : State) => (mb < 16) ∧ ((s.mb mb).st = .fetching) ∧ (¬ (s.mb mb).started) ∧ (¬ inCatalogue (s.mb mb).opcode)) 3 ((onMb 3 (fun m => { m with lock := 1, st := .fetching, opcode := 0x0100,  }) tUp))) ∧
    ((fun (mb : Nat) (inp : Option Bytes) (ok : Bool) (s : State) => (mb < 16) ∧ ((s.mb mb).st = .fetching) ∧ (¬ (s.mb mb).started) ∧ (inCatalogue (s.mb mb).opcode) ∧ (¬ s.dev.recoveryBoot) ∧ (inputRead mb (s.mb mb) inp ok = none)) 3 none false ((onMb 3 (fun m => { m with lock := 1, st := .fetching, opcode := 0x0101, inLen := 5, inAddr := 4096 }) tUp))) ∧
    ((fun (mb : Nat) (inp : Option Bytes) (ok : Bool) (b : Bytes) (s : State) => (mb < 16) ∧ ((s.mb mb).st = .fetching) ∧ (¬ (s.mb mb).started) ∧ (inCatalogue (s.mb mb).opcode) ∧ (¬ s.dev.recoveryBoot) ∧ (inputRead mb (s.mb mb) inp ok = some b) ∧ (authorityOf (s.mb mb).opcode = 1) ∧ (bit (s.mb mb).flags 0 = false)) 3 none true ([]) ((onMb 3 (fun m => { m with lock := 1, st := .fetching, opcode := 0x0101,  }) tUp))) ∧
    ((fun (mb : Nat) (inp : Option Bytes) (ok : Bool) (b : Bytes) (s : State) => (mb < 16) ∧ ((s.mb mb).st = .fetching) ∧ (¬ (s.mb mb).started) ∧ (inCatalogue (s.mb mb).opcode) ∧ (¬ s.dev.recoveryBoot) ∧ (inputRead mb (s.mb mb) inp ok = some b) ∧ (authorityOf (s.mb mb).opcode ≠ 1) ∧ (envelopeStep s (s.mb mb).opcode (flag (bit (s.mb mb).flags 0) 0) (s.mb mb).params b (envelopeKey s (s.mb mb).opcode (s.mb mb).params).1 (envelopeKey s (s.mb mb).opcode (s.mb mb).params).2 ≠ 0)) 3 none true ([]) ((onMb 3 (fun m => { m with lock := 1, st := .fetching, opcode := 0x0211,  }) tUp))) ∧
    ((fun (mb : Nat) (r : MbResp) (s : State) => (mb < 16) ∧ ((s.mb mb).staged = some r) ∧ (s.mci.restart ≠ 2) ∧ (s.mci.restartMb = none)) 3 ({}) ((onMb 3 (fun m => { m with st := .executing, started := true, staged := some {} }) tUp))) ∧
    ((fun (mb : Nat) (s : State) => ((s.mb mb).staged = none)) 3 tUp) := by
  refine ⟨?_, ?_, ?_, ?_, ?_, ?_, ?_, ?_⟩ <;> decide +kernel

theorem test_witness_EarliestRingFirst :
    ((fun (s : State) (i : Nat) => (nextQueued s = some i)) ((onMb 2 (fun m => { m with lock := 1, st := .queued, ringFt := { turn := 50 } }) (onMb 3 (fun m => { m with lock := 1, st := .queued, ringFt := { turn := 40 } }) tUp))) 3) ∧
    ((fun (s : State) (i : Nat) => (nextQueued s = some i)) ((onMb 2 (fun m => { m with lock := 1, st := .queued, ringFt := { turn := 40 } }) (onMb 3 (fun m => { m with lock := 1, st := .queued, ringFt := { turn := 40 } }) tUp))) 2) := by
  refine ⟨?_, ?_⟩ <;> decide +kernel

theorem test_witness_RestartEffects :
    ((fun (mb : Nat) (s : State) => (planRuns mb 0x0104 s (deviceRestartPlan s) = true) ∧ (s.othersExecuting mb ≠ [])) 0 ((tMb 0 0x0104 ([]) ((onMb 5 (fun m => { m with st := .executing, started := true, opcode := 0x0202 }) tArr))))) ∧
    ((fun (mb : Nat) (s : State) => (planRuns mb 0x0104 s (deviceRestartPlan s) = true) ∧ (s.othersExecuting mb = [])) 0 ((tMb 0 0x0104 ([]) (tArr)))) ∧
    ((fun (s : State) => (s.mci.restart = 1)) ({ tUp with mci := { tUp.mci with restart := 1 } })) ∧
    ((fun (s : State) => (s.mci.restart ≠ 1)) tUp) ∧
    ((fun (s : State) => (s.mci.restart = 2)) ({ tUp with mci := { tUp.mci with restart := 2 } })) ∧
    ((fun (s : State) => (s.mci.restart ≠ 2)) tUp) := by
  refine ⟨?_, ?_, ?_, ?_, ?_, ?_⟩ <;> decide +kernel

theorem test_witness_SidebandEffects :
    ((fun (mb : Nat) (off : Nat) (d : Bytes) (s : State) => ((mb = 14 ∨ mb = 15)) ∧ (s.pins.main) ∧ (0x10000 ≤ off) ∧ (off + d.length ≤ 0x50000)) 14 0x10000 ([1]) tUp) ∧
    ((fun (mb : Nat) (off : Nat) (d : Bytes) (s : State) => ((mb = 14 ∨ mb = 15)) ∧ (s.pins.main) ∧ (0x10000 ≤ off) ∧ (off + d.length ≤ 0x50000)) 15 0x4FFFF ([1]) tUp) ∧
    ((fun (mb : Nat) (d : Bytes) (s : State) => ((mb = 14 ∨ mb = 15)) ∧ (s.pins.main) ∧ (d.length = 4)) 14 ([1, 0, 0, 0]) tUp) ∧
    ((fun (mb : Nat) (off : Nat) (d : Bytes) => ((mb = 14 ∨ mb = 15)) ∧ (¬ sbRange off d.length)) 14 0x50000 ([1])) ∧
    ((fun (mb : Nat) (off : Nat) (d : Bytes) (s : State) => ((mb = 14 ∨ mb = 15)) ∧ (sbRange off d.length) ∧ (¬ s.pins.main)) 14 0x10000 ([1]) State.reset) ∧
    ((fun (mb : Nat) (off : Nat) (n : Nat) (s : State) => ((mb = 14 ∨ mb = 15)) ∧ (s.pins.main) ∧ (n ≤ 1008) ∧ (sbRange off n)) 14 0x10000 1008 tUp) ∧
    ((fun (mb : Nat) (off : Nat) (n : Nat) (s : State) => ((mb = 14 ∨ mb = 15)) ∧ (s.pins.main) ∧ (n ≤ 1008) ∧ (sbRange off n)) 15 0 64 tUp) ∧
    ((fun (n : Nat) => (1008 < n)) 1009) ∧
    ((fun (mb : Nat) (s : State) => ((mb = 14 ∨ mb = 15)) ∧ (s.pins.main) ∧ ((s.mb mb).lock ≠ 0) ∧ (((s.mb mb).st = .idle ∨ (s.mb mb).st = .finished))) 14 ((onMb 14 (fun m => { m with lock := 1 }) tUp))) ∧
    ((fun (mb : Nat) (s : State) => ((mb = 14 ∨ mb = 15)) ∧ (s.pins.main) ∧ ((s.mb mb).st = .queued)) 15 ((onMb 15 (fun m => { m with lock := 1, st := .queued }) tUp))) ∧
    ((fun (mb : Nat) => ((mb = 14 ∨ mb = 15))) 14) ∧
    ((fun (mb : Nat) (s : State) => ((mb = 14 ∨ mb = 15)) ∧ (¬ s.pins.main) ∧ (s.cfg.pmeEn)) 14 ({ State.reset with cfg := { State.reset.cfg with pmeEn := true } })) ∧
    ((fun (mb : Nat) (s : State) => ((mb = 14 ∨ mb = 15)) ∧ (s.pins.main) ∧ (s.ep.d3hot)) 14 ({ tUp with ep := { tUp.ep with d3hot := true } })) ∧
    ((fun (mb : Nat) (s : State) => ((mb = 14 ∨ mb = 15)) ∧ (s.pins.main) ∧ (¬ s.ep.d3hot)) 14 tUp) ∧
    ((fun (e : Nat) => (0 < e) ∧ (e < 0xFF)) 1) ∧
    ((fun (e : Nat) => (0 < e) ∧ (e < 0xFF)) 0xFE) ∧
    ((fun (e : Nat) => ((e = 0 ∨ 0xFF ≤ e))) 0) ∧
    ((fun (e : Nat) => ((e = 0 ∨ 0xFF ≤ e))) 0xFF) ∧
    ((fun (n : Nat) => (n ≠ 0)) 1) := by
  refine ⟨?_, ?_, ?_, ?_, ?_, ?_, ?_, ?_, ?_, ?_, ?_, ?_, ?_, ?_, ?_, ?_, ?_, ?_, ?_⟩ <;> decide +kernel

theorem test_witness_DeviceCommandEffects :
    ((fun (mb : Nat) (s : State) => (planRuns mb 0x0101 s (identifyDevicePlan s) = true)) 0 ((tMb 0 0x0101 ([]) (tArr)))) ∧
    ((fun (mb : Nat) (s : State) => (planRuns mb 0x0102 s (getLimitsPlan s) = true)) 0 ((tMb 0 0x0102 ([]) (tArr)))) ∧
    ((fun (mb : Nat) (l : Nat) (v : Nat) (i : Nat) (name : Bytes) (p : Parse) (s : State) => (planRuns mb 0x0103 s (deviceSetConfigPlan s) = true) ∧ (setConfigFields s (s.mb mb) = (l, v, i, name, p))) 0 ((setConfigFields (tMb 0 0x0103 ([1, 0, 5, 0, 7, 0]) (tArr)) ((tMb 0 0x0103 ([1, 0, 5, 0, 7, 0]) (tArr)).mb 0)).1) ((setConfigFields (tMb 0 0x0103 ([1, 0, 5, 0, 7, 0]) (tArr)) ((tMb 0 0x0103 ([1, 0, 5, 0, 7, 0]) (tArr)).mb 0)).2.1) ((setConfigFields (tMb 0 0x0103 ([1, 0, 5, 0, 7, 0]) (tArr)) ((tMb 0 0x0103 ([1, 0, 5, 0, 7, 0]) (tArr)).mb 0)).2.2.1) ((setConfigFields (tMb 0 0x0103 ([1, 0, 5, 0, 7, 0]) (tArr)) ((tMb 0 0x0103 ([1, 0, 5, 0, 7, 0]) (tArr)).mb 0)).2.2.2.1) ((setConfigFields (tMb 0 0x0103 ([1, 0, 5, 0, 7, 0]) (tArr)) ((tMb 0 0x0103 ([1, 0, 5, 0, 7, 0]) (tArr)).mb 0)).2.2.2.2) ((tMb 0 0x0103 ([1, 0, 5, 0, 7, 0]) (tArr)))) ∧
    ((fun (mb : Nat) (ok : Bool) (i : Nat) (p : Parse) (s : State) => (planRuns mb 0x0105 s (unitPlan ok s) = true) ∧ (unitFields (s.mb mb) = (1, i, 1, p)) ∧ ((s.mb mb).staged = none) ∧ ((setKiln i false s).kilnChanging i)) 0 false 2 ((unitFields ((tMb 0 0x0105 ([1, 0, 2, 0, 1]) ({ tArr with sched := { tArr.sched with servicePending := 0x1FFFFF } })).mb 0)).2.2.2) ((tMb 0 0x0105 ([1, 0, 2, 0, 1]) ({ tArr with sched := { tArr.sched with servicePending := 0x1FFFFF } })))) ∧
    ((fun (mb : Nat) (ok : Bool) (i : Nat) (p : Parse) (s : State) => (planRuns mb 0x0105 s (unitPlan ok s) = true) ∧ (unitFields (s.mb mb) = (1, i, 2, p)) ∧ ((s.mb mb).staged = none) ∧ ((setKiln i true s).kilnChanging i)) 0 true 2 ((unitFields ((tMb 0 0x0105 ([1, 0, 2, 0, 2]) ({ tArr with sched := { tArr.sched with kilnSet := 11, service := 0x1FFFFB } })).mb 0)).2.2.2) ((tMb 0 0x0105 ([1, 0, 2, 0, 2]) ({ tArr with sched := { tArr.sched with kilnSet := 11, service := 0x1FFFFB } })))) ∧
    ((fun (mb : Nat) (ok : Bool) (k : Nat) (i : Nat) (p : Parse) (s : State) => (planRuns mb 0x0105 s (unitPlan ok s) = true) ∧ (unitFields (s.mb mb) = (k, i, 4, p))) 0 false 2 23 ((unitFields ((tMb 0 0x0105 ([2, 0, 23, 0, 4]) (tArr)).mb 0)).2.2.2) ((tMb 0 0x0105 ([2, 0, 23, 0, 4]) (tArr)))) ∧
    ((fun (mb : Nat) (ok : Bool) (i : Nat) (p : Parse) (s : State) => (planRuns mb 0x0105 s (unitPlan ok s) = true) ∧ (unitFields (s.mb mb) = (2, i, 3, p)) ∧ ((s.mb mb).staged = none) ∧ (i < s.arr.ports.length) ∧ ((s.port i).power)) 0 false 2 ((unitFields ((tMb 0 0x0105 ([2, 0, 2, 0, 3]) (tArr)).mb 0)).2.2.2) ((tMb 0 0x0105 ([2, 0, 2, 0, 3]) (tArr)))) ∧
    ((fun (mb : Nat) (ok : Bool) (i : Nat) (p : Parse) (s : State) => (planRuns mb 0x0105 s (unitPlan ok s) = true) ∧ (unitFields (s.mb mb) = (3, i, 3, p)) ∧ ((s.mb mb).staged = none)) 0 false 0 ((unitFields ((tMb 0 0x0105 ([3, 0, 0, 0, 3]) (tArr)).mb 0)).2.2.2) ((tMb 0 0x0105 ([3, 0, 0, 0, 3]) (tArr)))) ∧
    ((fun (mb : Nat) (s : State) => (s.mbReady mb 0x0105) ∧ ((unitPlan false s (s.mb mb)).noObject = none) ∧ ((unitPlan false s (s.mb mb)).busy = false) ∧ (¬ (unitPlan false s (s.mb mb)).objects.any (fun o => (s.heldObjects mb).contains o)) ∧ (s.stateAllows 0x0105) ∧ ((unitPlan false s (s.mb mb)).refuse = some (stConflict, 0, 2))) 0 ((tMb 0 0x0105 ([1, 0, 2, 0, 2]) ({ tArr with sched := { tArr.sched with kilnSet := 11, service := 0x1FFFFB } })))) := by
  refine ⟨?_, ?_, ?_, ?_, ?_, ?_, ?_, ?_, ?_⟩ <;> decide +kernel

theorem test_witness_MemberMciEffects :
    ((fun (mb : Nat) (s : State) => (planRuns mb 0x0201 s (memberListPlan s) = true)) 0 ((tMb 0 0x0201 ([]) (tArr)))) ∧
    ((fun (mb : Nat) (n : Ns) (miss : Option Nat) (jn : Nat) (v : Nat) (allow : Bool) (p : Parse) (s : State) => (planRuns mb 0x0202 s (memberAdoptPlan s) = true) ∧ (adoptFields s (s.mb mb) = (some n, miss, jn, v, allow, p)) ∧ ((s.mb mb).staged = none)) 0 ({ tNs 3 with adopted := false, markValid := false, arrayUid := 0, dataSectors := 900000, ident := { uid := 103, capacity := 2000000 } }) ((adoptFields (tMb 0 0x0202 ([1, 0, 3, 0, 1, 0, 0, 0]) ({ tArr with arr := { tArr.arr with ns := [tNs 0, tNs 1, tNs 2, { tNs 3 with adopted := false, markValid := false, arrayUid := 0, dataSectors := 900000, ident := { uid := 103, capacity := 2000000 } }], arrays := [tA] } })) ((tMb 0 0x0202 ([1, 0, 3, 0, 1, 0, 0, 0]) ({ tArr with arr := { tArr.arr with ns := [tNs 0, tNs 1, tNs 2, { tNs 3 with adopted := false, markValid := false, arrayUid := 0, dataSectors := 900000, ident := { uid := 103, capacity := 2000000 } }], arrays := [tA] } })).mb 0)).2.1) ((adoptFields (tMb 0 0x0202 ([1, 0, 3, 0, 1, 0, 0, 0]) ({ tArr with arr := { tArr.arr with ns := [tNs 0, tNs 1, tNs 2, { tNs 3 with adopted := false, markValid := false, arrayUid := 0, dataSectors := 900000, ident := { uid := 103, capacity := 2000000 } }], arrays := [tA] } })) ((tMb 0 0x0202 ([1, 0, 3, 0, 1, 0, 0, 0]) ({ tArr with arr := { tArr.arr with ns := [tNs 0, tNs 1, tNs 2, { tNs 3 with adopted := false, markValid := false, arrayUid := 0, dataSectors := 900000, ident := { uid := 103, capacity := 2000000 } }], arrays := [tA] } })).mb 0)).2.2.1) ((adoptFields (tMb 0 0x0202 ([1, 0, 3, 0, 1, 0, 0, 0]) ({ tArr with arr := { tArr.arr with ns := [tNs 0, tNs 1, tNs 2, { tNs 3 with adopted := false, markValid := false, arrayUid := 0, dataSectors := 900000, ident := { uid := 103, capacity := 2000000 } }], arrays := [tA] } })) ((tMb 0 0x0202 ([1, 0, 3, 0, 1, 0, 0, 0]) ({ tArr with arr := { tArr.arr with ns := [tNs 0, tNs 1, tNs 2, { tNs 3 with adopted := false, markValid := false, arrayUid := 0, dataSectors := 900000, ident := { uid := 103, capacity := 2000000 } }], arrays := [tA] } })).mb 0)).2.2.2.1) ((adoptFields (tMb 0 0x0202 ([1, 0, 3, 0, 1, 0, 0, 0]) ({ tArr with arr := { tArr.arr with ns := [tNs 0, tNs 1, tNs 2, { tNs 3 with adopted := false, markValid := false, arrayUid := 0, dataSectors := 900000, ident := { uid := 103, capacity := 2000000 } }], arrays := [tA] } })) ((tMb 0 0x0202 ([1, 0, 3, 0, 1, 0, 0, 0]) ({ tArr with arr := { tArr.arr with ns := [tNs 0, tNs 1, tNs 2, { tNs 3 with adopted := false, markValid := false, arrayUid := 0, dataSectors := 900000, ident := { uid := 103, capacity := 2000000 } }], arrays := [tA] } })).mb 0)).2.2.2.2.1) ((adoptFields (tMb 0 0x0202 ([1, 0, 3, 0, 1, 0, 0, 0]) ({ tArr with arr := { tArr.arr with ns := [tNs 0, tNs 1, tNs 2, { tNs 3 with adopted := false, markValid := false, arrayUid := 0, dataSectors := 900000, ident := { uid := 103, capacity := 2000000 } }], arrays := [tA] } })) ((tMb 0 0x0202 ([1, 0, 3, 0, 1, 0, 0, 0]) ({ tArr with arr := { tArr.arr with ns := [tNs 0, tNs 1, tNs 2, { tNs 3 with adopted := false, markValid := false, arrayUid := 0, dataSectors := 900000, ident := { uid := 103, capacity := 2000000 } }], arrays := [tA] } })).mb 0)).2.2.2.2.2) ((tMb 0 0x0202 ([1, 0, 3, 0, 1, 0, 0, 0]) ({ tArr with arr := { tArr.arr with ns := [tNs 0, tNs 1, tNs 2, { tNs 3 with adopted := false, markValid := false, arrayUid := 0, dataSectors := 900000, ident := { uid := 103, capacity := 2000000 } }], arrays := [tA] } })))) ∧
    ((fun (mb : Nat) (n : Ns) (miss : Option Nat) (c : Nat) (p : Parse) (s : State) => (planRuns mb 0x0203 s (memberReleasePlan s) = true) ∧ (releaseFields s (s.mb mb) = (some n, miss, c, p)) ∧ ((memberStatus n = 0 ∨ memberStatus n = 5))) 0 ({ tNs 3 with adopted := false, markValid := false, arrayUid := 0, dataSectors := 900000, ident := { uid := 103, capacity := 2000000 } }) ((releaseFields (tMb 0 0x0203 ([1, 0, 3, 0, 1, 0, 0, 0]) ({ tArr with arr := { tArr.arr with ns := [tNs 0, tNs 1, tNs 2, { tNs 3 with adopted := false, markValid := false, arrayUid := 0, dataSectors := 900000, ident := { uid := 103, capacity := 2000000 } }], arrays := [tA] } })) ((tMb 0 0x0203 ([1, 0, 3, 0, 1, 0, 0, 0]) ({ tArr with arr := { tArr.arr with ns := [tNs 0, tNs 1, tNs 2, { tNs 3 with adopted := false, markValid := false, arrayUid := 0, dataSectors := 900000, ident := { uid := 103, capacity := 2000000 } }], arrays := [tA] } })).mb 0)).2.1) ((releaseFields (tMb 0 0x0203 ([1, 0, 3, 0, 1, 0, 0, 0]) ({ tArr with arr := { tArr.arr with ns := [tNs 0, tNs 1, tNs 2, { tNs 3 with adopted := false, markValid := false, arrayUid := 0, dataSectors := 900000, ident := { uid := 103, capacity := 2000000 } }], arrays := [tA] } })) ((tMb 0 0x0203 ([1, 0, 3, 0, 1, 0, 0, 0]) ({ tArr with arr := { tArr.arr with ns := [tNs 0, tNs 1, tNs 2, { tNs 3 with adopted := false, markValid := false, arrayUid := 0, dataSectors := 900000, ident := { uid := 103, capacity := 2000000 } }], arrays := [tA] } })).mb 0)).2.2.1) ((releaseFields (tMb 0 0x0203 ([1, 0, 3, 0, 1, 0, 0, 0]) ({ tArr with arr := { tArr.arr with ns := [tNs 0, tNs 1, tNs 2, { tNs 3 with adopted := false, markValid := false, arrayUid := 0, dataSectors := 900000, ident := { uid := 103, capacity := 2000000 } }], arrays := [tA] } })) ((tMb 0 0x0203 ([1, 0, 3, 0, 1, 0, 0, 0]) ({ tArr with arr := { tArr.arr with ns := [tNs 0, tNs 1, tNs 2, { tNs 3 with adopted := false, markValid := false, arrayUid := 0, dataSectors := 900000, ident := { uid := 103, capacity := 2000000 } }], arrays := [tA] } })).mb 0)).2.2.2) ((tMb 0 0x0203 ([1, 0, 3, 0, 1, 0, 0, 0]) ({ tArr with arr := { tArr.arr with ns := [tNs 0, tNs 1, tNs 2, { tNs 3 with adopted := false, markValid := false, arrayUid := 0, dataSectors := 900000, ident := { uid := 103, capacity := 2000000 } }], arrays := [tA] } })))) ∧
    ((fun (mb : Nat) (n : Ns) (miss : Option Nat) (c : Nat) (p : Parse) (s : State) => (planRuns mb 0x0203 s (memberReleasePlan s) = true) ∧ (releaseFields s (s.mb mb) = (some n, miss, c, p)) ∧ (memberStatus n ≠ 0) ∧ (memberStatus n ≠ 5) ∧ ((s.mb mb).staged = none)) 0 ({ tNs 3 with adopted := true, markValid := true, arrayUid := 0, dataSectors := 900000, ident := { uid := 103, capacity := 2000000 } }) ((releaseFields (tMb 0 0x0203 ([1, 0, 3, 0, 1, 0, 0, 0]) ({ tArr with arr := { tArr.arr with ns := [tNs 0, tNs 1, tNs 2, { tNs 3 with adopted := true, markValid := true, arrayUid := 0, dataSectors := 900000, ident := { uid := 103, capacity := 2000000 } }], arrays := [tA] } })) ((tMb 0 0x0203 ([1, 0, 3, 0, 1, 0, 0, 0]) ({ tArr with arr := { tArr.arr with ns := [tNs 0, tNs 1, tNs 2, { tNs 3 with adopted := true, markValid := true, arrayUid := 0, dataSectors := 900000, ident := { uid := 103, capacity := 2000000 } }], arrays := [tA] } })).mb 0)).2.1) ((releaseFields (tMb 0 0x0203 ([1, 0, 3, 0, 1, 0, 0, 0]) ({ tArr with arr := { tArr.arr with ns := [tNs 0, tNs 1, tNs 2, { tNs 3 with adopted := true, markValid := true, arrayUid := 0, dataSectors := 900000, ident := { uid := 103, capacity := 2000000 } }], arrays := [tA] } })) ((tMb 0 0x0203 ([1, 0, 3, 0, 1, 0, 0, 0]) ({ tArr with arr := { tArr.arr with ns := [tNs 0, tNs 1, tNs 2, { tNs 3 with adopted := true, markValid := true, arrayUid := 0, dataSectors := 900000, ident := { uid := 103, capacity := 2000000 } }], arrays := [tA] } })).mb 0)).2.2.1) ((releaseFields (tMb 0 0x0203 ([1, 0, 3, 0, 1, 0, 0, 0]) ({ tArr with arr := { tArr.arr with ns := [tNs 0, tNs 1, tNs 2, { tNs 3 with adopted := true, markValid := true, arrayUid := 0, dataSectors := 900000, ident := { uid := 103, capacity := 2000000 } }], arrays := [tA] } })) ((tMb 0 0x0203 ([1, 0, 3, 0, 1, 0, 0, 0]) ({ tArr with arr := { tArr.arr with ns := [tNs 0, tNs 1, tNs 2, { tNs 3 with adopted := true, markValid := true, arrayUid := 0, dataSectors := 900000, ident := { uid := 103, capacity := 2000000 } }], arrays := [tA] } })).mb 0)).2.2.2) ((tMb 0 0x0203 ([1, 0, 3, 0, 1, 0, 0, 0]) ({ tArr with arr := { tArr.arr with ns := [tNs 0, tNs 1, tNs 2, { tNs 3 with adopted := true, markValid := true, arrayUid := 0, dataSectors := 900000, ident := { uid := 103, capacity := 2000000 } }], arrays := [tA] } })))) ∧
    ((fun (mb : Nat) (a : Arr) (i : Nat) (miss : Option Nat) (p : Parse) (s : State) => (planRuns mb 0x0204 s (memberFailPlan s) = true) ∧ (poolFields s (s.mb mb) = (some a, i, miss, p)) ∧ (s.indexFailed a i)) 0 ({ tA with body := { tA.body with members := nthMod tA.body.members 2 (fun e => { e with state := 2 }) } }) 2 ((poolFields (tMb 0 0x0204 ([1, 0, 2, 0]) ({ tArr with arr := { tArr.arr with ns := [tNs 0, tNs 1], arrays := [{ tA with body := { tA.body with members := nthMod tA.body.members 2 (fun e => { e with state := 2 }) } }] } })) ((tMb 0 0x0204 ([1, 0, 2, 0]) ({ tArr with arr := { tArr.arr with ns := [tNs 0, tNs 1], arrays := [{ tA with body := { tA.body with members := nthMod tA.body.members 2 (fun e => { e with state := 2 }) } }] } })).mb 0)).2.2.1) ((poolFields (tMb 0 0x0204 ([1, 0, 2, 0]) ({ tArr with arr := { tArr.arr with ns := [tNs 0, tNs 1], arrays := [{ tA with body := { tA.body with members := nthMod tA.body.members 2 (fun e => { e with state := 2 }) } }] } })) ((tMb 0 0x0204 ([1, 0, 2, 0]) ({ tArr with arr := { tArr.arr with ns := [tNs 0, tNs 1], arrays := [{ tA with body := { tA.body with members := nthMod tA.body.members 2 (fun e => { e with state := 2 }) } }] } })).mb 0)).2.2.2) ((tMb 0 0x0204 ([1, 0, 2, 0]) ({ tArr with arr := { tArr.arr with ns := [tNs 0, tNs 1], arrays := [{ tA with body := { tA.body with members := nthMod tA.body.members 2 (fun e => { e with state := 2 }) } }] } })))) ∧
    ((fun (mb : Nat) (a : Arr) (i : Nat) (miss : Option Nat) (p : Parse) (n : Ns) (s : State) => (planRuns mb 0x0204 s (memberFailPlan s) = true) ∧ (poolFields s (s.mb mb) = (some a, i, miss, p)) ∧ (¬ s.indexFailed a i) ∧ (s.memberAt a i = some n) ∧ (s.ns n.id = some n) ∧ (n.arrayUid ≠ 0) ∧ (¬ n.stale) ∧ ((s.mb mb).staged = none)) 0 tA 2 ((poolFields (tMb 0 0x0204 ([1, 0, 2, 0]) (tArr)) ((tMb 0 0x0204 ([1, 0, 2, 0]) (tArr)).mb 0)).2.2.1) ((poolFields (tMb 0 0x0204 ([1, 0, 2, 0]) (tArr)) ((tMb 0 0x0204 ([1, 0, 2, 0]) (tArr)).mb 0)).2.2.2) (tNs 2) ((tMb 0 0x0204 ([1, 0, 2, 0]) (tArr)))) ∧
    ((fun (mb : Nat) (a : Arr) (i : Nat) (miss : Option Nat) (p : Parse) (s : State) => (planRuns mb 0x0204 s (memberFailPlan s) = true) ∧ (poolFields s (s.mb mb) = (some a, i, miss, p)) ∧ (¬ s.indexFailed a i) ∧ (s.memberAt a i = none) ∧ (s.array a.id = some a) ∧ ((s.mb mb).staged = none)) 0 tA 2 ((poolFields (tMb 0 0x0204 ([1, 0, 2, 0]) ({ tArr with arr := { tArr.arr with ns := [tNs 0, tNs 1], arrays := [tA] } })) ((tMb 0 0x0204 ([1, 0, 2, 0]) ({ tArr with arr := { tArr.arr with ns := [tNs 0, tNs 1], arrays := [tA] } })).mb 0)).2.2.1) ((poolFields (tMb 0 0x0204 ([1, 0, 2, 0]) ({ tArr with arr := { tArr.arr with ns := [tNs 0, tNs 1], arrays := [tA] } })) ((tMb 0 0x0204 ([1, 0, 2, 0]) ({ tArr with arr := { tArr.arr with ns := [tNs 0, tNs 1], arrays := [tA] } })).mb 0)).2.2.2) ((tMb 0 0x0204 ([1, 0, 2, 0]) ({ tArr with arr := { tArr.arr with ns := [tNs 0, tNs 1], arrays := [tA] } })))) ∧
    ((fun (mb : Nat) (a : Arr) (i : Nat) (miss : Option Nat) (q : Parse) (n : Ns) (m2 : Option Nat) (p : Parse) (s : State) => (planRuns mb 0x0205 s (memberReplacePlan s) = true) ∧ (poolFields s (s.mb mb) = (some a, i, miss, q)) ∧ (locFields s q 3 16 = (some n, m2, p)) ∧ ((s.mb mb).staged = none)) 0 ({ tA with body := { tA.body with members := nthMod tA.body.members 2 (fun e => { e with state := 2 }) } }) 2 ((poolFields (tMb 0 0x0205 ([1, 0, 2, 0, 0, 0, 0, 0, 0, 0, 0, 0, 0, 0, 0, 0] ++ [1, 0, 3, 0, 1, 0, 0, 0]) ({ tArr with arr := { tArr.arr with ns := [tNs 0, tNs 1, { tNs 3 with adopted := true, markValid := true, arrayUid := 0, dataSectors := 900000, ident := { uid := 103, capacity := 2000000 } }], arrays := [{ tA with body := { tA.body with members := nthMod tA.body.members 2 (fun e => { e with state := 2 }) } }] } })) ((tMb 0 0x0205 ([1, 0, 2, 0, 0, 0, 0, 0, 0, 0, 0, 0, 0, 0, 0, 0] ++ [1, 0, 3, 0, 1, 0, 0, 0]) ({ tArr with arr := { tArr.arr with ns := [tNs 0, tNs 1, { tNs 3 with adopted := true, markValid := true, arrayUid := 0, dataSectors := 900000, ident := { uid := 103, capacity := 2000000 } }], arrays := [{ tA with body := { tA.body with members := nthMod tA.body.members 2 (fun e => { e with state := 2 }) } }] } })).mb 0)).2.2.1) ((poolFields (tMb 0 0x0205 ([1, 0, 2, 0, 0, 0, 0, 0, 0, 0, 0, 0, 0, 0, 0, 0] ++ [1, 0, 3, 0, 1, 0, 0, 0]) ({ tArr with arr := { tArr.arr with ns := [tNs 0, tNs 1, { tNs 3 with adopted := true, markValid := true, arrayUid := 0, dataSectors := 900000, ident := { uid := 103, capacity := 2000000 } }], arrays := [{ tA with body := { tA.body with members := nthMod tA.body.members 2 (fun e => { e with state := 2 }) } }] } })) ((tMb 0 0x0205 ([1, 0, 2, 0, 0, 0, 0, 0, 0, 0, 0, 0, 0, 0, 0, 0] ++ [1, 0, 3, 0, 1, 0, 0, 0]) ({ tArr with arr := { tArr.arr with ns := [tNs 0, tNs 1, { tNs 3 with adopted := true, markValid := true, arrayUid := 0, dataSectors := 900000, ident := { uid := 103, capacity := 2000000 } }], arrays := [{ tA with body := { tA.body with members := nthMod tA.body.members 2 (fun e => { e with state := 2 }) } }] } })).mb 0)).2.2.2) ({ tNs 3 with adopted := true, markValid := true, arrayUid := 0, dataSectors := 900000, ident := { uid := 103, capacity := 2000000 } }) ((locFields (tMb 0 0x0205 ([1, 0, 2, 0, 0, 0, 0, 0, 0, 0, 0, 0, 0, 0, 0, 0] ++ [1, 0, 3, 0, 1, 0, 0, 0]) ({ tArr with arr := { tArr.arr with ns := [tNs 0, tNs 1, { tNs 3 with adopted := true, markValid := true, arrayUid := 0, dataSectors := 900000, ident := { uid := 103, capacity := 2000000 } }], arrays := [{ tA with body := { tA.body with members := nthMod tA.body.members 2 (fun e => { e with state := 2 }) } }] } })) (poolFields (tMb 0 0x0205 ([1, 0, 2, 0, 0, 0, 0, 0, 0, 0, 0, 0, 0, 0, 0, 0] ++ [1, 0, 3, 0, 1, 0, 0, 0]) ({ tArr with arr := { tArr.arr with ns := [tNs 0, tNs 1, { tNs 3 with adopted := true, markValid := true, arrayUid := 0, dataSectors := 900000, ident := { uid := 103, capacity := 2000000 } }], arrays := [{ tA with body := { tA.body with members := nthMod tA.body.members 2 (fun e => { e with state := 2 }) } }] } })) ((tMb 0 0x0205 ([1, 0, 2, 0, 0, 0, 0, 0, 0, 0, 0, 0, 0, 0, 0, 0] ++ [1, 0, 3, 0, 1, 0, 0, 0]) ({ tArr with arr := { tArr.arr with ns := [tNs 0, tNs 1, { tNs 3 with adopted := true, markValid := true, arrayUid := 0, dataSectors := 900000, ident := { uid := 103, capacity := 2000000 } }], arrays := [{ tA with body := { tA.body with members := nthMod tA.body.members 2 (fun e => { e with state := 2 }) } }] } })).mb 0)).2.2.2 3 16).2.1) ((locFields (tMb 0 0x0205 ([1, 0, 2, 0, 0, 0, 0, 0, 0, 0, 0, 0, 0, 0, 0, 0] ++ [1, 0, 3, 0, 1, 0, 0, 0]) ({ tArr with arr := { tArr.arr with ns := [tNs 0, tNs 1, { tNs 3 with adopted := true, markValid := true, arrayUid := 0, dataSectors := 900000, ident := { uid := 103, capacity := 2000000 } }], arrays := [{ tA with body := { tA.body with members := nthMod tA.body.members 2 (fun e => { e with state := 2 }) } }] } })) (poolFields (tMb 0 0x0205 ([1, 0, 2, 0, 0, 0, 0, 0, 0, 0, 0, 0, 0, 0, 0, 0] ++ [1, 0, 3, 0, 1, 0, 0, 0]) ({ tArr with arr := { tArr.arr with ns := [tNs 0, tNs 1, { tNs 3 with adopted := true, markValid := true, arrayUid := 0, dataSectors := 900000, ident := { uid := 103, capacity := 2000000 } }], arrays := [{ tA with body := { tA.body with members := nthMod tA.body.members 2 (fun e => { e with state := 2 }) } }] } })) ((tMb 0 0x0205 ([1, 0, 2, 0, 0, 0, 0, 0, 0, 0, 0, 0, 0, 0, 0, 0] ++ [1, 0, 3, 0, 1, 0, 0, 0]) ({ tArr with arr := { tArr.arr with ns := [tNs 0, tNs 1, { tNs 3 with adopted := true, markValid := true, arrayUid := 0, dataSectors := 900000, ident := { uid := 103, capacity := 2000000 } }], arrays := [{ tA with body := { tA.body with members := nthMod tA.body.members 2 (fun e => { e with state := 2 }) } }] } })).mb 0)).2.2.2 3 16).2.2) ((tMb 0 0x0205 ([1, 0, 2, 0, 0, 0, 0, 0, 0, 0, 0, 0, 0, 0, 0, 0] ++ [1, 0, 3, 0, 1, 0, 0, 0]) ({ tArr with arr := { tArr.arr with ns := [tNs 0, tNs 1, { tNs 3 with adopted := true, markValid := true, arrayUid := 0, dataSectors := 900000, ident := { uid := 103, capacity := 2000000 } }], arrays := [{ tA with body := { tA.body with members := nthMod tA.body.members 2 (fun e => { e with state := 2 }) } }] } })))) := by
  refine ⟨?_, ?_, ?_, ?_, ?_, ?_, ?_, ?_⟩ <;> decide +kernel

theorem test_witness_ArrayMciEffects :
    ((fun (mb : Nat) (id : Nat) (s : State) => (planRuns mb 0x0210 s (arrayCreatePlan s) = true) ∧ (s.freeArrayId = some id) ∧ ((s.mb mb).staged = none)) 0 0 ((tMbP (leBytes 16 100 ++ leBytes 16 101 ++ leBytes 16 102) 0x0210 ([]) ({ tArr with arr := { tArr.arr with ns := [{ tNs 0 with adopted := true, markValid := true, arrayUid := 0, dataSectors := 900000, ident := { uid := 100, capacity := 2000000 } }, { tNs 1 with adopted := true, markValid := true, arrayUid := 0, dataSectors := 900000, ident := { uid := 101, capacity := 2000000 } }, { tNs 2 with adopted := true, markValid := true, arrayUid := 0, dataSectors := 900000, ident := { uid := 102, capacity := 2000000 } }, { tNs 3 with adopted := true, markValid := true, arrayUid := 0, dataSectors := 900000, ident := { uid := 103, capacity := 2000000 } }], arrays := [] } })))) ∧
    ((fun (mb : Nat) (a : Arr) (s : State) => (planRuns mb 0x0211 s (arrayDeletePlan s) = true) ∧ (s.namedArray ((s.mb mb).parse.array 1 0).1 = some a) ∧ (s.array a.id = some a) ∧ ((s.mb mb).staged = none)) 0 ({ tA with body := { tA.body with volumes := [], extents := [] } }) ((tMb 0 0x0211 ([1]) ({ tArr with arr := { tArr.arr with ns := [tNs 0, tNs 1, tNs 2], arrays := [{ tA with body := { tA.body with volumes := [], extents := [] } }] } })))) ∧
    ((fun (mb : Nat) (scans : List MarkScan) (s : State) => (planRuns mb 0x0212 s (arrayImportPlan scans s) = true)) 0 ([]) ((tMb 0 0x0212 ([]) ({ tArr with arr := { tArr.arr with ns := [], arrays := [] } })))) ∧
    ((fun (mb : Nat) (scans : List MarkScan) (u : Nat) (id : Nat) (s : State) => (planRuns mb 0x0212 s (arrayImportPlan scans s) = true) ∧ (importUids s (importFields (s.mb mb)).1 (s.importScans scans) = [u]) ∧ (¬ s.arr.arrays.any (fun a => a.body.uid == u)) ∧ (s.freeArrayId = some id) ∧ ((judgeImport (importFields (s.mb mb)).2.1 u ((s.importScans scans).filter (fun x => x.valid && x.body.uid == u))).reason = 0) ∧ (noSlot s (judgeImport (importFields (s.mb mb)).2.1 u ((s.importScans scans).filter (fun x => x.valid && x.body.uid == u))) = false)) 0 ((List.range 3).map (fun p => { loc := { port := p, nsid := 1 }, uid := 100 + p, poolIndex := p, dataStart := 70000, dataSectors := 900000, body := tA.body })) 77 0 ((tMb 0 0x0212 ([]) ({ tArr with arr := { tArr.arr with ns := [{ tNs 0 with adopted := false, markValid := true, arrayUid := 0, dataSectors := 900000, ident := { uid := 100, capacity := 2000000 } }, { tNs 1 with adopted := false, markValid := true, arrayUid := 0, dataSectors := 900000, ident := { uid := 101, capacity := 2000000 } }, { tNs 2 with adopted := false, markValid := true, arrayUid := 0, dataSectors := 900000, ident := { uid := 102, capacity := 2000000 } }], arrays := [] } })))) ∧
    ((fun (mb : Nat) (a : Arr) (s : State) => (planRuns mb 0x0213 s (arrayExpandPlan s) = true) ∧ ((migrateFields s (s.mb mb) false).arr = some a) ∧ (s.array a.id = some a) ∧ ((s.mb mb).staged = none)) 0 tA ((tMbP (leBytes 16 103) 0x0213 ([1]) ({ tArr with arr := { tArr.arr with ns := [tNs 0, tNs 1, tNs 2, { tNs 3 with adopted := true, markValid := true, arrayUid := 0, dataSectors := 900000, ident := { uid := 103, capacity := 2000000 } }], arrays := [tA] } })))) ∧
    ((fun (mb : Nat) (a : Arr) (s : State) => (planRuns mb 0x0214 s (arrayMigratePlan s) = true) ∧ ((migrateFields s (s.mb mb) true).arr = some a) ∧ (s.array a.id = some a) ∧ ((s.mb mb).staged = none)) 0 tA ((tMbP (leBytes 16 103) 0x0214 ([1, 0, 1, 0]) ({ tArr with arr := { tArr.arr with ns := [tNs 0, tNs 1, tNs 2, { tNs 3 with adopted := true, markValid := true, arrayUid := 0, dataSectors := 900000, ident := { uid := 103, capacity := 2000000 } }], arrays := [tA] } })))) ∧
    ((fun (mb : Nat) (a : Arr) (s : State) => (planRuns mb 0x0215 s (arrayGetPlan s) = true) ∧ (s.namedArray ((s.mb mb).parse.array 1 0).1 = some a)) 0 tA ((tMb 0 0x0215 ([1]) (tArr)))) ∧
    ((fun (mb : Nat) (a : Arr) (s : State) => (planRuns mb 0x0216 s (arrayExportPlan s) = true) ∧ (s.namedArray ((s.mb mb).parse.array 1 0).1 = some a) ∧ ((s.mb mb).staged = none)) 0 tA ((tMb 0 0x0216 ([1]) (tArr)))) := by
  refine ⟨?_, ?_, ?_, ?_, ?_, ?_, ?_, ?_⟩ <;> decide +kernel

theorem test_witness_VolumeMciEffects :
    ((fun (mb : Nat) (a : Arr) (s : State) => (planRuns mb 0x0301 s (volumeCreatePlan s) = true) ∧ ((volCreateFields s (s.mb mb)).arr = some a) ∧ (s.array a.id = some a) ∧ ((s.mb mb).staged = none)) 0 tA ((tMb 0 0x0301 ([1]) (tArr)))) ∧
    ((fun (mb : Nat) (a : Arr) (s : State) => (planRuns mb 0x0301 s (volumeCreatePlan s) = true) ∧ ((volCreateFields s (s.mb mb)).arr = some a) ∧ (s.array a.id = some a) ∧ (s.markJob a.id = none) ∧ (a.persisted = none) ∧ (a.markWaiting = none)) 0 tA ((tMb 0 0x0301 ([1]) (tArr)))) ∧
    ((fun (mb : Nat) (a : Arr) (v : Volume) (s : State) => (planRuns mb 0x0302 s (volumeDeletePlan s) = true) ∧ (volOf s (s.mb mb) = some (a, v)) ∧ ((s.mb mb).staged = none)) 0 tA ({ capacity := 65536 }) ((tMb 0 0x0302 ([1, 0]) (tArr)))) ∧
    ((fun (mb : Nat) (a : Arr) (v : Volume) (s : State) => (planRuns mb 0x0303 s (volumeResizePlan s) = true) ∧ (volOf s (s.mb mb) = some (a, v)) ∧ ((resizeFields s (s.mb mb)).1 = v.capacity)) 0 tA ({ capacity := 65536 }) ((tMb 0 0x0303 ([1, 0, 0, 0, 0, 0, 0, 0] ++ leBytes 8 65536) (tArr)))) ∧
    ((fun (mb : Nat) (a : Arr) (v : Volume) (s : State) => (planRuns mb 0x0303 s (volumeResizePlan s) = true) ∧ (volOf s (s.mb mb) = some (a, v)) ∧ (v.capacity < (resizeFields s (s.mb mb)).1) ∧ (s.array a.id = some a) ∧ ((s.mb mb).staged = none)) 0 tA ({ capacity := 65536 }) ((tMb 0 0x0303 ([1, 0]) (tArr)))) ∧
    ((fun (mb : Nat) (a : Arr) (v : Volume) (s : State) => (planRuns mb 0x0303 s (volumeResizePlan s) = true) ∧ (volOf s (s.mb mb) = some (a, v)) ∧ ((resizeFields s (s.mb mb)).1 < v.capacity) ∧ ((s.mb mb).staged = none)) 0 tA ({ capacity := 65536 }) ((tMb 0 0x0303 (leBytes 8 1 ++ leBytes 8 1) (tArr)))) ∧
    ((fun (mb : Nat) (a : Arr) (v : Volume) (s : State) => (planRuns mb 0x0304 s (volumeSetPolicyPlan s) = true) ∧ (volOf s (s.mb mb) = some (a, v)) ∧ ((setPolicyFields s (s.mb mb)).1 = v.policy.toNat)) 0 tA ({ capacity := 65536 }) ((tMb 0 0x0304 ([1, 0]) (tArr)))) ∧
    ((fun (mb : Nat) (a : Arr) (v : Volume) (s : State) => (planRuns mb 0x0304 s (volumeSetPolicyPlan s) = true) ∧ (volOf s (s.mb mb) = some (a, v)) ∧ ((setPolicyFields s (s.mb mb)).1 ≠ v.policy.toNat) ∧ (s.array a.id = some a) ∧ ((s.mb mb).staged = none)) 0 tA ({ capacity := 65536 }) ((tMb 0 0x0304 (leBytes 8 1 ++ leBytes 8 1) (tArr)))) ∧
    ((fun (mb : Nat) (s : State) => (planRuns mb 0x0305 s (volumeListPlan s) = true)) 0 ((tMb 0 0x0305 ([]) (tArr)))) := by
  refine ⟨?_, ?_, ?_, ?_, ?_, ?_, ?_, ?_, ?_⟩ <;> decide +kernel

theorem test_witness_RebuildMciEffects :
    ((fun (mb : Nat) (s : State) => (planRuns mb 0x0401 s (rebuildGetStatusPlan s) = true)) 0 ((tMb 0 0x0401 ([]) (tArr)))) ∧
    ((fun (mb : Nat) (s : State) => (planRuns mb 0x0402 s (rebuildSetPolicyPlan s) = true)) 0 ((tMb 0 0x0402 ([]) (tArr)))) ∧
    ((fun (mb : Nat) (s : State) => (planRuns mb 0x0403 s (rebuildStartPlan s) = true) ∧ ((s.selected ((s.mb mb).parse.array 1 0).1).filter (fun a => unplanned (s.markBase a) != [] && a.owner) = [])) 0 ((tMb 0 0x0403 ([1]) (tArr)))) ∧
    ((fun (mb : Nat) (s : State) => (planRuns mb 0x0403 s (rebuildStartPlan s) = true) ∧ ((s.mb mb).staged = none) ∧ ((s.selected ((s.mb mb).parse.array 1 0).1).filter (fun a => unplanned (s.markBase a) != [] && a.owner) ≠ [])) 0 ((tMb 0 0x0403 ([1]) ({ tArr with arr := { tArr.arr with ns := [tNs 0, tNs 1], arrays := [{ tA with body := { tA.body with members := nthMod tA.body.members 2 (fun e => { e with state := 2 }) } }] } })))) ∧
    ((fun (mb : Nat) (n : Nat) (md : Nat) (f : Nat) (c : Nat) (p : Parse) (s : State) => (planRuns mb 0x0404 s (scrubStartPlan s) = true) ∧ (scrubFields s (s.mb mb) = (n, md, f, c, p))) 0 1 2 ((scrubFields (tMb 0 0x0404 ([1, 2]) (tArr)) ((tMb 0 0x0404 ([1, 2]) (tArr)).mb 0)).2.2.1) ((scrubFields (tMb 0 0x0404 ([1, 2]) (tArr)) ((tMb 0 0x0404 ([1, 2]) (tArr)).mb 0)).2.2.2.1) ((scrubFields (tMb 0 0x0404 ([1, 2]) (tArr)) ((tMb 0 0x0404 ([1, 2]) (tArr)).mb 0)).2.2.2.2) ((tMb 0 0x0404 ([1, 2]) (tArr)))) ∧
    ((fun (mb : Nat) (s : State) => (planRuns mb 0x0405 s (scrubStopPlan s) = true)) 0 ((tMb 0 0x0405 ([1]) (tArr)))) ∧
    ((fun (mb : Nat) (s : State) => (planRuns mb 0x0406 s (lostExtentsGetPlan s) = true)) 0 ((tMb 0 0x0406 ([]) (tArr)))) := by
  refine ⟨?_, ?_, ?_, ?_, ?_, ?_, ?_⟩ <;> decide +kernel

theorem test_witness_OwnershipEffects :
    ((fun (mb : Nat) (s : State) => (planRuns mb 0x0701 s (ownershipGetPlan s) = true)) 0 ((tMb 0 0x0701 ([]) ({ tUp with hw := { tUp.hw with lifecycle := .owned, epoch := 1 } })))) ∧
    ((fun (mb : Nat) (a : Nat) (k : BitVec 512) (p : Parse) (s : State) => (planRuns mb 0x0702 s (claimPlan s) = true) ∧ (keyFields (s.mb mb) = (a, k, p))) 0 ((keyFields ((tMb 0 0x0702 ([]) ({ tUp with hw := { tUp.hw with lifecycle := .provisioned } })).mb 0)).1) ((keyFields ((tMb 0 0x0702 ([]) ({ tUp with hw := { tUp.hw with lifecycle := .provisioned } })).mb 0)).2.1) ((keyFields ((tMb 0 0x0702 ([]) ({ tUp with hw := { tUp.hw with lifecycle := .provisioned } })).mb 0)).2.2) ((tMb 0 0x0702 ([]) ({ tUp with hw := { tUp.hw with lifecycle := .provisioned } })))) ∧
    ((fun (mb : Nat) (q : OwnerPolicy) (f : Nat) (p : Parse) (s : State) => (planRuns mb 0x0704 s (policyPlan s) = true) ∧ (policyFields s (s.mb mb) = (q, f, p))) 0 ((policyFields (tMb 0 0x0704 ([0, 0, 0, 0, 7]) ({ tUp with hw := { tUp.hw with lifecycle := .owned, epoch := 1 }, sec := { tUp.sec with bootStep := 6, running := { secVersion := 5 } } })) ((tMb 0 0x0704 ([0, 0, 0, 0, 7]) ({ tUp with hw := { tUp.hw with lifecycle := .owned, epoch := 1 }, sec := { tUp.sec with bootStep := 6, running := { secVersion := 5 } } })).mb 0)).1) ((policyFields (tMb 0 0x0704 ([0, 0, 0, 0, 7]) ({ tUp with hw := { tUp.hw with lifecycle := .owned, epoch := 1 }, sec := { tUp.sec with bootStep := 6, running := { secVersion := 5 } } })) ((tMb 0 0x0704 ([0, 0, 0, 0, 7]) ({ tUp with hw := { tUp.hw with lifecycle := .owned, epoch := 1 }, sec := { tUp.sec with bootStep := 6, running := { secVersion := 5 } } })).mb 0)).2.1) ((policyFields (tMb 0 0x0704 ([0, 0, 0, 0, 7]) ({ tUp with hw := { tUp.hw with lifecycle := .owned, epoch := 1 }, sec := { tUp.sec with bootStep := 6, running := { secVersion := 5 } } })) ((tMb 0 0x0704 ([0, 0, 0, 0, 7]) ({ tUp with hw := { tUp.hw with lifecycle := .owned, epoch := 1 }, sec := { tUp.sec with bootStep := 6, running := { secVersion := 5 } } })).mb 0)).2.2) ((tMb 0 0x0704 ([0, 0, 0, 0, 7]) ({ tUp with hw := { tUp.hw with lifecycle := .owned, epoch := 1 }, sec := { tUp.sec with bootStep := 6, running := { secVersion := 5 } } })))) ∧
    ((fun (mb : Nat) (s : State) => (planRuns mb 0x0705 s (debugPlan s) = true)) 0 ((tMb 0 0x0705 ([]) ({ tUp with hw := { tUp.hw with lifecycle := .owned }, sec := { tUp.sec with bootStep := 6, policy := { debugAllowed := true } } })))) ∧
    ((fun (mb : Nat) (s : State) => (planRuns mb 0x0702 s (claimPlan s) = false)) 0 tUp) ∧
    ((fun (mb : Nat) (s : State) => (planRuns mb 0x0703 s (transferPlan s) = false)) 0 tUp) ∧
    ((fun (mb : Nat) (s : State) => (planRuns mb 0x0705 s (debugPlan s) = false)) 0 tUp) ∧
    ((fun (mb : Nat) (s : State) => (planRuns mb 0x0706 s (decommissionPlan s) = false)) 0 tUp) := by
  refine ⟨?_, ?_, ?_, ?_, ?_, ?_, ?_, ?_⟩ <;> decide +kernel

theorem test_witness_RecordEffects :
    ((fun (s : State) => (s.sec.recordDue = [])) tUp) ∧
    ((fun (k : Nat) (l : List Nat) (s : State) => (s.sec.recordDue = k :: l)) 64 ([1]) ({ tUp with sec := { tUp.sec with bootStep := 6, recordDue := [64, 1] } })) ∧
    ((fun (mb : Nat) (sel : Nat) (q : Nat) (n : Nat) (p : Parse) (s : State) => (planRuns mb 0x0801 s (firingRecordGetPlan s) = true) ∧ (recordFields (s.mb mb) = (sel, 2, q, n, p))) 0 1 ((recordFields ((tMb 0 0x0801 ([1, 2, 0, 0, 0, 0, 0, 0] ++ leBytes 8 0 ++ leBytes 32 9) (tUp)).mb 0)).2.2.1) ((recordFields ((tMb 0 0x0801 ([1, 2, 0, 0, 0, 0, 0, 0] ++ leBytes 8 0 ++ leBytes 32 9) (tUp)).mb 0)).2.2.2.1) ((recordFields ((tMb 0 0x0801 ([1, 2, 0, 0, 0, 0, 0, 0] ++ leBytes 8 0 ++ leBytes 32 9) (tUp)).mb 0)).2.2.2.2) ((tMb 0 0x0801 ([1, 2, 0, 0, 0, 0, 0, 0] ++ leBytes 8 0 ++ leBytes 32 9) (tUp)))) ∧
    ((fun (mb : Nat) (sel : Nat) (q : Nat) (n : Nat) (p : Parse) (s : State) => (planRuns mb 0x0801 s (firingRecordGetPlan s) = true) ∧ (recordFields (s.mb mb) = (sel, 3, q, n, p))) 0 2 ((recordFields ((tMb 0 0x0801 ([2, 3]) (tUp)).mb 0)).2.2.1) ((recordFields ((tMb 0 0x0801 ([2, 3]) (tUp)).mb 0)).2.2.2.1) ((recordFields ((tMb 0 0x0801 ([2, 3]) (tUp)).mb 0)).2.2.2.2) ((tMb 0 0x0801 ([2, 3]) (tUp)))) ∧
    ((fun (mb : Nat) (q : Nat) (n : Nat) (p : Parse) (s : State) => (planRuns mb 0x0801 s (firingRecordGetPlan s) = true) ∧ (recordFields (s.mb mb) = (1, 1, q, n, p))) 0 ((recordFields ((tMb 0 0x0801 ([1, 1]) (tUp)).mb 0)).2.2.1) ((recordFields ((tMb 0 0x0801 ([1, 1]) (tUp)).mb 0)).2.2.2.1) ((recordFields ((tMb 0 0x0801 ([1, 1]) (tUp)).mb 0)).2.2.2.2) ((tMb 0 0x0801 ([1, 1]) (tUp)))) ∧
    ((fun (mb : Nat) (s : State) => (planRuns mb 0x0802 s (attestQuotePlan s) = true)) 0 ((tMb 0 0x0802 ([]) (tUp)))) ∧
    ((fun (mb : Nat) (s : State) => (planRuns mb 0x0803 s (certGetPlan s) = true)) 0 ((tMb 0 0x0803 ([]) (tUp)))) := by
  refine ⟨?_, ?_, ?_, ?_, ?_, ?_, ?_⟩ <;> decide +kernel

theorem test_witness_FirmwareEffects :
    ((fun (mb : Nat) (p : Parse) (s : State) => (planRuns mb 0x0A01 s (fwDownloadPlan s) = true) ∧ (downloadFields (s.mb mb) = (0, false, p)) ∧ ((s.mb mb).payload ≠ [])) 0 ((downloadFields ((tMbP [1, 2] 0x0A01 ([]) (tUp)).mb 0)).2.2) ((tMbP [1, 2] 0x0A01 ([]) (tUp)))) ∧
    ((fun (mb : Nat) (o : Nat) (p : Parse) (s : State) => (planRuns mb 0x0A01 s (fwDownloadPlan s) = true) ∧ (downloadFields (s.mb mb) = (o, true, p)) ∧ ((s.mb mb).payload = [])) 0 ((downloadFields ((tMb 0 0x0A01 ([0, 0, 0, 0, 2]) (tUp)).mb 0)).1) ((downloadFields ((tMb 0 0x0A01 ([0, 0, 0, 0, 2]) (tUp)).mb 0)).2.2) ((tMb 0 0x0A01 ([0, 0, 0, 0, 2]) (tUp)))) ∧
    ((fun (mb : Nat) (s : State) => (planRuns mb 0x0A02 s (fwActivatePlan s) = true) ∧ (((s.mb mb).parse.enum 1 0 1 [1, 2, 3] 1).1 = 1)) 0 ((tMb 0 0x0A02 ([]) ({ tUp with sec := { tUp.sec with bootStep := 6, slotB := { st := 2 }, policy := { liveActivation := true } } })))) ∧
    ((fun (mb : Nat) (s : State) => (planRuns mb 0x0A02 s (fwActivatePlan s) = true) ∧ (((s.mb mb).parse.enum 1 0 1 [1, 2, 3] 1).1 = 3)) 0 ((tMb 0 0x0A02 ([3]) (tUp)))) ∧
    ((fun (mb : Nat) (s : State) => (planRuns mb 0x0A02 s (fwActivatePlan s) = true) ∧ (((s.mb mb).parse.enum 1 0 1 [1, 2, 3] 1).1 = 2) ∧ ((s.mb mb).staged = none)) 0 ((tMb 0 0x0A02 ([2]) ({ tUp with sec := { tUp.sec with bootStep := 6, slotB := { st := 2 }, policy := { liveActivation := true } } })))) ∧
    ((fun (mb : Nat) (s : State) => (planRuns mb 0x0A03 s (fwGetStatusPlan s) = true)) 0 ((tMb 0 0x0A03 ([]) (tUp)))) ∧
    ((fun (i : Nat) (s : State) => (s.mci.activation = 2) ∧ (s.mci.activationMb = some i) ∧ (i < s.mci.mbs.length)) 2 ({ tMb 2 0x0A02 [] tUp with mci := { (tMb 2 0x0A02 [] tUp).mci with activation := 2, activationMb := some 2 } })) ∧
    ((fun (s : State) => (s.mci.activation ≠ 2)) tUp) ∧
    ((fun (i : Nat) (s : State) => (s.mci.activation = 2) ∧ (s.mci.activationMb = some i) ∧ (i < s.mci.mbs.length)) 2 ({ tMb 2 0x0A02 [] tUp with mci := { (tMb 2 0x0A02 [] tUp).mci with activation := 2, activationMb := some 2 } })) := by
  refine ⟨?_, ?_, ?_, ?_, ?_, ?_, ?_, ?_, ?_⟩ <;> decide +kernel

theorem test_witness_BootEffects :
    ((fun (b : Bool) (m : Manifest) (s : State) => (s.pins.main) ∧ (s.sec.bootStep = 1) ∧ (b = s.slotTried) ∧ (s.slotValid m)) false ({ secVersion := 1 }) ({ tUp with sec := { tUp.sec with bootStep := 1, slotA := { st := 2 } } })) ∧
    ((fun (p : Nat) (b : Bool) (s : State) => (s.pins.main) ∧ (2 ≤ s.sec.bootStep) ∧ (s.sec.bootStep ≤ 4) ∧ (p = partitionOf s.sec.bootStep) ∧ (b = s.slotTried) ∧ (¬ s.tst.extestSeen)) 5 false ({ tUp with sec := { tUp.sec with bootStep := 2, slotA := { st := 2 } } })) ∧
    ((fun (p : Nat) (b : Bool) (s : State) => (s.pins.main) ∧ (2 ≤ s.sec.bootStep) ∧ (s.sec.bootStep ≤ 4) ∧ (p = partitionOf s.sec.bootStep) ∧ (b = s.slotTried) ∧ (¬ s.tst.extestSeen)) 4 false ({ tUp with sec := { tUp.sec with bootStep := 4, slotA := { st := 2 } } })) ∧
    ((fun (b : Bool) (s : State) => (s.pins.main) ∧ (s.sec.bootStep = 5) ∧ (b = s.slotTried) ∧ (¬ s.tst.extestSeen)) false ({ tUp with sec := { tUp.sec with bootStep := 5, slotA := { st := 2 } } })) ∧
    ((fun (p : Nat) (b : Bool) (s : State) => (s.pins.main) ∧ (1 ≤ s.sec.bootStep) ∧ (s.sec.bootStep ≤ 5) ∧ (p = partitionOf s.sec.bootStep) ∧ (b = s.slotTried) ∧ (¬ s.tst.extestSeen) ∧ (s.sec.fromRecovery = false) ∧ (s.sec.fallback = false)) 1 false ({ tUp with sec := { tUp.sec with bootStep := 1, slotA := { st := 2 } } })) ∧
    ((fun (p : Nat) (b : Bool) (s : State) => (s.pins.main) ∧ (1 ≤ s.sec.bootStep) ∧ (s.sec.bootStep ≤ 5) ∧ (p = partitionOf s.sec.bootStep) ∧ (b = s.slotTried) ∧ (¬ s.tst.extestSeen) ∧ (s.sec.fromRecovery = false) ∧ (s.sec.fallback = false)) 3 false ({ tUp with sec := { tUp.sec with bootStep := 5, slotA := { st := 2 } } })) ∧
    ((fun (p : Nat) (b : Bool) (s : State) => (s.pins.main) ∧ (1 ≤ s.sec.bootStep) ∧ (s.sec.bootStep ≤ 5) ∧ (p = partitionOf s.sec.bootStep) ∧ (b = s.slotTried) ∧ (¬ s.tst.extestSeen) ∧ (s.sec.fallback = true)) 2 true ({ tUp with sec := { tUp.sec with bootStep := 3, slotA := { st := 2 }, fallback := true } })) ∧
    ((fun (p : Nat) (s : State) => (p ≠ partitionOf s.sec.bootStep)) 1 tUp) ∧
    ((fun (s : State) => (s.dev.trial) ∧ (s.sec.bootStep = 6) ∧ (¬ s.sec.trialFailed)) ({ tUp with dev := { tUp.dev with trial := true } })) ∧
    ((fun (s : State) => (¬ s.dev.trial)) tUp) ∧
    ((fun (a : Nat) (s : State) => (s.sec.bootStep = 6) ∧ (s.dev.recovering) ∧ (s.sec.progress.1 < a)) 5 ({ tUp with dev := { tUp.dev with recovering := true } })) ∧
    ((fun (a : Nat) (s : State) => (s.sec.bootStep = 6) ∧ (s.dev.recovering) ∧ (a < s.sec.progress.1)) 5 ({ tUp with dev := { tUp.dev with recovering := true }, sec := { tUp.sec with bootStep := 6, progress := (6, 0) } })) ∧
    ((fun (s : State) => (s.dev.trial) ∧ (s.sec.trialFlag) ∧ (¬ s.sec.trialFailed) ∧ (¬ s.vault.armed)) ({ tUp with dev := { tUp.dev with trial := true }, sec := { tUp.sec with bootStep := 6, trialFlag := true } })) ∧
    ((fun (s : State) => (s.dev.trial) ∧ (s.sec.trialFlag) ∧ (¬ s.sec.trialFailed) ∧ (s.vault.armed) ∧ (¬ s.dev.holding)) ({ tUp with dev := { tUp.dev with trial := true }, sec := { tUp.sec with bootStep := 6, trialFlag := true }, vault := { tUp.vault with armed := true } })) ∧
    ((fun (s : State) => (s.sec.trialFailed) ∧ (¬ s.vault.armed) ∧ (s.vault.phase = .idle) ∧ (s.vault.configured) ∧ (s.vault.status = .idle) ∧ (s.completeSets ≠ []) ∧ (s.sag.lines.any (fun l => l.st == .dirty || l.st == .closing))) ({ tArr with sec := { tUp.sec with trialFailed := true }, sag := { lines := [{ st := .dirty }] }, vault := { configured := true, members := [{ uid := 100, vaultSectors := 1024 }, { uid := 101, vaultSectors := 1024 }] } })) ∧
    ((fun (s : State) => (¬ s.sec.trialFailed)) tUp) ∧
    ((fun (s : State) => (s.dev.recovering) ∧ (s.sec.bootStep = 6) ∧ (s.pins.resumeDone) ∧ (¬ s.vault.stopped) ∧ (s.vault.phase = .idle)) ({ tUp with dev := { tUp.dev with recovering := true } })) ∧
    ((fun (s : State) => (s.dev.recovering) ∧ (¬ s.pins.resumeDone)) ({ tUp with dev := { tUp.dev with recovering := true }, pins := { tUp.pins with resumeDone := false } })) := by
  refine ⟨?_, ?_, ?_, ?_, ?_, ?_, ?_, ?_, ?_, ?_, ?_, ?_, ?_, ?_, ?_, ?_, ?_, ?_⟩ <;> decide +kernel

theorem test_witness_FaultEffects :
    ((fun (f : FaultIn) (s : State) => (f.source < 512) ∧ (s.srcPresent f.source) ∧ (s.fc.first = none)) ({ source := 511 }) tUp) ∧
    ((fun (c : Capture) (s : State) => (s.fc.first = some c)) ({ source := 5 }) ({ tUp with fc := { tUp.fc with first := some { source := 5 } } })) ∧
    ((fun (i : Nat) (k : Nat) => (i < 16) ∧ (k < 512)) 7 224) ∧
    ((fun (i : Nat) (k : Nat) => (i < 16) ∧ (k < 512)) 15 511) ∧
    ((fun (i : Nat) => (16 ≤ i)) 16) ∧
    ((fun (f : FaultIn) (s : State) => (f.source < 512) ∧ (s.srcPresent f.source)) ({ source := 0 }) ({ tUp with fc := { tUp.fc with first := some { source := 5 } } })) ∧
    ((fun (k : Nat) (s : State) => ((s.src k).autoAck) ∧ (¬ s.dev.restarting) ∧ (¬ s.dev.activating) ∧ (¬ s.fc.queue.any (fun c => c.source == k))) 224 ({ tUp with fc := { tUp.fc with srcs := [{ id := 224, autoAck := true, configured := 2, episode := some { sev := 2 } }] } })) ∧
    ((fun (k : Nat) (s : State) => ((¬ (s.src k).autoAck ∨ s.dev.restarting ∨ s.dev.activating))) 224 tUp) ∧
    ((fun (k : Nat) (s : State) => ((¬ (s.src k).autoAck ∨ s.dev.restarting ∨ s.dev.activating))) 224 ({ tUp with fc := { tUp.fc with srcs := [{ id := 224, autoAck := true, configured := 2, episode := some { sev := 2 } }] }, dev := { tUp.dev with restarting := true } })) ∧
    ((fun (k : Nat) (i : Injection) (s : State) => (s.fc.injections.find? (fun i => i.source == k && i.fromTurn ≤ s.hw.turn) = some i) ∧ (¬ i.live) ∧ (k < 512) ∧ (s.srcPresent k)) 224 ({ source := 224 }) ({ tUp with fc := { tUp.fc with injections := [{ source := 224 }] } })) ∧
    ((fun (k : Nat) (i : Injection) (s : State) => (s.fc.injections.find? (fun i => i.source == k && i.fromTurn ≤ s.hw.turn) = some i) ∧ (i.live) ∧ (5 ≤ (s.src k).wouldBe)) 5 ({ source := 5, live := true }) ({ tUp with fc := { tUp.fc with injections := [{ source := 5, live := true }] } })) ∧
    ((fun (k : Nat) (s : State) => (s.fc.injections.find? (fun i => i.source == k && i.fromTurn ≤ s.hw.turn) = none)) 5 tUp) := by
  refine ⟨?_, ?_, ?_, ?_, ?_, ?_, ?_, ?_, ?_, ?_, ?_, ?_⟩ <;> decide +kernel

theorem test_witness_FaultCommandEffects :
    ((fun (mb : Nat) (s : State) => (planRuns mb 0x0B01 s (faultGetPlan s) = true)) 0 ((tMb 0 0x0B01 ([]) (tUp)))) ∧
    ((fun (mb : Nat) (a : Nat) (p : Parse) (s : State) => (planRuns mb 0x0B02 s (faultAckPlan s) = true) ∧ (faultAckFields (s.mb mb) = (a, 2, p))) 0 ((faultAckFields ((tMb 0 0x0B02 ([0, 0, 2]) ({ tUp with fc := { tUp.fc with srcs := [{ id := 224, autoAck := true, configured := 2, episode := some { sev := 2 } }] } })).mb 0)).1) ((faultAckFields ((tMb 0 0x0B02 ([0, 0, 2]) ({ tUp with fc := { tUp.fc with srcs := [{ id := 224, autoAck := true, configured := 2, episode := some { sev := 2 } }] } })).mb 0)).2.2) ((tMb 0 0x0B02 ([0, 0, 2]) ({ tUp with fc := { tUp.fc with srcs := [{ id := 224, autoAck := true, configured := 2, episode := some { sev := 2 } }] } })))) ∧
    ((fun (mb : Nat) (a : Nat) (p : Parse) (s : State) => (planRuns mb 0x0B02 s (faultAckPlan s) = true) ∧ (faultAckFields (s.mb mb) = (a, 1, p))) 0 ((faultAckFields ((tMb 0 0x0B02 ([224, 0, 1]) ({ tUp with fc := { tUp.fc with srcs := [{ id := 224, autoAck := true, configured := 2, episode := some { sev := 2 } }] } })).mb 0)).1) ((faultAckFields ((tMb 0 0x0B02 ([224, 0, 1]) ({ tUp with fc := { tUp.fc with srcs := [{ id := 224, autoAck := true, configured := 2, episode := some { sev := 2 } }] } })).mb 0)).2.2) ((tMb 0 0x0B02 ([224, 0, 1]) ({ tUp with fc := { tUp.fc with srcs := [{ id := 224, autoAck := true, configured := 2, episode := some { sev := 2 } }] } })))) ∧
    ((fun (mb : Nat) (k : Nat) (v : Nat) (a : Nat) (p : Parse) (s : State) => (planRuns mb 0x0B03 s (faultSetSeverityPlan s) = true) ∧ (faultSetFields s (s.mb mb) = (k, v, a, p))) 0 ((faultSetFields (tMb 0 0x0B03 ([224, 0, 4, 1]) (tUp)) ((tMb 0 0x0B03 ([224, 0, 4, 1]) (tUp)).mb 0)).1) ((faultSetFields (tMb 0 0x0B03 ([224, 0, 4, 1]) (tUp)) ((tMb 0 0x0B03 ([224, 0, 4, 1]) (tUp)).mb 0)).2.1) ((faultSetFields (tMb 0 0x0B03 ([224, 0, 4, 1]) (tUp)) ((tMb 0 0x0B03 ([224, 0, 4, 1]) (tUp)).mb 0)).2.2.1) ((faultSetFields (tMb 0 0x0B03 ([224, 0, 4, 1]) (tUp)) ((tMb 0 0x0B03 ([224, 0, 4, 1]) (tUp)).mb 0)).2.2.2) ((tMb 0 0x0B03 ([224, 0, 4, 1]) (tUp)))) ∧
    ((fun (mb : Nat) (s : State) => (planRuns mb 0x0B04 s (faultInjectPlan s) = true)) 0 ((tMb 0 0x0B04 ([224, 0]) (tUp)))) := by
  refine ⟨?_, ?_, ?_, ?_, ?_⟩ <;> decide +kernel

theorem test_witness_KilnLogEffects :
    ((fun (h : Happening) (s : State) => (h.kind = 1) ∧ (s.fc.queue = [])) ({}) tUp) ∧
    ((fun (h : Happening) (c : Capture) (l : List Capture) (s : State) => (h.kind = 1) ∧ (s.fc.queue = c :: l)) ({}) ({ source := 5 }) ([]) ({ tUp with fc := { tUp.fc with queue := [{ source := 5 }] } })) ∧
    ((fun (h : Happening) => (2 ≤ h.kind) ∧ (h.kind ≤ 7)) ({ kind := 2 })) ∧
    ((fun (h : Happening) => (2 ≤ h.kind) ∧ (h.kind ≤ 7)) ({ kind := 7 })) ∧
    ((fun (h : Happening) => ((h.kind = 0 ∨ 7 < h.kind))) ({ kind := 0 })) ∧
    ((fun (h : Happening) => ((h.kind = 0 ∨ 7 < h.kind))) ({ kind := 8 })) ∧
    ((fun (n : Nat) => (n < 4)) 3) ∧
    ((fun (n : Nat) => (4 ≤ n)) 4) ∧
    ((fun (a : Int) (b : Int) (c : Int) (d : Int) (s : State) => (a < 120) ∧ (b < 120) ∧ (c < 120) ∧ (d < 120) ∧ (¬ (s.nvme.feat.tempOver < ({ s with pins := { s.pins with temps := [a, b, c, d] } } : State).composite))) 105 (-40) 0 0 tUp) ∧
    ((fun (a : Int) (b : Int) (c : Int) (d : Int) (s : State) => (s.nvme.feat.tempOver < ({ s with pins := { s.pins with temps := [a, b, c, d] } } : State).composite) ∧ (¬ s.pins.tempOver)) 106 0 0 0 ({ tUp with pins := { tUp.pins with temps := [40, 40, 40, 40] } })) ∧
    ((fun (mb : Nat) (s : State) => (planRuns mb 0x0901 s (kilnLogGetPlan s) = true)) 0 ((tMb 0 0x0901 ([]) (tUp)))) ∧
    ((fun (mb : Nat) (s : State) => (planRuns mb 0x0902 s (logClearPlan s) = true) ∧ ((s.mb mb).staged = none)) 0 ((tMb 0 0x0902 ([]) (tUp)))) ∧
    ((fun (mb : Nat) (s : State) => (planRuns mb 0x0903 s (hostTimeHintPlan s) = true)) 0 ((tMb 0 0x0903 (leBytes 8 1000) (tUp)))) := by
  refine ⟨?_, ?_, ?_, ?_, ?_, ?_, ?_, ?_, ?_, ?_, ?_, ?_, ?_⟩ <;> decide +kernel

theorem test_witness_ClockAndLinkEffects :
    ((fun (p : Nat) (s : State) => (pllLocked p s.clk)) 0 ({ tUp with clk := { tUp.clk with pllCore := true } })) ∧
    ((fun (p : Nat) (s : State) => (pllLocked p s.clk)) 4 ({ tUp with clk := { tUp.clk with pllAux := true } })) ∧
    ((fun (p : Nat) (s : State) => (¬ pllLocked p s.clk)) 5 tUp) ∧
    ((fun (d : Nat) (i : Nat) (s : State) => (s.pins.main) ∧ (s.clockPresent d i) ∧ (¬ clockRuns d i s.clk) ∧ (d < 5)) 4 0 ({ tUp with clk := { tUp.clk with eth := false } })) ∧
    ((fun (d : Nat) (i : Nat) (s : State) => (s.pins.main) ∧ (s.clockPresent d i) ∧ (¬ clockRuns d i s.clk) ∧ (d < 5)) 1 5 ({ tUp with clk := { tUp.clk with ports := 0 } })) ∧
    ((fun (d : Nat) (i : Nat) (s : State) => (clockRuns d i s.clk)) 2 7 ({ tUp with clk := { tUp.clk with ddr := 128 } })) ∧
    ((fun (d : Nat) (i : Nat) (s : State) => (clockRuns d i s.clk) ∧ (s.mayStop d i)) 3 0 ({ tUp with clk := { tUp.clk with slipx := true } })) ∧
    ((fun (d : Nat) (i : Nat) (s : State) => (¬ clockRuns d i s.clk)) 5 0 tUp) ∧
    ((fun (p : Nat) (s : State) => (s.portExists p) ∧ (p < s.arr.ports.length) ∧ ((s.port p).up) ∧ (¬ s.inTest 2 p)) 2 tArr) ∧
    ((fun (s : State) => (s.twin.trained) ∧ (¬ s.inTest 3 0)) ({ tUp with twin := { tUp.twin with trained := true } })) ∧
    ((fun (p : Nat) (s : State) => (s.coil.linkUp.getLsbD p) ∧ (¬ s.inTest 4 p)) 1 ({ tUp with coil := { tUp.coil with linkUp := 2 } })) ∧
    ((fun (p : Nat) (s : State) => (s.inTest 2 p)) 2 ({ tArr with tst := { tArr.tst with tests := [{ unit := 2, index := 2 }] } })) ∧
    ((fun (p : Nat) (s : State) => (p < s.arr.ports.length) ∧ ((s.port p).training)) 47 ({ tArr with arr := { tArr.arr with ports := List.replicate 48 { training := true } } })) ∧
    ((fun (s : State) => (s.twin.training)) ({ tUp with twin := { tUp.twin with training := true } })) ∧
    ((fun (p : Nat) (s : State) => (s.coil.training.getLsbD p)) 1 ({ tUp with coil := { tUp.coil with training := 2 } })) ∧
    ((fun (p : Nat) (s : State) => (¬ (s.port p).training)) 2 tUp) ∧
    ((fun (i : Nat) (l : Nat) (sp : Nat) (sps : List Nat) (s : State) => (i < 16) ∧ ((s.bundle i).inService) ∧ (l ∈ (s.bundle i).dataLanes) ∧ ((s.bundle i).repair = none) ∧ (l ∉ (s.bundle i).waiting) ∧ ((s.bundle i).spares = sp :: sps)) 15 31 32 ([33, 34, 35]) tUp) ∧
    ((fun (i : Nat) (l : Nat) (x : Nat × Nat × Nat) (s : State) => (i < 16) ∧ ((s.bundle i).inService) ∧ (l ∈ (s.bundle i).dataLanes) ∧ ((s.bundle i).repair = some x) ∧ (x.1 ≠ l) ∧ (l ∉ (s.bundle i).waiting)) 0 3 ((4, 32, 1)) ({ tUp with tst := { tUp.tst with bundles := [{ repair := some (4, 32, 1) }] } })) ∧
    ((fun (i : Nat) (l : Nat) (s : State) => (i < 16) ∧ ((s.bundle i).inService) ∧ (l ∈ (s.bundle i).dataLanes) ∧ ((s.bundle i).repair = none) ∧ (l ∉ (s.bundle i).waiting) ∧ ((s.bundle i).spares = [])) 0 0 ({ tUp with tst := { tUp.tst with bundles := [{ retired := [32, 33, 34, 35] }] } })) ∧
    ((fun (i : Nat) (l : Nat) (s : State) => (i < 16) ∧ ((s.bundle i).inService) ∧ (l ∈ (s.bundle i).spares) ∧ ((s.bundle i).repair = none)) 0 35 tUp) ∧
    ((fun (i : Nat) (s : State) => (¬ (s.bundle i).inService)) 0 ({ tUp with tst := { tUp.tst with bundles := [{ inService := false }] } })) := by
  refine ⟨?_, ?_, ?_, ?_, ?_, ?_, ?_, ?_, ?_, ?_, ?_, ?_, ?_, ?_, ?_, ?_, ?_, ?_, ?_, ?_, ?_⟩ <;> decide +kernel

theorem test_witness_TestEffects :
    ((fun (mb : Nat) (s : State) => (planRuns mb 0x0B05 s (patternPlan s) = true) ∧ ((s.mb mb).staged = none)) 0 ((tMb 0 0x0B05 ([2, 0, 2]) (tUp)))) ∧
    ((fun (mb : Nat) (s : State) => (planRuns mb 0x0B06 s (mbistPlan s) = true) ∧ ((s.mb mb).staged = none)) 0 ((tMb 0 0x0B06 ([5, 0, 2]) ({ tUp with sched := { tUp.sched with servicePending := 0x1FFFFF } })))) ∧
    ((fun (mb : Nat) (s : State) => (planRuns mb 0x0B07 s (marginPlan s) = true) ∧ ((s.mb mb).staged = none)) 0 ((tMb 0 0x0B07 ([2, 0, 2]) (tUp)))) ∧
    ((fun (mb : Nat) (x : Test) (s : State) => (s.testOf mb 1 = some x) ∧ ((s.mb mb).st = .executing) ∧ ((s.mb mb).opcode = 0x0B05) ∧ ((s.mb mb).started)) 0 ({}) ({ tMb 0 0x0B05 [] tUp with mci := { mbs := nthMod (tMb 0 0x0B05 [] tUp).mci.mbs 0 (fun m => { m with started := true }) }, tst := { tests := [{}] } })) ∧
    ((fun (mb : Nat) (s : State) => (s.testOf mb 1 = none)) 0 tUp) ∧
    ((fun (mb : Nat) (x : Test) (s : State) => (s.testOf mb 2 = some x) ∧ ((s.mb mb).st = .executing) ∧ ((s.mb mb).opcode = 0x0B06) ∧ ((s.mb mb).started)) 0 ({ kind := 2 }) ({ tMb 0 0x0B06 [] tUp with mci := { mbs := nthMod (tMb 0 0x0B06 [] tUp).mci.mbs 0 (fun m => { m with started := true }) }, tst := { tests := [{ kind := 2 }] } })) ∧
    ((fun (mb : Nat) (n : Nat) (x : Test) (s : State) => (s.testOf mb 2 = some x) ∧ (0 < n)) 0 1 ({ kind := 2 }) ({ tUp with tst := { tUp.tst with tests := [{ kind := 2 }] } })) ∧
    ((fun (mb : Nat) (e : Nat) (x : Test) (s : State) => (s.testOf mb 3 = some x) ∧ (¬ x.interrupted) ∧ (e < x.limit) ∧ (x.steps + 1 < x.maxSteps)) 0 15 ({ kind := 3, steps := 5 }) ({ tUp with tst := { tUp.tst with tests := [{ kind := 3, steps := 5 }] } })) ∧
    ((fun (mb : Nat) (e : Nat) (x : Test) (s : State) => (s.testOf mb 3 = some x) ∧ (¬ x.interrupted) ∧ (x.limit ≤ e) ∧ (¬ x.up)) 0 16 ({ kind := 3, steps := 5 }) ({ tUp with tst := { tUp.tst with tests := [{ kind := 3, steps := 5 }] } })) ∧
    ((fun (mb : Nat) (e : Nat) (x : Test) (s : State) => (s.testOf mb 3 = some x) ∧ (¬ x.interrupted) ∧ (x.limit ≤ e) ∧ (x.up) ∧ ((s.mb mb).st = .executing) ∧ ((s.mb mb).opcode = 0x0B07) ∧ ((s.mb mb).started)) 0 16 ({ kind := 3, up := true }) ({ tMb 0 0x0B07 [] tUp with mci := { mbs := nthMod (tMb 0 0x0B07 [] tUp).mci.mbs 0 (fun m => { m with started := true }) }, tst := { tests := [{ kind := 3, up := true }] } })) ∧
    ((fun (s : State) => (s.pins.perst) ∧ (s.sec.bootStep < 6)) State.reset) ∧
    ((fun (i : TapInstr) (s : State) => (TapInstr.drives i) ∧ ((¬ s.pins.perst ∨ 6 ≤ s.sec.bootStep))) .extest tUp) := by
  refine ⟨?_, ?_, ?_, ?_, ?_, ?_, ?_, ?_, ?_, ?_, ?_, ?_⟩ <;> decide +kernel

theorem test_witness_StorageCommandEffects :
    ((fun (mb : Nat) (s : State) => (planRuns mb 0x0C01 s (saggarGetStatusPlan s) = true)) 0 ((tMb 0 0x0C01 ([]) (tArr)))) ∧
    ((fun (mb : Nat) (a : Nat) (h : Nat) (d : Option Nat) (p : Parse) (s : State) => (planRuns mb 0x0C02 s (saggarSetPolicyPlan s) = true) ∧ (sagPolicyFields s (s.mb mb) = (a, h, d, p))) 0 ((sagPolicyFields (tMb 0 0x0C02 ([30, 0, 80]) ({ tArr with sag := { tArr.sag with poolLines := 1024 } })) ((tMb 0 0x0C02 ([30, 0, 80]) ({ tArr with sag := { tArr.sag with poolLines := 1024 } })).mb 0)).1) ((sagPolicyFields (tMb 0 0x0C02 ([30, 0, 80]) ({ tArr with sag := { tArr.sag with poolLines := 1024 } })) ((tMb 0 0x0C02 ([30, 0, 80]) ({ tArr with sag := { tArr.sag with poolLines := 1024 } })).mb 0)).2.1) ((sagPolicyFields (tMb 0 0x0C02 ([30, 0, 80]) ({ tArr with sag := { tArr.sag with poolLines := 1024 } })) ((tMb 0 0x0C02 ([30, 0, 80]) ({ tArr with sag := { tArr.sag with poolLines := 1024 } })).mb 0)).2.2.1) ((sagPolicyFields (tMb 0 0x0C02 ([30, 0, 80]) ({ tArr with sag := { tArr.sag with poolLines := 1024 } })) ((tMb 0 0x0C02 ([30, 0, 80]) ({ tArr with sag := { tArr.sag with poolLines := 1024 } })).mb 0)).2.2.2) ((tMb 0 0x0C02 ([30, 0, 80]) ({ tArr with sag := { tArr.sag with poolLines := 1024 } })))) ∧
    ((fun (mb : Nat) (h : Nat) (c : Nat) (us : List Nat) (p : Parse) (s : State) => (planRuns mb 0x0C03 s (vaultConfigPlan s) = true) ∧ (vaultFields s (s.mb mb) = (h, c, us, p))) 0 ((vaultFields (tMb 0 0x0C03 (leBytes 4 5000 ++ [2, 2, 0, 0] ++ leBytes 16 100 ++ leBytes 16 101) ({ tArr with arr := { tArr.arr with ns := [{ tNs 0 with vault := 512 }, { tNs 1 with vault := 512 }] } })) ((tMb 0 0x0C03 (leBytes 4 5000 ++ [2, 2, 0, 0] ++ leBytes 16 100 ++ leBytes 16 101) ({ tArr with arr := { tArr.arr with ns := [{ tNs 0 with vault := 512 }, { tNs 1 with vault := 512 }] } })).mb 0)).1) ((vaultFields (tMb 0 0x0C03 (leBytes 4 5000 ++ [2, 2, 0, 0] ++ leBytes 16 100 ++ leBytes 16 101) ({ tArr with arr := { tArr.arr with ns := [{ tNs 0 with vault := 512 }, { tNs 1 with vault := 512 }] } })) ((tMb 0 0x0C03 (leBytes 4 5000 ++ [2, 2, 0, 0] ++ leBytes 16 100 ++ leBytes 16 101) ({ tArr with arr := { tArr.arr with ns := [{ tNs 0 with vault := 512 }, { tNs 1 with vault := 512 }] } })).mb 0)).2.1) ((vaultFields (tMb 0 0x0C03 (leBytes 4 5000 ++ [2, 2, 0, 0] ++ leBytes 16 100 ++ leBytes 16 101) ({ tArr with arr := { tArr.arr with ns := [{ tNs 0 with vault := 512 }, { tNs 1 with vault := 512 }] } })) ((tMb 0 0x0C03 (leBytes 4 5000 ++ [2, 2, 0, 0] ++ leBytes 16 100 ++ leBytes 16 101) ({ tArr with arr := { tArr.arr with ns := [{ tNs 0 with vault := 512 }, { tNs 1 with vault := 512 }] } })).mb 0)).2.2.1) ((vaultFields (tMb 0 0x0C03 (leBytes 4 5000 ++ [2, 2, 0, 0] ++ leBytes 16 100 ++ leBytes 16 101) ({ tArr with arr := { tArr.arr with ns := [{ tNs 0 with vault := 512 }, { tNs 1 with vault := 512 }] } })) ((tMb 0 0x0C03 (leBytes 4 5000 ++ [2, 2, 0, 0] ++ leBytes 16 100 ++ leBytes 16 101) ({ tArr with arr := { tArr.arr with ns := [{ tNs 0 with vault := 512 }, { tNs 1 with vault := 512 }] } })).mb 0)).2.2.2) ((tMb 0 0x0C03 (leBytes 4 5000 ++ [2, 2, 0, 0] ++ leBytes 16 100 ++ leBytes 16 101) ({ tArr with arr := { tArr.arr with ns := [{ tNs 0 with vault := 512 }, { tNs 1 with vault := 512 }] } })))) ∧
    ((fun (mb : Nat) (s : State) => (planRuns mb 0x0C04 s (vaultTestPlan s) = true) ∧ ((s.mb mb).staged = none)) 0 ((tMb 0 0x0C04 ([]) (tArr)))) ∧
    ((fun (mb : Nat) (s : State) => (s.vault.phase = .testing) ∧ (s.vault.testMb = some mb) ∧ (mb < s.mci.mbs.length)) 2 ({ tMb 2 0x0C04 [] tArr with vault := { phase := .testing, testMb := some 2, configured := true, members := [{ uid := 100, vaultSectors := 1024 }, { uid := 101, vaultSectors := 1024 }] } })) ∧
    ((fun (rs : List Nat) (mb : Nat) (s : State) => (s.vault.phase = .testing) ∧ (s.vault.testMb = some mb) ∧ (mb < s.mci.mbs.length) ∧ ((((s.onVault fun v => { v with members := (List.range s.vault.members.length).map (fun j => { (nth s.vault.members j {}) with rate := nth rs j 0 }), tested := true }).capLines).getD 0) ≠ 0)) ([500, 400]) 2 ({ tMb 2 0x0C04 [] tArr with vault := { phase := .testing, testMb := some 2, configured := true, members := [{ uid := 100, vaultSectors := 1024 }, { uid := 101, vaultSectors := 1024 }] } })) ∧
    ((fun (s : State) => (s.vault.phase ≠ .testing)) tUp) ∧
    ((fun (mb : Nat) (s : State) => (planRuns mb 0x0C05 s (vaultGetStatusPlan s) = true)) 0 ((tMb 0 0x0C05 ([]) (tArr)))) ∧
    ((fun (mb : Nat) (a : Nat) (b : Nat) (p : Parse) (s : State) => (planRuns mb 0x0C06 s (peerWindowConfigPlan s) = true) ∧ (pwFields s (s.mb mb) = (a, b, p))) 0 ((pwFields (tMb 0 0x0C06 ([]) (tUp)) ((tMb 0 0x0C06 ([]) (tUp)).mb 0)).1) ((pwFields (tMb 0 0x0C06 ([]) (tUp)) ((tMb 0 0x0C06 ([]) (tUp)).mb 0)).2.1) ((pwFields (tMb 0 0x0C06 ([]) (tUp)) ((tMb 0 0x0C06 ([]) (tUp)).mb 0)).2.2) ((tMb 0 0x0C06 ([]) (tUp)))) := by
  refine ⟨?_, ?_, ?_, ?_, ?_, ?_, ?_, ?_, ?_⟩ <;> decide +kernel

theorem test_witness_EmptyQueueTick :
    ((fun (s : State) => (s.pending = []) ∧ (s.sched.running) ∧ (s.hw.cycle + 1 < s.cycles)) tUp) ∧
    ((fun (s : State) => (s.pending = []) ∧ (¬ (s.sched.running ∧ s.hw.cycle + 1 < s.cycles))) State.reset) ∧
    ((fun (s : State) => (s.pending = []) ∧ (¬ (s.sched.running ∧ s.hw.cycle + 1 < s.cycles))) ({ tUp with hw := { tUp.hw with cycle := 1000000 } })) := by
  refine ⟨?_, ?_, ?_⟩ <;> decide +kernel

theorem test_witness_HistogramBins :
    ((fun (k : Nat) (b : Nat) => ((k, b) ∈ [(0x0101, 2), (0x0102, 4), (0x0104, 10), (0x0105, 10), (0x0106, 0)])) 0x0101 2) ∧
    ((fun (k : Nat) (b : Nat) => ((k, b) ∈ [(0x0101, 2), (0x0102, 4), (0x0104, 10), (0x0105, 10), (0x0106, 0)])) 0x0106 0) := by
  refine ⟨?_, ?_⟩ <;> decide +kernel

theorem test_witness_LogReplacement :
    ((fun (h : Happening) (s : State) => (2 ≤ h.kind) ∧ (h.kind ≤ 7) ∧ (s.klog.clearStep ≠ 2)) ({ kind := 2 }) tUp) ∧
    ((fun (h : Happening) (s : State) => (2 ≤ h.kind) ∧ (h.kind ≤ 7) ∧ (s.klog.clearStep ≠ 2)) ({ kind := 7 }) tUp) ∧
    ((fun (k : Klog) => (SlotsRise k)) ({ entries := [{ slot := 257, kind := 2, sev := 1 }] })) ∧
    ((fun (h : Happening) (k : Klog) => (k.entries.any (fun e => e.hasKey h.kind h.keyA h.keyB))) ({ kind := 2 }) ({ entries := [{ slot := 257, kind := 2, sev := 1 }] })) ∧
    ((fun (h : Happening) (k : Klog) => (SlotsRise k) ∧ (¬ k.entries.any (fun e => e.hasKey h.kind h.keyA h.keyB)) ∧ (k.entries.length < logSlots)) ({ kind := 3 }) ({ entries := [{ slot := 257, kind := 2, sev := 1 }] })) ∧
    ((fun (h : Happening) (k : Klog) => (SlotsRise k) ∧ (¬ k.entries.any (fun e => e.hasKey h.kind h.keyA h.keyB)) ∧ (k.entries.length < logSlots)) ({}) ({})) := 
  ⟨by decide +kernel,
   by decide +kernel,
   by simp only [SlotsRise]; decide +kernel,
   by decide +kernel,
   by simp only [SlotsRise]; decide +kernel,
   by simp only [SlotsRise]; decide +kernel⟩

theorem test_witness_AcknowledgeBeforeArrival :
    ((fun (i : Nat) (v : W32) (b : Nat) (f : FaultIn) (e : Episode) (s : State) => (i < 16) ∧ (b < 32) ∧ (v.getLsbD b = true) ∧ (f.source = 32 * i + b) ∧ (s.srcPresent f.source) ∧ (f.source ≠ 2 ∨ s.kilns = []) ∧ ((s.src f.source).episode = some e) ∧ (s.fc.queue.length < 256)) 7 1 0 ({ source := 224 }) ({ sev := 2 }) ({ tUp with fc := { tUp.fc with srcs := [{ id := 224, configured := 2, episode := some { sev := 2 } }] } })) ∧
    ((fun (i : Nat) (v : W32) (b : Nat) (f : FaultIn) (e : Episode) (s : State) => (i < 16) ∧ (b < 32) ∧ (v.getLsbD b = true) ∧ (f.source = 32 * i + b) ∧ (s.srcPresent f.source) ∧ (f.source ≠ 2 ∨ s.kilns = []) ∧ ((s.src f.source).episode = some e) ∧ (s.fc.queue.length < 256)) 0 4 2 ({ source := 2 }) ({ sev := 4 }) ({ tUp with fc := { tUp.fc with srcs := [{ id := 2, configured := 4, episode := some { sev := 4 } }] }, sched := { tUp.sched with kilnSet := 0, service := 0 } })) ∧
    ((fun (mb : Nat) (p : Parse) (f : FaultIn) (e : Episode) (s : State) => (planRuns mb 0x0B02 s (faultAckPlan s) = true) ∧ (f.source < 512) ∧ (faultAckFields (s.mb mb) = (f.source, 1, p)) ∧ (s.srcPresent f.source) ∧ (f.source ≠ 2 ∨ s.kilns = []) ∧ ((s.src f.source).episode = some e) ∧ (s.fc.queue.length < 256)) 0 ((faultAckFields ((tMb 0 0x0B02 ([224, 0]) ({ tUp with fc := { tUp.fc with srcs := [{ id := 224, configured := 2, episode := some { sev := 2 } }] } })).mb 0)).2.2) ({ source := 224 }) ({ sev := 2 }) ((tMb 0 0x0B02 ([224, 0]) ({ tUp with fc := { tUp.fc with srcs := [{ id := 224, configured := 2, episode := some { sev := 2 } }] } })))) ∧
    ((fun (mb : Nat) (k : Nat) (p : Parse) (s : State) => (planRuns mb 0x0B02 s (faultAckPlan s) = true) ∧ (faultAckFields (s.mb mb) = (k, 1, p)) ∧ ((s.src k).episode = none)) 0 9 ((faultAckFields ((tMb 0 0x0B02 ([9, 0]) (tUp)).mb 0)).2.2) ((tMb 0 0x0B02 ([9, 0]) (tUp)))) := by
  refine ⟨?_, ?_, ?_, ?_⟩ <;> decide +kernel

theorem test_witness_Placement : ((fun (d : Desc) (j : Nat) (q : Nat) => (0 < descW d) ∧ (j < descS d) ∧ (q < descW d)) ({ n := 7 }) 1 2) := by decide +kernel

/-! Witnesses that rest on an opaque constant, or that no evaluation reaches. -/

/-- A mailbox that fetches ARRAY_DELETE with an envelope as its input. -/
def tEnv (b : Bytes) : State := onMb 14 (fun m => { m with lock := 1, st := .fetching, opcode := 0x0211, flags := 1, inLen := b.length, sideband := b }) { tUp with
  hw := { tUp.hw with lifecycle := .owned, epoch := 1 }
  sec := { tUp.sec with ownerAlg := 1, ownerKey := 5 } }
/-- Whether an envelope passes rests on the opaque signature check; with one that does, every hypothesis is met. -/
theorem test_witness_MailboxTakeEffects_envelope (b : Bytes) (hb : b.length ≤ 262144)
    (_h : envelopeStep (tEnv b) ((tEnv b).mb 14).opcode (flag (bit ((tEnv b).mb 14).flags 0) 0) ((tEnv b).mb 14).params b
      (envelopeKey (tEnv b) ((tEnv b).mb 14).opcode ((tEnv b).mb 14).params).1 (envelopeKey (tEnv b) ((tEnv b).mb 14).opcode ((tEnv b).mb 14).params).2 = 0) :
    14 < 16 ∧ ((tEnv b).mb 14).st = .fetching ∧ ((tEnv b).mb 14).started = false ∧ inCatalogue ((tEnv b).mb 14).opcode = true ∧
    (tEnv b).dev.recoveryBoot = false ∧ inputRead 14 ((tEnv b).mb 14) none true = some b ∧ authorityOf ((tEnv b).mb 14).opcode ≠ 1 := by
  refine ⟨by decide, rfl, rfl, rfl, rfl, ?_, show authorityOf 0x0211 ≠ 1 by decide⟩
  have h1 : inputRead 14 ((tEnv b).mb 14) none true = if 262144 < b.length then none else some (slice b 0 b.length) := rfl
  rw [h1, if_neg (Nat.not_lt.mpr hb)]
  simp [slice]

/-- OWNERSHIP_TRANSFER on an owned device. -/
def tXfer : State := tMb 0 0x0703 [] { tUp with hw := { tUp.hw with lifecycle := .owned, epoch := 1 } }
/-- With a proof that verifies, OWNERSHIP_TRANSFER runs. -/
theorem test_witness_OwnershipEffects_transfer (h : proofOk tXfer (tXfer.mb 0) = true) : planRuns 0 0x0703 tXfer (transferPlan tXfer) = true := by
  have h1 : (transferPlan tXfer (tXfer.mb 0)).refuse = none := by
    have e : (transferPlan tXfer (tXfer.mb 0)).refuse = if ¬ proofOk tXfer (tXfer.mb 0) = true then some (stConflict, 0, 2) else none := rfl
    rw [e, h]; rfl
  dsimp only [planRuns]
  rw [h1]
  decide +kernel

/-- DECOMMISSION that confirms DEVICE_ID, on an owned device without arrays. -/
def tDec : State := tMb 0 0x0706 (leBytes 16 Config.deviceId.toNat) { tUp with hw := { tUp.hw with lifecycle := .owned, epoch := 1 } }
theorem test_witness_OwnershipEffects_decommission : planRuns 0 0x0706 tDec (decommissionPlan tDec) = true := by
  have h0 : (tDec.mb 0).parse.raw 0 16 = Config.deviceId.toNat := by
    have e : (tDec.mb 0).parse.raw 0 16 = leNat (leBytes 16 Config.deviceId.toNat) := rfl
    rw [e, leNat_leBytes]
    exact Nat.mod_eq_of_lt Config.deviceId.isLt
  have h1 : (decommissionPlan tDec (tDec.mb 0)).refuse = none := by
    have e : (decommissionPlan tDec (tDec.mb 0)).refuse = if (tDec.mb 0).parse.raw 0 16 ≠ Config.deviceId.toNat then some (stConflict, 0, 1) else
      if tDec.liveArrays ≠ [] then some (stConflict, 0, 2) else none := rfl
    rw [e, h0, if_neg (fun h => h rfl)]
    decide +kernel
  dsimp only [planRuns]
  rw [h1]
  rfl

theorem test_witness_AcknowledgeBeforeArrival_none : ∀ b, (0xFFFFFFFF : W32).getLsbD b = true → (tUp.src (32 * 15 + b)).episode = none := fun _ _ => rfl

/-- A log of `n` entries of severity 1; with every entry slot taken it is full. -/
def tLog (n : Nat) : Klog := { entries := (List.range n).map (fun i => { slot := 257 + i, kind := 2, sev := 1 }) }
theorem tLog_holds (n : Nat) (h0 : 0 < n) (hn : 257 + n ≤ 65536) :
    SlotsRise (tLog n) ∧ ¬ (tLog n).entries.any (fun e => e.hasKey 3 0 0) ∧ (tLog n).entries.length = n ∧
    TakenFirst 1 (tLog n) { slot := 257, kind := 2, sev := 1 } ∧ ∀ e ∈ (tLog n).entries, 0 < e.sev := by
  refine ⟨⟨?_, ?_⟩, ?_, ?_, ⟨?_, ?_, ?_⟩, ?_⟩
  · exact List.pairwise_map.mpr (List.pairwise_lt_range.imp (fun h => Nat.add_lt_add_left h 257))
  · intro x hx
    obtain ⟨i, hi, rfl⟩ := List.mem_map.mp hx
    have := List.mem_range.mp hi
    exact ⟨Nat.le_add_right _ _, by show 257 + i ≤ 65535; omega⟩
  · simp [tLog, LogEntry.hasKey]
  · simp [tLog]
  · exact List.mem_map.mpr ⟨0, List.mem_range.mpr h0, rfl⟩
  · decide
  · intro x hx _
    obtain ⟨i, _, rfl⟩ := List.mem_map.mp hx
    exact .inr ⟨rfl, .inr ⟨rfl, Nat.le_add_right _ _⟩⟩
  · intro x hx
    obtain ⟨i, _, rfl⟩ := List.mem_map.mp hx
    exact Nat.one_pos
theorem test_witness_LogReplacement_full :
    SlotsRise (tLog logSlots) ∧ ¬ (tLog logSlots).entries.any (fun e => e.hasKey 3 0 0) ∧ (tLog logSlots).entries.length = logSlots ∧
    TakenFirst 1 (tLog logSlots) { slot := 257, kind := 2, sev := 1 } ∧ ∀ e ∈ (tLog logSlots).entries, 0 < e.sev :=
  tLog_holds logSlots (by decide) (by decide)

/-- Segment 0 is valid for reads and writes. -/
def tPw : State := { tUp with pw := { active := [(0, { valid := true, read := true, write := true, pages := 2, off := 4096 })] } }
theorem test_witness_PeerWriteReadsBack :
    tPw.memReachable ∧ [1, 2, 3, 4].length = 4 ∧ (pwTranslate tPw true 8188 4).isSome ∧ (pwTranslate tPw false 8188 4).isSome ∧ pwTranslate tPw true 8188 4 = some 12284 ∧
    ∃ t, exec (.peerWindowRequest true 8188 4 false [1, 2, 3, 4]) tPw = .next t :=
  ⟨by decide +kernel, rfl, by decide +kernel, by decide +kernel, by decide +kernel, _, rfl⟩
theorem test_witness_StagingStaysCanonical : Memory.wf tPw.pw.mem ∧
    (∃ t, exec (.peerWindowRequest true 8188 4 false [1, 2, 3, 4]) tPw = .next t) ∧ ∃ t, exec (.pwCommit 1) tPw = .next t :=
  ⟨by decide +kernel, ⟨_, rfl⟩, _, rfl⟩
theorem test_witness_FieldsWithOwners : (∃ t, exec .trst tUp = .next t ∧ (∀ st torn, Instr.trst ≠ .auxPowerOn st torn) ∧ ∀ l, Instr.trst ≠ .opMinuteTick l) ∧
    ∃ s t, exec (.ownershipClaim 0) s = .next t ∧ t.hw.lifecycle ≠ s.hw.lifecycle :=
  ⟨⟨_, rfl, nofun, nofun⟩, tMb 0 0x0702 [] { tUp with hw := { tUp.hw with lifecycle := .provisioned } }, _, rfl, by decide +kernel⟩
theorem test_witness_FusesOnlyRise : ∃ t, step { tUp with pending := [.trst] } = .next t := ⟨_, rfl⟩
theorem test_witness_FuseLimitsKept : FuseLimits { tUp with pending := [.trst] } ∧ ∃ t, step { tUp with pending := [.trst] } = .next t :=
  ⟨by simp only [FuseLimits]; decide +kernel, _, rfl⟩
theorem test_witness_FatalLatched : Instr.trst ≠ .auxPowerRemoved ∧ ∃ t, exec .trst { tUp with fc := { tUp.fc with fatal := true } } = .next t ∧
    ({ tUp with fc := { tUp.fc with fatal := true } } : State).fc.fatal = true := ⟨nofun, _, rfl, rfl⟩

/-! ### The spec's worked examples and tables -/

/-- `d0.c03.e1.l12.m04`, and the whole of kiln 3 (chapter 01, worked encoding). -/
theorem test_locationCodes : loc 0 3 1 12 4 = 0x03098400#32 ∧ locCluster 0 3 = 0x03FFFF00#32 := by decide +kernel
/-- Chapter 03, classic encode: P0 = 0x40 and P1 = 0xEE. -/
theorem test_encode : parityOf 2 0 [(0, [0x1A]), (1, [0x2B]), (2, [0x3C]), (3, [0x4D])] = [0x40] ∧
    parityOf 2 1 [(0, [0x1A]), (1, [0x2B]), (2, [0x3C]), (3, [0x4D])] = [0xEE] := by decide +kernel
/-- Chapter 03, two lost data strips. -/
theorem test_reconstruct : reconstruct 2 4 2 [(0, [0x1A]), (2, [0x3C]), (4, [0x40]), (5, [0xEE])] [1, 3] = some [(1, [0x2B]), (3, [0x4D])] := by decide +kernel
/-- Chapter 06, power loss with a journal copy on the failed member: D1 is rebuilt from P0 before the close. -/
theorem test_reconstructOne : reconstruct 2 4 2 [(0, [0x1A]), (2, [0x3C]), (3, [0x4D]), (4, [0x40]), (5, [0xEE])] [1] = some [(1, [0x2B])] := by decide +kernel
/-- Chapter 03, N = 10 and w = 4: π_0 and π_1. -/
theorem test_permutations : permutation 0 0 10 = [6, 3, 2, 9, 8, 1, 4, 7, 0, 5] ∧ permutation 0 1 10 = [8, 7, 6, 5, 3, 9, 2, 4, 1, 0] := by decide +kernel
/-- Chapter 03, locating a sector: positions 0 to 3 of stripe 3 hold D1 on member 3, P0 on 9, P1 on 2 and D0 on 4. -/
theorem test_locate : let d : Desc := { form := 2, k := 2, m := 2, n := 10 }
    stripeOf d 100 = 3 ∧ sliceOf d 100 = 4 ∧ roundOf d 3 = 1 ∧ indexOf d 3 = 1 ∧
    ((homeStrips d 1).filter (fun x => x.j == 1)).map (fun x => (x.q, x.loc)) = [(1, 3), (2, 9), (3, 2), (0, 4)] := by decide +kernel
/-- Chapter 04: the 7.68 TB member formatted 4096+0, and the tag of its DATA index 20. -/
theorem test_memberLayout : dataSize 1875000000 65536 0 1 = 1846088448 ∧ dataStart 65536 0 = 65792 ∧ tagSectors 1846088448 = 28845312 ∧
    tagPlace { dataStart := 65792, dataSectors := 1846088448 } 20 = (1846154240, 1280) := by decide +kernel
/-- Chapter 06, hold-up: the cap in lines of four vault members. -/
theorem test_holdup : ({ tArr with
      arr := { tArr.arr with ns := (List.range 4).map (fun p => { tNs p with vault := 36608 }) }
      vault := { configured := true, tested := true, holdupUs := 30000, members := [
        { uid := 100, vaultSectors := 36608, rate := 6300 }, { uid := 101, vaultSectors := 36608, rate := 5800 },
        { uid := 102, vaultSectors := 36608, rate := 6200 }, { uid := 103, vaultSectors := 36608, rate := 6400 }] } } : State).capLines = some 71484 := by decide +kernel
/-- Chapter 13, creating a 16+4 array: the applied values and the clamp report. -/
theorem test_arrayCreate : let m : Mailbox := { params := [9, 0, 0, 0, 6, 18, 13, 0] ++ ascii "ledger-a" ++ List.replicate 24 0, payload := ((List.range 20).map (fun i => leBytes 16 (100 + i))).flatten }
    let r := createFields m
    (r.form, r.count, r.m, r.k, r.shift) = (3, 20, 4, 16, 14) ∧ r.p.adj = [⟨1, 0x08, 9, 3⟩, ⟨3, 0x12, 6, 4⟩, ⟨4, 0x12, 18, 16⟩, ⟨5, 0x01, 13, 14⟩] ∧
    poolRounds 14 (List.replicate 20 1846088448) = 461522112 := by decide +kernel
/-- The array of that example. -/
def tA16 : Arr where
  service := 2
  body := {
    uid := 77
    gen := 1
    members := (List.range 20).map (fun p => { uid := 100 + p, port := p, dataSectors := 1846088448 })
    desc := { form := 3, k := 16, m := 4, shift := 14, n := 20, rounds := 461522112 } }
theorem test_arrayCapacity : descCapacity tA16.body.desc = 29537415168 := by decide +kernel
/-- Chapter 13, creating a volume: the applied values and the clamp report. -/
theorem test_volumeCreate : let s : State := { tUp with arr := { tUp.arr with arrays := [tA16] } }
    let r := volCreateFields s { params := [1, 5, 0, 0, 0, 0, 0, 0] ++ leBytes 8 1000003 ++ leBytes 8 5 }
    (r.lbaf, r.nsid, r.cap, r.policy) = (0, 0, 1000064, 1) ∧ s.takeNsid 0 = some 1 ∧
    r.p.adj = [⟨2, 0x08, 5, 0⟩, ⟨4, 0x04, 1000003, 1000064⟩, ⟨5, 0x50, 5, 1⟩] := by decide +kernel
/-- Chapter 10, remapping under traffic: segment 5 has moved to area B, segment 9 maps area A. -/
theorem test_remap : let s : State := { tUp with cfg := { tUp.cfg with barSize := 32 }, pw := { tUp.pw with active := [
      (5, { valid := true, read := true, write := true, pages := 4096, off := 0x20000000 }), (9, { valid := true, read := true, write := true, pages := 4096, off := 0x05000000 })] } }
    pwTranslate s false 0x09001000 512 = some 0x05001000 ∧ pwTranslate s true 0x05001000 512 = some 0x20001000 := by decide +kernel
/-- Chapter 17: 488,282 turns after a hint of 1,000,000 the claimed time is 1,000,500, and a hint of 1,000,400 is decreased. -/
theorem test_claimedTime : let s : State := { tUp with klog := { tUp.klog with hintValid := true, hintValue := 1000000, hintFt := { turn := 10 } }, hw := { tUp.hw with turn := 488292 } }
    s.claimedAt s.now = 1000500 ∧ (match execHostTimeHint 0 (tMb 0 0x0903 (leBytes 8 1000400) s) with | .next t => t.klog.hintDecreased | _ => false) = true := by decide +kernel
/-- The CRCs of R77 on "123456789": the check values of CRC-32C and CRC-64. -/
theorem test_crc : crc32 (ascii "123456789") = 0xE3069283#32 ∧ crc64 (ascii "123456789") = 0xAE8B14860A799888#64 := by decide +kernel

/-! ### Well-formedness: every check refuses a term that breaks it alone, and accepts its boundary value -/

theorem test_illFormed_0 : ([.configRequest false 0 18446744073709551616, .peerWindowRequest false 0 0 false [0], .pwCommit 18446744073709551616, .translationCompletion 4096 65535 0 false .untranslatedOnly, .translationCompletion 4095 65536 0 false .untranslatedOnly, .hostCompletionReceived 1024 .ok 0, .completionTimeout 1024 0, .tagQuarantineExpired 1024, .gatherAgeExpired 64 0, .registerWrite 0 18446744073709551616, .globalEventWrite 18446744073709551616 0, .decodeMatrixDerived 4 63 [], .decodeMatrixDerived 3 64 [], .permutationComputed 64 0 0, .kilnMemError 4 0 0 0 none false, .ddrEccError 8 0 false false, .hostDataLanded 4096 65535 255 (List.replicate 4096 0) (List.replicate 8 0), .hostDataLanded 4095 65536 255 (List.replicate 4096 0) (List.replicate 8 0), .hostDataLanded 4095 65535 256 (List.replicate 4096 0) (List.replicate 8 0), .hostDataLanded 4095 65535 255 (List.replicate 4097 0) (List.replicate 8 0), .hostDataLanded 4095 65535 255 (List.replicate 4096 0) (List.replicate 9 0), .completionPost 4096 65535, .completionPost 4095 65536, .commandFetch 4096 {}] : List Instr).all (fun i => !wellFormed i) := by decide +kernel
theorem test_illFormed_1 : ([.ccEnable 18446744073709551616, .ccDisable 18446744073709551616, .shutdownNotification 18446744073709551616, .intmsWrite 18446744073709551616, .intmcWrite 18446744073709551616, .sqTailDoorbell 4096 18446744073709551615, .sqTailDoorbell 4095 18446744073709551616, .cqHeadDoorbell 4096 18446744073709551615, .cqHeadDoorbell 4095 18446744073709551616, .deleteIoSubmissionQueue 65536, .createIoSubmissionQueue 65536, .getLogPage 65536, .deleteIoCompletionQueue 65536, .createIoCompletionQueue 65536, .identify 65536, .abortCmd 65536, .setFeatures 65536 [], .getFeatures 65536, .asynchronousEventRequest 65536, .flush 4096 65535, .flush 4095 65536, .write 4096 65535, .write 4095 65536, .read 4096 65535] : List Instr).all (fun i => !wellFormed i) := by decide +kernel
theorem test_illFormed_2 : ([.read 4095 65536, .writeZeroes 4096 65535, .writeZeroes 4095 65536, .datasetManagement 4096 65535, .datasetManagement 4095 65536, .verify 4096 65535, .verify 4095 65536, .memberLinkDown 48, .memberControllerResetDone 48 false, .patrolScrubDue 64, .prsntChange 48 false, .prsntDebounceExpired 48, .memberPerstDelayExpired 48, .records 0 2 [], .line 0 2 0 {}, .endMsg 0 2 0 [], .statePage 0 2 0 [] [] [], .reservationReportDone 64 false, .fenceWaitExpired 64 {}, .moveDrainComplete 64, .drillHoldExpired 64, .send {} (List.replicate 8193 0), .coilWrite {} (List.replicate 8193 0), .readResp {} (List.replicate 8193 0)] : List Instr).all (fun i => !wellFormed i) := by decide +kernel
theorem test_illFormed_3 : ([.nonCoilPacket 0 2, .pauseFrame 2, .coilPortLinkDown 2, .mbLockWrite 16 18446744073709551615, .mbLockWrite 15 18446744073709551616, .mbRing 16 false, .mbCancel 16, .sidebandMailboxHostAccess 16 0 false, .mciInputReadDone 16 none false, .mciComplete 16 false, .sidebandWrite 16 0 (List.replicate 1024 0), .sidebandWrite 15 0 (List.replicate 1025 0), .sidebandRead 16 0 0, .sidebandRing 16, .sidebandCancel 16, .getState 16, .wakeHost 16, .setEndpointId 256, .identifyDevice 16, .getLimits 16, .deviceSetConfig 16, .deviceRestart 16, .unitControl 16 false, .memberList 16] : List Instr).all (fun i => !wellFormed i) := by decide +kernel
theorem test_illFormed_4 : ([.memberAdopt 16, .memberRelease 16, .memberFail 16, .memberReplace 16, .arrayCreate 16, .arrayDelete 16, .arrayImport 16 [], .arrayExpand 16, .arrayMigrate 16, .arrayGet 16, .arrayExport 16, .volumeCreate 16, .volumeDelete 16, .volumeResize 16, .volumeSetPolicy 16, .volumeList 16, .rebuildGetStatus 16, .rebuildSetPolicy 16, .rebuildStart 16, .scrubStart 16, .scrubStop 16, .lostExtentsGet 16, .twinPair 16, .twinUnpair 16] : List Instr).all (fun i => !wellFormed i) := by decide +kernel
theorem test_illFormed_5 : ([.twinGetStatus 16, .twinSetPolicy 16, .twinMoveArray 16, .twinSwapDrill 16 [] [] 0, .twinTakeover 16, .coilGetStatus 16, .coilConfig 16, .coilSetTrust 16, .coilRegionRegister 16, .coilRegionDeregister 16, .coilRecvPost 16, .coilExportMember 16, .ownershipGet 16, .ownershipClaim 16, .ownershipTransfer 16, .policySet 16, .debugUnlock 16, .decommission 16, .firingRecordGet 16, .attestQuote 16, .certGet 16, .kilnLogGet 16, .kilnLogClear 16, .hostTimeHint 16] : List Instr).all (fun i => !wellFormed i) := by decide +kernel
theorem test_illFormed_6 : ([.fwDownload 16 {} none, .fwActivate 16, .fwGetStatus 16, .faultGet 16, .faultAck 16 [{ source := 511 }], .faultAck 15 [{ source := 512 }], .faultSetSeverity 16, .faultInject 16, .diagPattern 16, .diagMbist 16, .diagMargin 16, .saggarGetStatus 16, .saggarSetPolicy 16, .vaultConfig 16, .vaultTest 16, .vaultGetStatus 16, .peerWindowConfig 16, .kcCommit 64, .kcStart 64, .kcStop 64, .requestLinePulse 96, .descriptorFetched 64 {}, .descriptorBoundary 64 false, .kcMemError 64 0 none false] : List Instr).all (fun i => !wellFormed i) := by decide +kernel
theorem test_illFormed_7 : ([.faultArrival [{ source := 512 }], .pendingWrite 16 0#32 [{ source := 511 }], .pendingWrite 15 0#32 [{ source := 512 }], .clearFirst [{ source := 512 }], .autoAck 512, .injectionApply 512 [{ source := 511 }], .injectionApply 511 [{ source := 512 }], .thermalTrip 4, .pllUnlock 5, .d2dLaneFailed 16 35, .d2dLaneFailed 15 36, .d2dSpareFailed 16 35, .d2dSpareFailed 15 36, .testDurationExpired 16 [], .marginDwellExpired 16 0, .mbistComplete 16 0 0 0 0, .prsntHoldoffExpired 48, .checkerLockChange 16 0 false] : List Instr).all (fun i => !wellFormed i) := by decide +kernel
theorem test_wellFormed_0 : ([.configRequest false 0 18446744073709551615, .peerWindowRequest false 0 0 false [], .pwCommit 18446744073709551615, .translationCompletion 4095 65535 0 false .untranslatedOnly, .hostCompletionReceived 1023 .ok 0, .completionTimeout 1023 0, .tagQuarantineExpired 1023, .gatherAgeExpired 63 0, .registerWrite 0 18446744073709551615, .globalEventWrite 18446744073709551615 0, .decodeMatrixDerived 3 63 [], .permutationComputed 63 0 0, .kilnMemError 3 0 0 0 none false, .ddrEccError 7 0 false false, .hostDataLanded 4095 65535 255 (List.replicate 4096 0) (List.replicate 8 0), .completionPost 4095 65535, .commandFetch 4095 {}, .ccEnable 18446744073709551615, .ccDisable 18446744073709551615, .shutdownNotification 18446744073709551615, .intmsWrite 18446744073709551615, .intmcWrite 18446744073709551615, .sqTailDoorbell 4095 18446744073709551615, .cqHeadDoorbell 4095 18446744073709551615, .deleteIoSubmissionQueue 65535, .createIoSubmissionQueue 65535, .getLogPage 65535, .deleteIoCompletionQueue 65535, .createIoCompletionQueue 65535, .identify 65535, .abortCmd 65535, .setFeatures 65535 [], .getFeatures 65535, .asynchronousEventRequest 65535, .flush 4095 65535, .write 4095 65535, .read 4095 65535, .writeZeroes 4095 65535, .datasetManagement 4095 65535, .verify 4095 65535, .memberLinkDown 47, .memberControllerResetDone 47 false, .patrolScrubDue 63, .prsntChange 47 false, .prsntDebounceExpired 47, .memberPerstDelayExpired 47, .records 0 1 [], .line 0 1 0 {}] : List Instr).all wellFormed := by decide +kernel
theorem test_wellFormed_1 : ([.endMsg 0 1 0 [], .statePage 0 1 0 [] [] [], .reservationReportDone 63 false, .fenceWaitExpired 63 {}, .moveDrainComplete 63, .drillHoldExpired 63, .send {} (List.replicate 8192 0), .coilWrite {} (List.replicate 8192 0), .readResp {} (List.replicate 8192 0), .nonCoilPacket 0 1, .pauseFrame 1, .coilPortLinkDown 1, .mbLockWrite 15 18446744073709551615, .mbRing 15 false, .mbCancel 15, .sidebandMailboxHostAccess 15 0 false, .mciInputReadDone 15 none false, .mciComplete 15 false, .sidebandWrite 15 0 (List.replicate 1024 0), .sidebandRead 15 0 0, .sidebandRing 15, .sidebandCancel 15, .getState 15, .wakeHost 15, .setEndpointId 255, .identifyDevice 15, .getLimits 15, .deviceSetConfig 15, .deviceRestart 15, .unitControl 15 false, .memberList 15, .memberAdopt 15, .memberRelease 15, .memberFail 15, .memberReplace 15, .arrayCreate 15, .arrayDelete 15, .arrayImport 15 [], .arrayExpand 15, .arrayMigrate 15, .arrayGet 15, .arrayExport 15, .volumeCreate 15, .volumeDelete 15, .volumeResize 15, .volumeSetPolicy 15, .volumeList 15, .rebuildGetStatus 15] : List Instr).all wellFormed := by decide +kernel
theorem test_wellFormed_2 : ([.rebuildSetPolicy 15, .rebuildStart 15, .scrubStart 15, .scrubStop 15, .lostExtentsGet 15, .twinPair 15, .twinUnpair 15, .twinGetStatus 15, .twinSetPolicy 15, .twinMoveArray 15, .twinSwapDrill 15 [] [] 0, .twinTakeover 15, .coilGetStatus 15, .coilConfig 15, .coilSetTrust 15, .coilRegionRegister 15, .coilRegionDeregister 15, .coilRecvPost 15, .coilExportMember 15, .ownershipGet 15, .ownershipClaim 15, .ownershipTransfer 15, .policySet 15, .debugUnlock 15, .decommission 15, .firingRecordGet 15, .attestQuote 15, .certGet 15, .kilnLogGet 15, .kilnLogClear 15, .hostTimeHint 15, .fwDownload 15 {} none, .fwActivate 15, .fwGetStatus 15, .faultGet 15, .faultAck 15 [{ source := 511 }], .faultSetSeverity 15, .faultInject 15, .diagPattern 15, .diagMbist 15, .diagMargin 15, .saggarGetStatus 15, .saggarSetPolicy 15, .vaultConfig 15, .vaultTest 15, .vaultGetStatus 15, .peerWindowConfig 15, .kcCommit 63] : List Instr).all wellFormed := by decide +kernel
theorem test_wellFormed_3 : ([.kcStart 63, .kcStop 63, .requestLinePulse 95, .descriptorFetched 63 {}, .descriptorBoundary 63 false, .kcMemError 63 0 none false, .faultArrival [{ source := 511 }], .pendingWrite 15 0#32 [{ source := 511 }], .clearFirst [{ source := 511 }], .autoAck 511, .injectionApply 511 [{ source := 511 }], .thermalTrip 3, .pllUnlock 4, .d2dLaneFailed 15 35, .d2dSpareFailed 15 35, .testDurationExpired 15 [], .marginDwellExpired 15 0, .mbistComplete 15 0 0 0 0, .prsntHoldoffExpired 47, .checkerLockChange 15 0 false] : List Instr).all wellFormed := by decide +kernel

end Sys2Proof.Machine
end

section
/-! Acknowledgement in the cycle of a new fault (R446): how the collector's record of a source changes, operation by operation. -/
namespace Sys2Proof.Machine

/-! ### The record of a source -/

/-- A source's record lies in the collector's list of sources and nowhere else. -/
theorem src_congr {s t : State} (h : t.fc.srcs = s.fc.srcs) (k : Nat) : t.src k = s.src k := by
  simp only [State.src, h]

theorem src_id (k : Nat) (s : State) : (s.src k).id = k := by
  unfold State.src
  cases hf : s.fc.srcs.find? (fun x => x.id == k) with
  | none => rfl
  | some x => simpa using List.find?_some hf

/-- Putting `x` in the place of its source's record does not change which source a search finds. -/
theorem find?_mapIf_id (x : Src) (k : Nat) (l : List Src) :
    (mapIf l (fun y => y.id == x.id) (fun _ => x)).find? (fun y => y.id == k) =
      (l.find? (fun y => y.id == k)).map (fun y => if y.id == x.id then x else y) := by
  have hid : ((fun y : Src => y.id == k) ∘ fun y => if y.id == x.id then x else y) = fun y => y.id == k := by
    funext y
    by_cases hy : y.id = x.id <;> simp [hy]
  rw [mapIf, List.find?_map, hid]

theorem src_putSrc (x : Src) (k : Nat) (s : State) : (putSrc x s).src k = if k = x.id then x else s.src k := by
  simp only [putSrc, State.src, State.onFc_fc]
  split
  next hany =>
    rw [find?_mapIf_id]
    cases hf : s.fc.srcs.find? (fun y => y.id == k) with
    | none =>
      have hk : k ≠ x.id := by
        rintro rfl
        exact absurd hany (by simpa using hf)
      simp [hk]
    | some y =>
      have hy : y.id = k := by simpa using List.find?_some hf
      simp [hy]
  next hany =>
    by_cases hk : k = x.id
    · have hnone : s.fc.srcs.find? (fun y => y.id == x.id) = none := by simpa using hany
      simp [hk, List.find?_append, hnone]
    · simp [hk, List.find?_append, Ne.symm hk]

/-- A change of one source's record that keeps its identifier. -/
theorem src_onSrc {j : Nat} {f : Src → Src} {s : State} (hf : (f (s.src j)).id = (s.src j).id) (k : Nat) :
    (onSrc j f s).src k = if k = j then f (s.src j) else s.src k := by
  rw [onSrc, src_putSrc, hf, src_id]

theorem srcPresent_congr {s t : State} (h : t.hw = s.hw) (k : Nat) : t.srcPresent k = s.srcPresent k := by
  simp only [State.srcPresent, State.kilnPresent, State.ddrPresent, State.slipPresent, State.coilPresent, State.gradeC, h]

/-! ### Acknowledgement (R440, R446) -/

/-- An acknowledgement changes the list of sources and nothing else. -/
theorem ackSource_eq (k : Nat) (s : State) : ackSource k s = { s with fc := { s.fc with srcs := (ackSource k s).fc.srcs } } := by
  unfold ackSource; split <;> rfl

theorem ackSource_of_none {k : Nat} {s : State} (h : (s.src k).episode = none) : ackSource k s = s := by
  simp [ackSource, h]

theorem src_ackSource (j k : Nat) (s : State) :
    (ackSource j s).src k = if k = j then { s.src k with episode := none } else s.src k := by
  cases he : (s.src j).episode with
  | none =>
    rw [ackSource_of_none he]
    split
    next hk => rw [hk, ← he]
    next => rfl
  | some e =>
    simp only [ackSource, he, Option.isSome_some, if_true]
    rw [src_onSrc rfl]
    split
    next hk => rw [hk]
    next => rfl

/-- Acknowledgements change the list of sources and nothing else. -/
theorem foldl_ackSource_eq (ks : List Nat) (s : State) :
    ks.foldl (fun t k => ackSource k t) s = { s with fc := { s.fc with srcs := (ks.foldl (fun t k => ackSource k t) s).fc.srcs } } := by
  induction ks generalizing s with
  | nil => rfl
  | cons k ks ih =>
    rw [List.foldl_cons, ih, ackSource_eq]

theorem src_foldl_ackSource (ks : List Nat) (k : Nat) (s : State) :
    (ks.foldl (fun t k => ackSource k t) s).src k = if k ∈ ks then { s.src k with episode := none } else s.src k := by
  induction ks generalizing s with
  | nil => rfl
  | cons j ks ih =>
    rw [List.foldl_cons, ih, src_ackSource]
    by_cases hj : k = j <;> by_cases hk : k ∈ ks <;> simp [hj, hk]

/-- Acknowledgements of sources with no pending episode have no effect. -/
theorem foldl_ackSource_of_none {ks : List Nat} {s : State} (h : ∀ k ∈ ks, (s.src k).episode = none) :
    ks.foldl (fun t k => ackSource k t) s = s := by
  induction ks with
  | nil => rfl
  | cons k ks ih =>
    rw [List.foldl_cons, ackSource_of_none (h k List.mem_cons_self)]
    exact ih fun j hj => h j (List.mem_cons_of_mem _ hj)

theorem ackThen_nil_of_none {ks : List Nat} {s : State} (h : ∀ k ∈ ks, (s.src k).episode = none) : ackThen ks [] s = s := by
  rw [ackThen, foldl_ackSource_of_none h, raiseAll_nil]

/-! ### Capture and action (R441 to R445) -/

/-- Capturing a fault leaves the records of other sources alone. -/
theorem src_captureFault_ne {j : Judged} {k : Nat} (h : k ≠ j.a.f.source) (s : State) : (captureFault j s).src k = s.src k := by
  have hack : ∀ (b : Prop) [Decidable b] (u : State),
      (if b then ackSource j.a.f.source u else u).src k = u.src k := by
    intro b _ u
    split
    · rw [src_ackSource, if_neg h]
    · rfl
  refine (hack _ _).trans ?_
  rw [src_onSrc rfl]
  refine (if_neg h).trans ?_
  exact src_congr (by rfl) k

/-- Capturing a fault with room in the event queue leaves every episode as it was judged. -/
theorem episode_captureFault {s : State} (hq : s.fc.queue.length < 256) (j : Judged) (k : Nat) :
    ((captureFault j s).src k).episode = (s.src k).episode := by
  simp only [captureFault, hq, decide_true, not_true_eq_false, false_and, if_false]
  rw [src_onSrc rfl]
  split
  next hk => rw [hk]; rfl
  next => rfl

theorem enterFatal_srcs (s : State) : (enterFatal s).fc.srcs = s.fc.srcs := by
  unfold enterFatal; split <;> rfl

/-- Acting on a fault leaves every source's record alone. -/
theorem actOnFault_srcs (j : Judged) (s : State) : (actOnFault j s).fc.srcs = s.fc.srcs := by
  have hpme : ∀ t, (sendPme t).fc = t.fc := fun _ => rfl
  have htests : ∀ p t, (interruptTests p t).fc = t.fc := fun _ _ => rfl
  simp only [actOnFault, apply_ite (fun t : State => t.fc.srcs), enterFatal_srcs, htests, unitAction_fc, hpme, signal_fc, ite_self]

theorem src_actOnFault (j : Judged) (k : Nat) (s : State) : (actOnFault j s).src k = s.src k := src_congr (actOnFault_srcs j s) k

/-! ### Arrivals at the collector (R436, R439, R442) -/

/-- A judgement is about the arrival judged and the source's own record. -/
theorem judge_keeps (real : Bool) (a : Arrival) (x : Src) : (judge real a x).1.a = a ∧ (judge real a x).2.id = x.id := by
  unfold judge
  split
  · exact ⟨rfl, rfl⟩
  · split
    · exact ⟨rfl, rfl⟩
    · repeat' split
      all_goals exact ⟨rfl, rfl⟩

/-- A real fault of a source with no pending episode opens one at the configured severity, without escalation (R439). -/
theorem judge_opens {real : Bool} {f : FaultIn} {x : Src} (h : x.episode = none) :
    judge real { f := f } x = ({ a := { f := f }, sev := x.configured, opened := true }, { x with episode := some { sev := x.configured } }) := by
  simp [judge, h]

/-- Judging an arrival writes the judged record of its source. -/
theorem src_judgeStep (all : List Arrival) (acc : List Judged × State) (a : Arrival) (k : Nat) : (judgeStep all acc a).2.src k =
    if k = a.f.source then (judge (all.any (fun b => !b.injected && b.f.source == a.f.source)) a (acc.2.src a.f.source)).2 else acc.2.src k := by
  have hput : (judgeStep all acc a).2.fc.srcs =
      (putSrc (judge (all.any (fun b => !b.injected && b.f.source == a.f.source)) a (acc.2.src a.f.source)).2 acc.2).fc.srcs := by
    unfold judgeStep
    dsimp only
    split <;> rfl
  rw [src_congr hput, src_putSrc, (judge_keeps _ _ _).2, src_id]

theorem judgeStep_queue (all : List Arrival) (acc : List Judged × State) (a : Arrival) :
    (judgeStep all acc a).2.fc.queue = acc.2.fc.queue := by
  unfold judgeStep
  dsimp only
  split <;> rfl

/-- A fault that arrives alone at a present source is judged, captured and acted on. -/
theorem collect_singleton {a : Arrival} {s : State} (h : a.f.source < 512 ∧ s.srcPresent a.f.source = true) :
    ∃ j, j.a = a ∧ collect [a] s = actOnFault j (captureFault j (judgeStep [a] ([], s) a).2) := by
  have hl : ([a].filter (fun a => !a.injected) ++ [a].filter (fun a => a.injected)).filter
      (fun a => a.f.source < 512 && s.srcPresent a.f.source) = [a] := by
    cases hi : a.injected <;> simp [hi, h]
  simp only [collect, hl]
  exact ⟨_, (judge_keeps _ _ _).1, rfl⟩

/-- The sources of an absent unit are never raised. -/
theorem collect_singleton_absent {a : Arrival} {s : State} (h : ¬ (a.f.source < 512 ∧ s.srcPresent a.f.source = true)) :
    collect [a] s = s := by
  cases hi : a.injected <;> simp [collect, hi, h, orderJudged]

/-- A fault that arrives alone leaves the records of other sources alone. -/
theorem src_collect_singleton_ne {a : Arrival} {k : Nat} (hk : k ≠ a.f.source) (s : State) : (collect [a] s).src k = s.src k := by
  by_cases h : a.f.source < 512 ∧ s.srcPresent a.f.source = true
  · obtain ⟨j, hj, hc⟩ := collect_singleton h
    rw [hc, src_actOnFault, src_captureFault_ne (hj ▸ hk), src_judgeStep, if_neg hk]
  · rw [collect_singleton_absent h]

/-- A real fault that arrives alone at a source with no pending episode opens one at the configured severity (R437, R439). -/
theorem episode_collect_singleton {f : FaultIn} {s : State} (h : f.source < 512 ∧ s.srcPresent f.source = true)
    (hq : s.fc.queue.length < 256) (he : (s.src f.source).episode = none) :
    ((collect [{ f := f }] s).src f.source).episode = some { sev := (s.src f.source).configured } := by
  obtain ⟨j, -, hc⟩ := collect_singleton (a := { f := f }) h
  rw [hc, src_actOnFault, episode_captureFault (by rwa [judgeStep_queue]), src_judgeStep, if_pos rfl, judge_opens he]

/-- LAST_KILN_LOST, which the loss of the last kiln raises, is the one source whose record it touches (R24). -/
theorem src_lastKiln {b : State} {k : Nat} (h : k ≠ 2 ∨ b.kilns = []) (s : State) : (lastKiln b s).src k = s.src k := by
  unfold lastKiln
  split
  next hb _ => exact src_collect_singleton_ne (h.resolve_right (by simp [hb])) s
  next => rfl

/-! ### An acknowledgement and a fault of one cycle (R446) -/

/-- The acknowledged episode ends first, so the fault of the same cycle opens a new one without escalation. -/
theorem episode_ackThen {ks : List Nat} {f : FaultIn} {s : State} (hk : f.source ∈ ks) (hlt : f.source < 512)
    (hp : s.srcPresent f.source = true) (h2 : f.source ≠ 2 ∨ s.kilns = []) (hq : s.fc.queue.length < 256) :
    ((ackThen ks [f] s).src f.source).episode = some { sev := (s.src f.source).configured } := by
  have heq := foldl_ackSource_eq ks s
  have hsrc := src_foldl_ackSource ks f.source s
  rw [if_pos hk] at hsrc
  unfold ackThen raiseAll
  generalize ks.foldl (fun t k => ackSource k t) s = u at heq hsrc ⊢
  have hu : f.source ≠ 2 ∨ u.kilns = [] := by rw [heq]; exact h2
  have hpu : u.srcPresent f.source = true := (srcPresent_congr (congrArg State.hw heq) _).trans hp
  rw [src_lastKiln hu, List.map_singleton, episode_collect_singleton ⟨hlt, hpu⟩ (by rw [heq]; exact hq) (by rw [hsrc]), hsrc]

/-- FAULT_ACK with SCOPE ONE acknowledges its source where an episode is pending there, and stages a response (R451). -/
theorem execFaultAck_one {mb k : Nat} {p : Parse} {s : State} (hrun : planRuns mb 0x0B02 s (faultAckPlan s) = true)
    (hfields : faultAckFields (s.mb mb) = (k, 1, p)) (coincident : List FaultIn) :
    ∃ r m, execFaultAck mb coincident s =
      done s (mciOk mb r [] (ackThen (if (s.src k).episode.isSome then [k] else []) coincident { s with mci := m })) := by
  rw [execFaultAck, mciRun_passes _ hrun]
  simp only [faultAckAct, hfields, onMb_eq]
  exact ⟨_, _, rfl⟩

theorem mem_pendingBits {i b : Nat} {v : W32} (hb : b < 32) (hv : v.getLsbD b = true) : 32 * i + b ∈ pendingBits i v :=
  List.mem_map.mpr ⟨b, List.mem_filter.mpr ⟨List.mem_range.mpr hb, hv⟩, rfl⟩

/-- A write to PENDING that names no source with a pending episode has no effect. -/
theorem execPendingWrite_of_none {i : Nat} {v : W32} {s : State} (h : ∀ b, v.getLsbD b = true → (s.src (32 * i + b)).episode = none) :
    execPendingWrite i v [] s = .next s := by
  have hks : ∀ k ∈ (if i < 16 then pendingBits i v else []), (s.src k).episode = none := by
    intro k hk
    split at hk
    · obtain ⟨b, hb, rfl⟩ := List.mem_map.mp hk
      exact h b (List.mem_filter.mp hb).2
    · cases hk
  rw [execPendingWrite, ackThen_nil_of_none hks, done_self]

/-- Settles O59: the acknowledgements of a cycle are made before its faults are judged. -/
theorem acknowledgeBeforeArrival : Obligations.AcknowledgeBeforeArrival := by
  unfold Obligations.AcknowledgeBeforeArrival
  refine ⟨?_, ?_, ?_, ?_⟩
  · intro i v b f e s hi hb hv hf hp h2 _ hq
    refine ⟨_, rfl, ?_⟩
    have hk : f.source ∈ if i < 16 then pendingBits i v else [] := by
      rw [if_pos hi, hf]
      exact mem_pendingBits hb hv
    exact episode_ackThen hk (by omega) hp h2 hq
  · intro mb p f e s hrun hlt hfields hp h2 he hq
    obtain ⟨r, m, hexec⟩ := execFaultAck_one hrun hfields [f]
    refine ⟨_, hexec, ?_⟩
    have hk : f.source ∈ if (s.src f.source).episode.isSome then [f.source] else [] := by simp [he]
    exact episode_ackThen (s := { s with mci := m }) hk hlt hp h2 hq
  · intro i v s h
    exact execPendingWrite_of_none h
  · intro mb k p s hrun hfields he
    obtain ⟨r, m, hexec⟩ := execFaultAck_one hrun hfields []
    rw [he, ackThen_nil_of_none (by simp)] at hexec
    exact ⟨_, hexec.trans (done_eq rfl rfl rfl), rfl⟩

end Sys2Proof.Machine
end

section
/-! The bins of a histogram (R495, R496): LOG and LINEAR scaling, and where a sample is counted. -/
namespace Sys2Proof.Machine

/-! ### LOG scaling (R495) -/

/-- The bin that LOG scaling with base `b` gives to the value `v`. -/
def logBin (b v : Nat) : Nat := if v < 2 ^ b then 0 else min 15 (Nat.log2 v - b + 1)

theorem logBin_of_lt {b v : Nat} (h : v < 2 ^ b) : logBin b v = 0 := if_pos h

theorem logBin_of_le {b v : Nat} (h : 2 ^ b ≤ v) : logBin b v = min 15 (Nat.log2 v - b + 1) := if_neg (Nat.not_lt.mpr h)

theorem ne_zero_of_two_pow_le {m v : Nat} (h : 2 ^ m ≤ v) : v ≠ 0 := Nat.ne_of_gt (Nat.lt_of_lt_of_le (Nat.two_pow_pos m) h)

/-- Between two neighbouring powers of two the logarithm is the lower exponent, which fixes the bin. -/
theorem logBin_of_mem_range {b i v : Nat} (h1 : 1 ≤ i) (h14 : i ≤ 14) (hlo : 2 ^ (b + i - 1) ≤ v) (hhi : v < 2 ^ (b + i)) :
    logBin b v = i := by
  have hv := ne_zero_of_two_pow_le hlo
  have hge : b + i - 1 ≤ Nat.log2 v := (Nat.le_log2 hv).mpr hlo
  have hlt : Nat.log2 v < b + i := (Nat.log2_lt hv).mpr hhi
  have hb : 2 ^ b ≤ v := Nat.le_trans (Nat.pow_le_pow_right Nat.two_pos (by omega)) hlo
  rw [logBin_of_le hb]
  omega

theorem logBin_of_ge {b v : Nat} (h : 2 ^ (b + 14) ≤ v) : logBin b v = 15 := by
  have hge : b + 14 ≤ Nat.log2 v := (Nat.le_log2 (ne_zero_of_two_pow_le h)).mpr h
  have hb : 2 ^ b ≤ v := Nat.le_trans (Nat.pow_le_pow_right Nat.two_pos (Nat.le_add_right b 14)) h
  rw [logBin_of_le hb]
  omega

/-! ### The scaling of each kind (R496) -/

/-- Every kind but TEMPERATURE has LOG scaling, with a base of its own. -/
theorem binOf_eq_logBin {k b : Nat} (h : (k, b) ∈ [(0x0101, 2), (0x0102, 4), (0x0104, 10), (0x0105, 10), (0x0106, 0)]) (v : Nat) :
    binOf k v = logBin b v := by
  simp only [List.mem_cons, Prod.mk.injEq, List.not_mem_nil, or_false] at h
  obtain ⟨rfl, rfl⟩ | ⟨rfl, rfl⟩ | ⟨rfl, rfl⟩ | ⟨rfl, rfl⟩ | ⟨rfl, rfl⟩ := h <;> rfl

/-- TEMPERATURE has LINEAR scaling with L = 24 and W = 8. -/
theorem binOf_temperature (v : Nat) : binOf 0x0103 v = if v < 24 then 0 else min 15 ((v - 24) / 8) := rfl

/-! ### The counts of an entry (R494) -/

theorem mergeSample_bins (v : Nat) (f : FT) (claimed : Nat) (decr : Bool) (e : LogEntry) :
    (mergeSample v f claimed decr e).bins = nthMod e.bins (binOf e.kind v) (fun n => min (n + 1) 4294967295) := rfl

theorem newHist_bins (slot k a b v : Nat) (f : FT) (claimed : Nat) (decr : Bool) :
    (newHist slot k a b v f claimed decr).bins = nthMod (List.replicate 16 0) (binOf k v) (· + 1) := rfl

/-- Of sixteen empty counts, the one that is incremented becomes 1 and the others stay 0. -/
theorem nth_nthMod_replicate_zero {i : Nat} (j : Nat) (hi : i < 16) :
    nth (nthMod (List.replicate 16 0) j (· + 1)) i 0 = if i = j then 1 else 0 := by
  have hzero : nth (List.replicate 16 0) i 0 = 0 := by rw [nth, List.getElem?_replicate, if_pos hi, Option.getD_some]
  split
  next h =>
    subst h
    rw [nth_nthMod_self _ _ _ _ (by simpa using hi), hzero]
  next h => rw [nth_nthMod_ne _ _ _ h, hzero]

/-- Settles O57: the kind's scaling fixes the bin, and the entry counts the sample there. -/
theorem histogramBins : Obligations.HistogramBins := by
  unfold Obligations.HistogramBins
  refine ⟨?_, ?_, mergeSample_bins, ?_⟩
  · intro k b hk v
    rw [binOf_eq_logBin hk]
    exact ⟨logBin_of_lt, fun i => logBin_of_mem_range, logBin_of_ge⟩
  · intro v
    rw [binOf_temperature]
    exact ⟨fun h => if_pos h, fun h => if_neg (Nat.not_lt.mpr h)⟩
  · intro slot k a b v f c d i hi
    rw [newHist_bins]
    exact nth_nthMod_replicate_zero _ hi

end Sys2Proof.Machine
end

section
/-! Where a happening goes in the Kiln Log (R491, R500, R501): merge, lowest free slot, replacement, drop. -/
namespace Sys2Proof.Machine

/-! ### The lowest free slot (R500) -/

/-- The entries lie in slots from `n` on, in rising order. -/
def RisesFrom (n : Nat) (es : List LogEntry) : Prop :=
  es.Pairwise (fun x y => x.slot < y.slot) ∧ ∀ x ∈ es, n ≤ x.slot

theorem RisesFrom.tail {n : Nat} {e : LogEntry} {es : List LogEntry} (h : RisesFrom n (e :: es)) : RisesFrom (e.slot + 1) es :=
  ⟨h.1.tail, (List.pairwise_cons.mp h.1).1⟩

theorem RisesFrom.le_head {n : Nat} {e : LogEntry} {es : List LogEntry} (h : RisesFrom n (e :: es)) : n ≤ e.slot :=
  h.2 e List.mem_cons_self

theorem SlotsRise.risesFrom {k : Klog} (h : SlotsRise k) : RisesFrom 257 k.entries := ⟨h.1, fun x hx => (h.2 x hx).1⟩

theorem le_lowestFree {n : Nat} {es : List LogEntry} (h : RisesFrom n es) : n ≤ lowestFree n es := by
  induction es generalizing n with
  | nil => exact Nat.le_refl n
  | cons e es ih =>
    have hn := h.le_head
    have := ih h.tail
    rw [lowestFree]
    split <;> omega

/-- `m` entries cannot hold more than `m` slots, so the search ends within `m` slots. -/
theorem lowestFree_le {n : Nat} {es : List LogEntry} (h : RisesFrom n es) : lowestFree n es ≤ n + es.length := by
  induction es generalizing n with
  | nil => exact Nat.le_refl n
  | cons e es ih =>
    have := ih h.tail
    rw [lowestFree, List.length_cons]
    split <;> omega

theorem slot_ne_lowestFree {n : Nat} {es : List LogEntry} (h : RisesFrom n es) : ∀ e ∈ es, e.slot ≠ lowestFree n es := by
  induction es generalizing n with
  | nil => exact fun _ hx => absurd hx List.not_mem_nil
  | cons e es ih =>
    rw [lowestFree, List.forall_mem_cons]
    split
    next hlt => exact ⟨by omega, fun x hx => by have := h.tail.2 x hx; omega⟩
    next =>
      have := le_lowestFree h.tail
      exact ⟨by omega, ih h.tail⟩

theorem exists_slot_of_lt_lowestFree {n : Nat} {es : List LogEntry} (h : RisesFrom n es) {m : Nat} (hn : n ≤ m)
    (hm : m < lowestFree n es) : ∃ e ∈ es, e.slot = m := by
  induction es generalizing n with
  | nil => exact absurd hm (Nat.not_lt.mpr hn)
  | cons e es ih =>
    rw [lowestFree] at hm
    split at hm
    next => omega
    next hle =>
      by_cases he : e.slot = m
      · exact ⟨e, List.mem_cons_self, he⟩
      · have hhead := h.le_head
        obtain ⟨x, hx, hs⟩ := ih h.tail (by omega) hm
        exact ⟨x, List.mem_cons_of_mem e hx, hs⟩

/-! ### An entry put in slot order -/

theorem mem_placeEntry {x y : LogEntry} {es : List LogEntry} (h : y ∈ placeEntry x es) : y = x ∨ y ∈ es := by
  induction es with
  | nil => exact .inl (List.mem_singleton.mp h)
  | cons e es ih =>
    rw [placeEntry] at h
    split at h
    · exact List.mem_cons.mp h
    · split at h
      · exact (List.mem_cons.mp h).imp_right (List.mem_cons_of_mem e)
      · obtain rfl | hy := List.mem_cons.mp h
        · exact .inr List.mem_cons_self
        · exact (ih hy).imp_right (List.mem_cons_of_mem e)

theorem placeEntry_pairwise {x : LogEntry} {es : List LogEntry} (h : es.Pairwise (fun a b => a.slot < b.slot)) :
    (placeEntry x es).Pairwise (fun a b => a.slot < b.slot) := by
  induction es with
  | nil => exact List.pairwise_singleton _ x
  | cons e es ih =>
    obtain ⟨hhead, htail⟩ := List.pairwise_cons.mp h
    rw [placeEntry]
    split
    next hlt => exact List.pairwise_cons.mpr ⟨List.forall_mem_cons.mpr ⟨hlt, fun y hy => Nat.lt_trans hlt (hhead y hy)⟩, h⟩
    next hge =>
      split
      next heq => exact List.pairwise_cons.mpr ⟨fun y hy => heq ▸ hhead y hy, htail⟩
      next hne =>
        refine List.pairwise_cons.mpr ⟨fun y hy => ?_, ih htail⟩
        obtain rfl | hy := mem_placeEntry hy
        · omega
        · exact hhead y hy

/-- An entry with a slot of its own is added, and nothing is lost. -/
theorem placeEntry_perm {x : LogEntry} {es : List LogEntry} (h : ∀ e ∈ es, e.slot ≠ x.slot) : (placeEntry x es).Perm (x :: es) := by
  induction es with
  | nil => exact .refl _
  | cons e es ih =>
    obtain ⟨hne, htail⟩ := List.forall_mem_cons.mp h
    rw [placeEntry]
    split
    · exact .refl _
    · rw [if_neg (Ne.symm hne)]
      exact ((ih htail).cons e).trans (.swap x e es)

theorem mapIf_cons {α : Type} (a : α) (l : List α) (p : α → Bool) (g : α → α) :
    mapIf (a :: l) p g = (if p a then g a else a) :: mapIf l p g := rfl

theorem mapIf_eq_self {α : Type} {l : List α} {p : α → Bool} (h : ∀ a ∈ l, ¬ p a = true) (g : α → α) : mapIf l p g = l :=
  (List.map_congr_left fun a ha => if_neg (h a ha)).trans (List.map_id l)

/-- An entry whose slot is taken goes in the place of the one that holds it. -/
theorem placeEntry_eq_mapIf {x : LogEntry} {es : List LogEntry} (h : es.Pairwise (fun a b => a.slot < b.slot))
    (hx : ∃ e ∈ es, e.slot = x.slot) : placeEntry x es = mapIf es (fun y => y.slot == x.slot) (fun _ => x) := by
  induction es with
  | nil => simp at hx
  | cons e es ih =>
    obtain ⟨hhead, htail⟩ := List.pairwise_cons.mp h
    rw [placeEntry, mapIf_cons]
    by_cases he : e.slot = x.slot
    · have hrest : ∀ y ∈ es, ¬ (y.slot == x.slot) = true := fun y hy => by
        have := hhead y hy
        rw [beq_iff_eq]
        omega
      rw [if_neg (by omega), if_pos he.symm, if_pos (beq_iff_eq.mpr he), mapIf_eq_self hrest]
    · obtain ⟨y, hy, hs⟩ : ∃ y ∈ es, y.slot = x.slot := by simpa [he] using hx
      have := hhead y hy
      rw [if_neg (by omega), if_neg (Ne.symm he), if_neg (by rwa [beq_iff_eq]), ih htail ⟨y, hy, hs⟩]

/-! ### The entry a full log gives up (R500) -/

theorem ftBefore_asymm {a b : FT} (h : ftBefore a b = true) : ftBefore b a = false := by
  simp only [ftBefore, Bool.or_eq_true, Bool.and_eq_true, decide_eq_true_eq, beq_iff_eq, Bool.or_eq_false_iff,
    Bool.and_eq_false_imp, decide_eq_false_iff_not] at h ⊢
  omega

/-- Whether R500 takes `e` before `b` by severity and LAST_FT alone. -/
def outranks (e b : LogEntry) : Bool := e.sev < b.sev || (e.sev == b.sev && ftBefore e.lastFt b.lastFt)

/-- The search for the victim goes past the entry `e`, with the best one so far. -/
def preferVictim (sev : Nat) (best : Option LogEntry) (e : LogEntry) : Option LogEntry :=
  if sev < e.sev then best else match best with
    | none => some e
    | some b => if outranks e b then some e else best

theorem victim_eq_foldl (sev : Nat) (es : List LogEntry) : victim sev es = es.foldl (preferVictim sev) none := rfl

theorem preferVictim_of_lt {sev : Nat} {e : LogEntry} (h : sev < e.sev) (best : Option LogEntry) : preferVictim sev best e = best :=
  if_pos h

theorem preferVictim_some {sev : Nat} {e : LogEntry} (h : e.sev ≤ sev) (b : LogEntry) :
    preferVictim sev (some b) e = if outranks e b then some e else some b := if_neg (Nat.not_lt.mpr h)

/-- An entry that outranks the best one so far is the best one from there on. -/
theorem preferVictim_takes {sev : Nat} {e : LogEntry} {best : Option LogEntry} (h : e.sev ≤ sev)
    (hb : ∀ b, best = some b → outranks e b = true) : preferVictim sev best e = some e := by
  cases best with
  | none => exact if_neg (Nat.not_lt.mpr h)
  | some b => rw [preferVictim_some h, if_pos (hb b rfl)]

theorem preferVictim_eq_some {sev : Nat} {e x : LogEntry} {best : Option LogEntry} (h : preferVictim sev best e = some x) :
    best = some x ∨ (x = e ∧ e.sev ≤ sev) := by
  by_cases he : sev < e.sev
  · exact .inl ((preferVictim_of_lt he best).symm.trans h)
  · have he := Nat.not_lt.mp he
    cases best with
    | none => exact .inr ⟨(Option.some.inj ((preferVictim_takes he (by simp)).symm.trans h)).symm, he⟩
    | some b =>
      rw [preferVictim_some he] at h
      split at h
      · exact .inr ⟨(Option.some.inj h).symm, he⟩
      · exact .inl h

theorem foldl_preferVictim_eq_some {sev : Nat} {x : LogEntry} {es : List LogEntry} {best : Option LogEntry}
    (h : es.foldl (preferVictim sev) best = some x) : best = some x ∨ (x ∈ es ∧ x.sev ≤ sev) := by
  induction es generalizing best with
  | nil => exact .inl h
  | cons e es ih =>
    obtain hb | ⟨hx, hs⟩ := ih h
    · exact (preferVictim_eq_some hb).imp_right fun ⟨hx, hs⟩ => by subst hx; exact ⟨List.mem_cons_self, hs⟩
    · exact .inr ⟨List.mem_cons_of_mem e hx, hs⟩

theorem mem_of_victim {sev : Nat} {x : LogEntry} {es : List LogEntry} (h : victim sev es = some x) : x ∈ es ∧ x.sev ≤ sev :=
  (foldl_preferVictim_eq_some h).resolve_left nofun

theorem victim_eq_none {sev : Nat} {es : List LogEntry} (h : ∀ e ∈ es, sev < e.sev) : victim sev es = none := by
  cases hv : victim sev es with
  | none => rfl
  | some x =>
    obtain ⟨hx, hs⟩ := mem_of_victim hv
    exact absurd (h x hx) (Nat.not_lt.mpr hs)

/-- The best entry stays the best one while no later entry outranks it. -/
theorem foldl_preferVictim_stays {sev : Nat} {e : LogEntry} {es : List LogEntry}
    (h : ∀ x ∈ es, x.sev ≤ sev → outranks x e = false) : es.foldl (preferVictim sev) (some e) = some e := by
  induction es with
  | nil => rfl
  | cons x es ih =>
    obtain ⟨hx, htail⟩ := List.forall_mem_cons.mp h
    have hstep : preferVictim sev (some e) x = some e := by
      by_cases hs : sev < x.sev
      · exact preferVictim_of_lt hs _
      · have hs := Nat.not_lt.mp hs
        rw [preferVictim_some hs, hx hs]
        rfl
    rw [List.foldl_cons, hstep, ih htail]

theorem TakenFirst.not_outranked {sev : Nat} {k : Klog} {e x : LogEntry} (h : TakenFirst sev k e) (hx : x ∈ k.entries) (hs : x.sev ≤ sev) :
    outranks x e = false := by
  obtain ⟨_, _, hfirst⟩ := h
  obtain hlt | ⟨heq, hft⟩ := hfirst x hx hs
  · simp [outranks, Nat.lt_asymm hlt, Nat.ne_of_gt hlt]
  · have hft : ftBefore x.lastFt e.lastFt = false := hft.elim ftBefore_asymm And.left
    simp [outranks, heq, hft]

theorem TakenFirst.outranks_of_slot_lt {sev : Nat} {k : Klog} {e x : LogEntry} (h : TakenFirst sev k e) (hx : x ∈ k.entries)
    (hs : x.sev ≤ sev) (hslot : x.slot < e.slot) : outranks e x = true := by
  obtain ⟨_, _, hfirst⟩ := h
  obtain hlt | ⟨heq, hft | ⟨_, hle⟩⟩ := hfirst x hx hs
  · simp [outranks, hlt]
  · simp [outranks, heq, hft]
  · omega

/-- The search finds the entry of R500: it outranks every entry before it, and none after it outranks it. -/
theorem victim_eq_some {sev : Nat} {k : Klog} {e : LogEntry} (hk : SlotsRise k) (h : TakenFirst sev k e) :
    victim sev k.entries = some e := by
  obtain ⟨as, bs, hsplit⟩ := List.append_of_mem h.1
  have hbefore : ∀ x ∈ as, x.slot < e.slot := by
    have hrise := hk.1
    rw [hsplit] at hrise
    obtain ⟨_, _, hcross⟩ := List.pairwise_append.mp hrise
    exact fun x hx => hcross x hx e List.mem_cons_self
  have htakes : preferVictim sev (as.foldl (preferVictim sev) none) e = some e := by
    refine preferVictim_takes h.2.1 fun b hb => ?_
    obtain ⟨hmem, hs⟩ := (foldl_preferVictim_eq_some hb).resolve_left nofun
    exact h.outranks_of_slot_lt (by simp [hsplit, hmem]) hs (hbefore b hmem)
  rw [victim_eq_foldl, hsplit, List.foldl_append, List.foldl_cons, htakes]
  exact foldl_preferVictim_stays fun x hx => h.not_outranked (by simp [hsplit, hx])

/-! ### What the recorder does with a happening, case by case (R491, R500, R501) -/

section
variable {h : Happening} {f : FT} {c : Nat} {k : Klog}

theorem takeHappening_merges (hk : k.entries.any (fun e => e.hasKey h.kind h.keyA h.keyB) = true) : takeHappening h f c k =
    { k with entries := mapIf k.entries (fun e => e.hasKey h.kind h.keyA h.keyB) (mergeEntry h f c k.hintDecreased), updates := bump k.updates } :=
  if_pos hk

theorem takeHappening_places (hk : ¬ k.entries.any (fun e => e.hasKey h.kind h.keyA h.keyB) = true) (hl : k.entries.length < logSlots) :
    takeHappening h f c k = { k with
      entries := placeEntry (newEntry (lowestFree 257 k.entries) h f c k.hintDecreased) k.entries, updates := bump k.updates } := by
  simp only [takeHappening, if_neg hk, if_pos hl]

theorem takeHappening_replaces (hk : ¬ k.entries.any (fun e => e.hasKey h.kind h.keyA h.keyB) = true) (hl : logSlots ≤ k.entries.length)
    {e : LogEntry} (hv : victim h.sev k.entries = some e) : takeHappening h f c k =
    { k with entries := placeEntry (newEntry e.slot h f c k.hintDecreased) k.entries, updates := bump k.updates } := by
  simp only [takeHappening, if_neg hk, if_neg (Nat.not_lt.mpr hl), hv]

theorem takeHappening_drops (hk : ¬ k.entries.any (fun e => e.hasKey h.kind h.keyA h.keyB) = true) (hl : logSlots ≤ k.entries.length)
    (hv : victim h.sev k.entries = none) : takeHappening h f c k = dropHappening h.sev k := by
  simp only [takeHappening, if_neg hk, if_neg (Nat.not_lt.mpr hl), hv]

end

/-! ### Slots keep rising -/

/-- A change of the entries that `p` selects keeps the slots, where it keeps each entry's slot. -/
theorem map_slot_mapIf {p : LogEntry → Bool} {g : LogEntry → LogEntry} {es : List LogEntry} (h : ∀ e, p e = true → (g e).slot = e.slot) :
    (mapIf es p g).map (·.slot) = es.map (·.slot) := by
  rw [mapIf, List.map_map]
  refine List.map_congr_left fun e _ => ?_
  by_cases hp : p e = true
  · simp [hp, h e hp]
  · simp [hp]

theorem map_slot_placeEntry {x : LogEntry} {es : List LogEntry} (h : es.Pairwise (fun a b => a.slot < b.slot))
    (hx : ∃ e ∈ es, e.slot = x.slot) : (placeEntry x es).map (·.slot) = es.map (·.slot) := by
  rw [placeEntry_eq_mapIf h hx]
  exact map_slot_mapIf fun e he => (beq_iff_eq.mp he).symm

/-- Whether slots rise depends on the slots alone. -/
theorem slotsRise_iff_map_slot (k : Klog) : SlotsRise k ↔
    (k.entries.map (·.slot)).Pairwise (· < ·) ∧ ∀ n ∈ k.entries.map (·.slot), 257 ≤ n ∧ n ≤ 65535 := by
  simp only [SlotsRise, List.pairwise_map, List.forall_mem_map]

theorem SlotsRise.of_map_slot_eq {k k' : Klog} (h : SlotsRise k) (he : k'.entries.map (·.slot) = k.entries.map (·.slot)) : SlotsRise k' := by
  rwa [slotsRise_iff_map_slot, he, ← slotsRise_iff_map_slot]

theorem lowestFree_le_of_not_full {k : Klog} (h : SlotsRise k) (hl : k.entries.length < logSlots) : lowestFree 257 k.entries ≤ 65535 := by
  have hle := lowestFree_le h.risesFrom
  have hn : logSlots = 65279 := rfl
  omega

theorem slotsRise_takeHappening (h : Happening) (f : FT) (c : Nat) {k : Klog} (hr : SlotsRise k) : SlotsRise (takeHappening h f c k) := by
  by_cases hk : k.entries.any (fun e => e.hasKey h.kind h.keyA h.keyB) = true
  · rw [takeHappening_merges hk]
    exact hr.of_map_slot_eq (map_slot_mapIf fun _ _ => rfl)
  · by_cases hl : k.entries.length < logSlots
    · rw [takeHappening_places hk hl]
      refine ⟨placeEntry_pairwise hr.1, fun x hx => ?_⟩
      obtain rfl | hx := mem_placeEntry hx
      · exact ⟨le_lowestFree hr.risesFrom, lowestFree_le_of_not_full hr hl⟩
      · exact hr.2 x hx
    · have hl := Nat.not_lt.mp hl
      cases hv : victim h.sev k.entries with
      | none =>
        rw [takeHappening_drops hk hl hv]
        exact hr
      | some e =>
        rw [takeHappening_replaces hk hl hv]
        exact hr.of_map_slot_eq (map_slot_placeEntry hr.1 ⟨e, (mem_of_victim hv).1, rfl⟩)

/-! ### KILN_LOG_HAPPENING -/

/-- A happening of another kind than FAULT is recorded at the severity of R492. -/
theorem happening_of_kind {h : Happening} (h2 : 2 ≤ h.kind) (h7 : h.kind ≤ 7) (s : State) :
    happening h s = record { h with sev := happeningSev h } s := by
  rw [happening, if_neg (by omega), if_pos ⟨h2, h7⟩]

theorem record_of_not_clearing {s : State} (hc : s.klog.clearStep ≠ 2) (h : Happening) :
    record h s = { s with klog := takeHappening h s.now (s.claimedAt s.now) s.klog } := by
  rw [record_eq]
  simp only [record, State.onKlog_klog, if_neg hc]

theorem exec_kilnLogHappening_of_not_clearing {h : Happening} {s : State} (h2 : 2 ≤ h.kind) (h7 : h.kind ≤ 7) (hc : s.klog.clearStep ≠ 2) :
    exec (.kilnLogHappening h) s =
      .next { s with klog := takeHappening { h with sev := happeningSev h } s.now (s.claimedAt s.now) s.klog } := by
  have hexec : exec (.kilnLogHappening h) s = done s (happening h s) := rfl
  rw [hexec, happening_of_kind h2 h7, record_of_not_clearing hc]
  exact done_eq rfl rfl rfl

/-- Settles O58: the recorder's case for a happening follows from the keys in use, the free slots and the severities. -/
theorem logReplacement : Obligations.LogReplacement := by
  unfold Obligations.LogReplacement
  refine ⟨fun h s => exec_kilnLogHappening_of_not_clearing, fun h f c k => slotsRise_takeHappening h f c, ?_, ?_, ?_, ?_⟩
  · intro h f c k hk
    rw [takeHappening_merges hk]
    exact ⟨rfl, map_slot_mapIf fun _ _ => rfl, fun e he hkey => List.mem_map.mpr ⟨e, he, if_pos hkey⟩⟩
  · intro h f c k hr hk hl
    rw [takeHappening_places hk hl]
    have hfree := slot_ne_lowestFree hr.risesFrom
    exact ⟨lowestFree 257 k.entries, le_lowestFree hr.risesFrom, lowestFree_le_of_not_full hr hl, hfree,
      fun m => exists_slot_of_lt_lowestFree hr.risesFrom, rfl, placeEntry_perm hfree⟩
  · intro h f c k e hr hk hl ht
    have htaken : ∃ x ∈ k.entries, x.slot = (newEntry e.slot h f c k.hintDecreased).slot := ⟨e, ht.1, rfl⟩
    rw [takeHappening_replaces hk hl (victim_eq_some hr ht), placeEntry_eq_mapIf hr.1 htaken]
    rfl
  · intro h f c k hk hl hs
    exact takeHappening_drops hk hl (victim_eq_none hs)

end Sys2Proof.Machine
end

section
/-! What a command can do to the queue, to time and fuses, and to FATAL (R8, R42, R43, R441, R456, R458). -/
namespace Sys2Proof.Machine

/-! ### The two finishers -/

theorem pending_of_done {s u t : State} (h : done s u = .next t) : t.pending = s.pending := by
  cases h; rfl
theorem hw_of_done {s u t : State} (h : done s u = .next t) : t.hw = s.hw := by
  cases h; rfl
theorem hw_of_doneHw {x : Hw} {s u t : State} (h : doneHw x s u = .next t) : t.hw = x := by
  cases h; rfl
theorem fatal_of_doneHw {x : Hw} {s u t : State} (h : doneHw x s u = .next t) (hf : s.fc.fatal = true) : t.fc.fatal = true := by
  cases h; simp [hf]

/-- A meaning that leaves time and fuses alone is one that gives them the value they have. -/
theorem done_eq_doneHw (s t : State) : done s t = doneHw s.hw s t := rfl

/-! ### Time at a start of the data path (R525) -/

/-- `h` differs from `x` in time alone, with a turn number in range. -/
def RetimesTo (x h : Hw) : Prop := ∃ pc tn cy, (tn = x.turn ∨ tn < 2 ^ 48) ∧ h = { x with powerCycle := pc, turn := tn, cycle := cy }

theorem nextTurn_retimes (x : Hw) : RetimesTo x x.nextTurn := by
  unfold Hw.nextTurn
  split
  next h => exact ⟨_, _, _, .inr h, rfl⟩
  next => exact ⟨_, _, _, .inr (by decide), rfl⟩
theorem startHw_retimes (kind : Nat) (s : State) : RetimesTo s.hw (startHw kind s) := by
  unfold startHw
  split
  · exact ⟨_, _, _, .inr (by decide), rfl⟩
  · split
    next h => exact ⟨_, _, _, .inr h, rfl⟩
    next => exact ⟨_, _, _, .inr (by decide), rfl⟩
theorem windowHw_retimes (s : State) : RetimesTo s.hw (windowHw s) := ⟨_, _, _, .inl rfl, rfl⟩
theorem RetimesTo.trans {x y z : Hw} (a : RetimesTo x y) (b : RetimesTo y z) : RetimesTo x z := by
  obtain ⟨_, _, _, ha, rfl⟩ := a
  obtain ⟨_, _, _, hb, rfl⟩ := b
  exact ⟨_, _, _, hb.elim (fun h => h ▸ ha) .inr, rfl⟩

/-- A stateless block comes from a trust slot, so that the Coil part alone changes (R276). -/
theorem reserveStateless_eq (one : Bool) (s : State) : reserveStateless one s = { s with coil := (reserveStateless one s).coil } := by
  unfold reserveStateless reserveBlock
  dsimp only
  by_cases h : ¬ (s.coil.slot one).valid = true ∨ (s.coil.slot one).exhausted = true ∨ s.dev.debugActive = true
  · simp only [if_pos h]
  · simp only [if_neg h]
    rfl
theorem coldTrust_eq (s : State) : coldTrust s = { s with coil := (coldTrust s).coil } := by
  unfold coldTrust
  rw [reserveStateless_eq true, reserveStateless_eq false]
theorem coldTrust_coldCommon_hw (s : State) : (coldTrust (coldCommon s)).hw = s.hw := by rw [coldTrust_eq]; rfl
theorem turnBoundary_hw (l : List Overrun) (s : State) : (turnBoundary l s).hw = s.hw.nextTurn := rfl
theorem restartHw_retimes (s : State) : RetimesTo s.hw (restartHw s) := by
  rw [← coldTrust_coldCommon_hw s]
  exact startHw_retimes _ _

/-! ### The commands that own time or a fuse -/

/-- What a command can make of time and fuses: most leave them as they are, some move time, and a few step a fuse. -/
inductive HwStep (s : State) : Instr → Hw → Prop where
  | same (c : Instr) : HwStep s c s.hw
  | time {c : Instr} {h : Hw} : RetimesTo s.hw h → HwStep s c h
  | powerOn (st : Straps) (torn : List Nat) : HwStep s (.auxPowerOn st torn) (auxOnHw st s.hw)
  | minute (l : List (LocCode × Nat)) : HwStep s (.opMinuteTick l) (minuteHw s.hw)
  | bind (mb : Nat) : s.hw.twinBinds < 8 → HwStep s (.twinPair mb) { s.hw with twinBinds := s.hw.twinBinds + 1 }
  | claim (mb : Nat) : s.hw.lifecycle = .provisioned → HwStep s (.ownershipClaim mb) (claimHw s.hw)
  | transfer (mb : Nat) : s.hw.lifecycle = .owned → s.hw.epoch < 15 → HwStep s (.ownershipTransfer mb) (transferHw s.hw)
  | floor (mb : Nat) : HwStep s (.policySet mb) (policyHwOf s (s.mb mb))
  | unlock (mb : Nat) : s.hw.debugUnlocks < 4 → HwStep s (.debugUnlock mb) (debugHw s.hw)
  | decommission (mb : Nat) : HwStep s (.decommission mb) (decommissionHw s.hw)

/-- The rows whose meaning does not simply end in `done`. -/
def ownsHw : Instr → Bool
  | .auxPowerOn .. | .auxPowerRemoved | .mainPwrokAsserted .. | .turnBoundary .. | .planningWindow | .opMinuteTick .. | .twinPair ..
  | .ownershipClaim .. | .ownershipTransfer .. | .policySet .. | .debugUnlock .. | .decommission .. => true
  | _ => false

/-- Every other row ends in `done`, so that queue, time, fuses and FATAL are not its to change. -/
theorem exec_eq_done {c : Instr} (h : ownsHw c = false) (s : State) : ∃ u, exec c s = done s u := by
  cases c
  case auxPowerOn | auxPowerRemoved | mainPwrokAsserted | turnBoundary | planningWindow | opMinuteTick | twinPair | ownershipClaim
    | ownershipTransfer | policySet | debugUnlock | decommission => cases h
  all_goals exact ⟨_, rfl⟩

theorem mciFail_twin (i st a b : Nat) (s : State) : (mciFail i st a b s).twin = s.twin := by rw [mciFail_frame]
theorem mciOk_twin (i : Nat) (a b : Bytes) (s : State) : (mciOk i a b s).twin = s.twin := rfl

/-- TWIN_PAIR changes the bound partner only where its checks pass and the partner is a new one (R231). -/
theorem pairRun_bound_ne {mb : Nat} {s : State} (h : (pairRun mb s).twin.bound ≠ s.twin.bound) : s.hw.twinBinds < 8 := by
  cases hr : planRuns mb 0x0501 s (pairPlan s) with
  | false => exact absurd (by rw [pairRun, mciRun_fails _ hr]) h
  | true =>
    rw [pairRun, mciRun_passes _ hr] at h
    have hnew : newBind s (pairFields s (s.mb mb)).1 = true := by
      simp only [newBind, bne_iff_ne, ne_eq]
      intro he
      apply h
      simp only [pairAct, mciOk_twin]
      refine Eq.trans ?_ he.symm
      split <;> rfl
    have hrefuse : pairRefuse s (pairFields s (s.mb mb)).1 = none := planRuns_refuse hr
    refine Nat.lt_of_not_le fun h8 => ?_
    rw [pairRefuse, if_pos ⟨hnew, h8⟩] at hrefuse
    cases hrefuse

theorem execTwinPair_hwStep {mb : Nat} {s t : State} (h : execTwinPair mb s = .next t) : HwStep s (.twinPair mb) t.hw := by
  rw [hw_of_doneHw h]
  split
  · exact .same _
  next hb => exact .bind mb (pairRun_bound_ne hb)

/-- A command that steps a fuse where its checks pass: elsewhere it leaves time and fuses alone. -/
theorem hwStep_of_planRuns {c : Instr} {mb op : Nat} {s u t : State} {plan : Mailbox → Plan} {h : Hw}
    (he : exec c s = doneHw (if planRuns mb op s plan then h else s.hw) s u) (ht : exec c s = .next t)
    (hs : (plan (s.mb mb)).refuse = none → HwStep s c h) : HwStep s c t.hw := by
  rw [hw_of_doneHw (he.symm.trans ht)]
  split
  next hp => exact hs (planRuns_refuse hp)
  next => exact .same c

/-- A refusal that is not given names a condition that does not hold. -/
theorem ite_some_eq_none {α : Type} {c : Prop} [Decidable c] {a : α} {b : Option α} (h : (if c then some a else b) = none) : ¬ c ∧ b = none := by
  split at h
  · cases h
  next hc => exact ⟨hc, h⟩

theorem claimPlan_refuse {s : State} {m : Mailbox} (h : (claimPlan s m).refuse = none) : s.hw.lifecycle = .provisioned := by
  refine Classical.not_not.mp fun hl => ?_
  simp [claimPlan, hl] at h
theorem transferPlan_refuse {s : State} {m : Mailbox} (h : (transferPlan s m).refuse = none) : s.hw.lifecycle = .owned ∧ s.hw.epoch < 15 := by
  obtain ⟨hl, h⟩ := ite_some_eq_none h
  obtain ⟨-, h⟩ := ite_some_eq_none h
  exact ⟨Classical.not_not.mp hl, Nat.not_le.mp (ite_some_eq_none h).1⟩
theorem debugPlan_refuse {s : State} {m : Mailbox} (h : (debugPlan s m).refuse = none) : s.hw.debugUnlocks < 4 :=
  Nat.not_le.mp (ite_some_eq_none (ite_some_eq_none h).2).1

theorem execTurnBoundary_retimes {l : List Overrun} {s t : State} (h : execTurnBoundary l s = .next t) : RetimesTo s.hw t.hw := by
  unfold execTurnBoundary at h
  split at h
  · dsimp only at h
    split at h
    · rw [hw_of_doneHw h]
      exact (nextTurn_retimes s.hw).trans (turnBoundary_hw l s ▸ restartHw_retimes _)
    · rw [hw_of_doneHw h]
      exact nextTurn_retimes _
  · rw [hw_of_done h]
    exact ⟨_, _, _, .inl rfl, rfl⟩

theorem exec_hwStep {c : Instr} {s t : State} (h : exec c s = .next t) : HwStep s c t.hw := by
  cases hc : ownsHw c with
  | false =>
    obtain ⟨u, hu⟩ := exec_eq_done hc s
    rw [hw_of_done (hu.symm.trans h)]
    exact .same c
  | true =>
    cases c
    case auxPowerOn st torn =>
      change (if s.pins.main then done s s else doneHw (auxOnHw st s.hw) s (auxOn st torn s)) = _ at h
      split at h
      · exact hw_of_done h ▸ .same _
      · exact hw_of_doneHw h ▸ .powerOn st torn
    case auxPowerRemoved =>
      change (if _ then _ else if _ then _ else _) = _ at h
      split at h
      · exact hw_of_done h ▸ .same _
      · split at h <;> cases h
        exact .same _
    case mainPwrokAsserted lanes kilns =>
      change (if _ then _ else if _ then _ else _) = _ at h
      split at h
      · cases h
      · split at h
        · exact hw_of_done h ▸ .same _
        · exact hw_of_doneHw h ▸ .time (startHw_retimes _ _)
    case turnBoundary l => exact .time (execTurnBoundary_retimes h)
    case planningWindow =>
      change (if _ then _ else _) = _ at h
      split at h
      · exact hw_of_doneHw h ▸ .time (windowHw_retimes s)
      · exact hw_of_done h ▸ .same _
    case opMinuteTick l => exact hw_of_doneHw h ▸ .minute l
    case twinPair mb => exact execTwinPair_hwStep h
    case ownershipClaim mb => exact hwStep_of_planRuns rfl h fun hp => .claim mb (claimPlan_refuse hp)
    case ownershipTransfer mb => exact hwStep_of_planRuns rfl h fun hp => .transfer mb (transferPlan_refuse hp).1 (transferPlan_refuse hp).2
    case policySet mb => exact hwStep_of_planRuns rfl h fun _ => .floor mb
    case debugUnlock mb => exact hwStep_of_planRuns rfl h fun hp => .unlock mb (debugPlan_refuse hp)
    case decommission mb => exact hwStep_of_planRuns rfl h fun _ => .decommission mb
    all_goals cases hc

/-! ### The queue and FATAL -/

/-- A command that completes ends in one of the two finishers, but for the removal of aux power. -/
theorem exec_finishes {c : Instr} {s t : State} (h : exec c s = .next t) : (∃ x u, exec c s = doneHw x s u) ∨ c = .auxPowerRemoved := by
  cases hc : ownsHw c with
  | false => exact .inl ((exec_eq_done hc s).elim fun u hu => ⟨_, u, hu⟩)
  | true =>
    cases c
    case auxPowerRemoved => exact .inr rfl
    case auxPowerOn st torn =>
      refine .inl ?_
      change ∃ x u, execAuxPowerOn st torn s = doneHw x s u
      unfold execAuxPowerOn
      split <;> exact ⟨_, _, rfl⟩
    case mainPwrokAsserted lanes kilns =>
      change execMainPwrokAsserted lanes kilns s = _ at h
      refine .inl ?_
      change ∃ x u, execMainPwrokAsserted lanes kilns s = doneHw x s u
      unfold execMainPwrokAsserted at h ⊢
      split at h
      next => cases h
      next ha =>
        rw [if_neg ha]
        split <;> exact ⟨_, _, rfl⟩
    case turnBoundary l =>
      refine .inl ?_
      change ∃ x u, execTurnBoundary l s = doneHw x s u
      unfold execTurnBoundary
      split
      · dsimp only
        split <;> exact ⟨_, _, rfl⟩
      · exact ⟨_, _, rfl⟩
    case planningWindow =>
      refine .inl ?_
      change ∃ x u, execPlanningWindow s = doneHw x s u
      unfold execPlanningWindow
      split <;> exact ⟨_, _, rfl⟩
    case opMinuteTick | twinPair | ownershipClaim | ownershipTransfer | policySet | debugUnlock | decommission => exact .inl ⟨_, _, rfl⟩
    all_goals cases hc

theorem exec_pending {c : Instr} {s t : State} (h : exec c s = .next t) : t.pending = s.pending := by
  rcases exec_finishes h with ⟨x, u, hu⟩ | rfl
  · cases hu.symm.trans h
    rfl
  · change (if _ then _ else if _ then _ else _) = _ at h
    split at h
    · exact pending_of_done h
    · split at h <;> cases h
      rfl

/-- Settles O56: every command but the removal of aux power ends in a finisher, which never leaves FATAL. -/
theorem fatalLatched : Obligations.FatalLatched := by
  unfold Obligations.FatalLatched
  intro c s t hc h hf
  rcases exec_finishes h with ⟨x, u, hu⟩ | rfl
  · exact fatal_of_doneHw (hu.symm.trans h) hf
  · exact absurd rfl hc

/-! ### Fuses, the lifecycle and the turn -/

/-- Fuse counters and lifecycle of `h` are not behind those of `x`. -/
structure FusesLe (x h : Hw) : Prop where
  epoch : x.epoch ≤ h.epoch
  svFloor : x.svFloor ≤ h.svFloor
  debugUnlocks : x.debugUnlocks ≤ h.debugUnlocks
  twinBinds : x.twinBinds ≤ h.twinBinds
  lifecycle : x.lifecycle.code ≤ h.lifecycle.code

theorem FusesLe.refl (x : Hw) : FusesLe x x := ⟨Nat.le_refl _, Nat.le_refl _, Nat.le_refl _, Nat.le_refl _, Nat.le_refl _⟩
theorem Life.code_le_decommissioned (l : Life) : l.code ≤ Life.decommissioned.code := by cases l <;> decide

theorem HwStep.fusesLe {s : State} {c : Instr} {h : Hw} (hs : HwStep s c h) : FusesLe s.hw h := by
  have hle := FusesLe.refl s.hw
  cases hs with
  | same => exact hle
  | time ht =>
    obtain ⟨_, _, _, -, rfl⟩ := ht
    exact { hle with }
  | powerOn => exact { hle with }
  | minute => exact { hle with }
  | bind => exact { hle with twinBinds := Nat.le_succ _ }
  | claim _ hl => exact { hle with epoch := Nat.le_succ _, lifecycle := by rw [hl]; exact (by decide : Life.provisioned.code ≤ Life.owned.code) }
  | transfer => exact { hle with epoch := Nat.le_succ _ }
  | floor => exact { hle with svFloor := Nat.le_max_left _ _ }
  | unlock => exact { hle with debugUnlocks := Nat.le_succ _ }
  | decommission => exact { hle with lifecycle := Life.code_le_decommissioned _ }

/-- A step is the front command, on the rest of the queue, or a cycle that passes. -/
theorem step_cases {s t : State} (h : step s = .next t) :
    t = idleTick s ∨ ∃ c rest, exec c { s with pending := rest } = .next t := by
  unfold step at h
  split at h
  · cases h; exact .inl rfl
  · exact .inr ⟨_, _, h⟩
theorem idleTick_retimes (s : State) : RetimesTo s.hw (idleTick s).hw := by
  unfold idleTick
  split <;> exact ⟨_, _, _, .inl rfl, rfl⟩
/-- What a step makes of time and fuses, some command makes of them in a state with the same hardware record. -/
theorem step_hwStep {s t : State} (h : step s = .next t) : ∃ c u, u.hw = s.hw ∧ HwStep u c t.hw := by
  rcases step_cases h with rfl | ⟨c, rest, hc⟩
  · exact ⟨.planningWindow, s, rfl, .time (idleTick_retimes s)⟩
  · exact ⟨c, { s with pending := rest }, rfl, exec_hwStep hc⟩

/-- Settles O54: only five kinds of step touch a fuse or the lifecycle, and each moves it up. -/
theorem fusesOnlyRise : Obligations.FusesOnlyRise := by
  unfold Obligations.FusesOnlyRise
  intro s t h
  obtain ⟨c, u, hu, hs⟩ := step_hwStep h
  obtain ⟨he, hv, hd, hb, hl⟩ := hs.fusesLe
  rw [hu] at he hv hd hb hl
  exact ⟨he, hv, hd, hb, hl⟩

theorem HwStep.fuseLimits {s t : State} {c : Instr} (hs : HwStep s c t.hw) (hl : FuseLimits s) : FuseLimits t := by
  obtain ⟨he, hv, hd, hb, ht, h0⟩ := hl
  unfold FuseLimits
  generalize t.hw = h at hs
  cases hs with
  | same => exact ⟨he, hv, hd, hb, ht, h0⟩
  | time hr =>
    obtain ⟨_, _, _, htn, rfl⟩ := hr
    exact ⟨he, hv, hd, hb, htn.elim (fun e => e ▸ ht) id, h0⟩
  | powerOn => exact ⟨he, hv, hd, hb, by simp [auxOnHw], h0⟩
  | minute => exact ⟨he, hv, hd, hb, ht, h0⟩
  | bind _ h8 => exact ⟨he, hv, hd, h8, ht, h0⟩
  | claim _ hp =>
    have e0 : s.hw.epoch = 0 := h0 (by rw [hp]; decide)
    exact ⟨by simp [claimHw, e0], hv, hd, hb, ht, fun hc => absurd hc (by decide : ¬ Life.owned.code ≤ 1)⟩
  | transfer _ ho h15 => exact ⟨h15, hv, hd, hb, ht, fun hc => absurd (ho ▸ hc) (by decide)⟩
  | floor => exact ⟨he, Nat.max_le.mpr ⟨hv, Nat.min_le_left _ _⟩, hd, hb, ht, h0⟩
  | unlock _ h4 => exact ⟨he, hv, h4, hb, ht, h0⟩
  | decommission => exact ⟨he, hv, hd, hb, ht, fun hc => absurd hc (by decide : ¬ Life.decommissioned.code ≤ 1)⟩

/-- Settles O55: a fuse steps only where its counter has room, and time only to a turn in range. -/
theorem fuseLimitsKept : Obligations.FuseLimitsKept := by
  unfold Obligations.FuseLimitsKept
  intro s t hl h
  obtain ⟨c, u, hu, hs⟩ := step_hwStep h
  exact hs.fuseLimits (by unfold FuseLimits at hl ⊢; rwa [hu])

/-! ### Units, straps and op_minutes -/

theorem HwStep.present {s : State} {c : Instr} {h : Hw} (hs : HwStep s c h) : h.present = s.hw.present := by
  cases hs with
  | time ht => obtain ⟨_, _, _, -, rfl⟩ := ht; rfl
  | _ => rfl
theorem HwStep.straps {s : State} {c : Instr} {h : Hw} (hs : HwStep s c h) (hc : ∀ st torn, c ≠ .auxPowerOn st torn) : h.straps = s.hw.straps := by
  cases hs with
  | time ht => obtain ⟨_, _, _, -, rfl⟩ := ht; rfl
  | powerOn st torn => exact absurd rfl (hc st torn)
  | _ => rfl
theorem HwStep.opMinutes {s : State} {c : Instr} {h : Hw} (hs : HwStep s c h) (hc : ∀ l, c ≠ .opMinuteTick l) : h.opMinutes = s.hw.opMinutes := by
  cases hs with
  | time ht => obtain ⟨_, _, _, -, rfl⟩ := ht; rfl
  | minute l => exact absurd rfl (hc l)
  | _ => rfl
theorem HwStep.lifecycle {s : State} {c : Instr} {h : Hw} (hs : HwStep s c h) (hl : h.lifecycle ≠ s.hw.lifecycle) :
    (∃ mb, c = .ownershipClaim mb) ∨ ∃ mb, c = .decommission mb := by
  cases hs with
  | time ht => obtain ⟨_, _, _, -, rfl⟩ := ht; exact absurd rfl hl
  | claim mb => exact .inl ⟨mb, rfl⟩
  | decommission mb => exact .inr ⟨mb, rfl⟩
  | _ => exact absurd rfl hl

/-- Settles O53: the finishers keep the queue, and the hardware record changes in its owners' rows alone. -/
theorem fieldsWithOwners : Obligations.FieldsWithOwners := by
  unfold Obligations.FieldsWithOwners
  exact ⟨fun c s t h => ⟨exec_pending h, (exec_hwStep h).present⟩, fun c s t h => (exec_hwStep h).straps,
    fun c s t h => (exec_hwStep h).opMinutes, fun c s t h => (exec_hwStep h).lifecycle⟩

/-! ### The queue of commands -/

/-- Settles O1: by the definition of a step. -/
theorem stepRunsFrontCommand : Obligations.StepRunsFrontCommand := by
  unfold Obligations.StepRunsFrontCommand
  intro c l s
  rfl

theorem step_of_nil {s : State} (h : s.pending = []) : step s = .next (idleTick s) := by
  simp only [step, h]

/-- Settles O51: no word spells a command, and an empty queue lets `idleTick` happen. -/
theorem emptyQueueTick : Obligations.EmptyQueueTick := by
  unfold Obligations.EmptyQueueTick
  refine ⟨fun n w => rfl, fun s n w => rfl, fun s hp hr hc => ?_, fun s hp hn => ?_⟩
  · rw [step_of_nil hp, idleTick, if_pos ⟨hr, hc⟩]
  · rw [step_of_nil hp, idleTick, if_neg hn]

/-- Settles O52: the reset state is a concrete record. -/
theorem resetState : Obligations.ResetState := by
  unfold Obligations.ResetState FuseLimits SlotsRise
  refine ⟨rfl, rfl, rfl, rfl, rfl, rfl, rfl, rfl, rfl, rfl, rfl, rfl, ?_, ?_, ?_, rfl, rfl, rfl, rfl, rfl, rfl, rfl, rfl,
    by decide, ⟨List.Pairwise.nil, fun x hx => absurd hx List.not_mem_nil⟩, wf_reset⟩
  · decide
  · decide
  · decide

end Sys2Proof.Machine
end

section
/-! PFAIL# during a recovery, configuration space and the peer window (chapters 06 and 10). -/
namespace Sys2Proof.Machine

/-! ### A filtered assertion before the vault restores (R171, R180) -/

/-- The data path runs, a recovery is due and nothing is restored yet, and PFAIL# is about to pass its filter. -/
def filteredBeforeRestore : State :=
  { pins := { pfailRaw := true, pfailFilter := true }, sched := { running := true }, dev := { recovering := true } }

/-- With nothing being restored, the assertion has nothing to stop. -/
theorem filteredAssertion_beforeRestore : (filteredAssertion filteredBeforeRestore).vault.stopped = false := by
  decide

/-- Refutes O2: while a recovery is due but the vault does not restore, a filtered assertion leaves the vault's phase as it is and
marks nothing as stopped. -/
theorem not_powerEffects : ¬ Obligations.PowerEffects := by
  unfold Obligations.PowerEffects
  rintro ⟨-, -, -, hfiltered, -⟩
  obtain ⟨t, ht, -, -, hstop, -⟩ := hfiltered filteredBeforeRestore rfl rfl
  have hdone : done filteredBeforeRestore (filteredAssertion filteredBeforeRestore) = .next t := ht
  cases hdone
  have hstopped := (hstop rfl rfl).1
  exact absurd (filteredAssertion_beforeRestore.symm.trans hstopped) (by decide)

/-! ### Configuration space (R302 to R312) -/

/-- Sending what is pending and no longer masked is signalling. -/
theorem msixUnmasked_frame (s : State) : SignalFrame s (msixUnmasked s) := by
  have hfold : ∀ (l : List (Nat × MsixEntry)) (u : State), SignalFrame u (l.foldl (fun t e => sendMsix e.1 t) u) := by
    intro l
    induction l with
    | nil => exact SignalFrame.refl
    | cons e l ih => exact fun u => (sendMsix_frame e.1 u).trans (ih _)
  unfold msixUnmasked
  split
  · exact .refl s
  · exact hfold _ s
/-- Outside MSI-X mode nothing is sent. -/
theorem msixWrite_of_mode {s : State} (h : s.cfg.irqMode ≠ 3) (off : Nat) (data : Bytes) :
    msixWrite off data s = { s with msix := insert (off / 16) ((s.msixAt (off / 16)).write (off % 16) data) s.msix } := if_pos (.inl h)
/-- A write to the MSI-X table changes the table, and sends what it unmasks. -/
theorem msixWrite_frame (off : Nat) (data : Bytes) (s : State) : SignalFrame s (msixWrite off data s) :=
  SignalFrame.trans ⟨rfl⟩ (msixUnmasked_frame _)
/-- A meaning that at most signals completes as it stands. -/
theorem done_of_signalFrame {s t : State} (h : SignalFrame s t) : done s t = .next t :=
  done_eq (by rw [h.all]) (by rw [h.all]) (by rw [h.all])

theorem configRequest_unreachable {s : State} (h : ¬ s.reachable = true) (w : Bool) (reg v : Nat) : configRequest w reg v s = s := if_pos h
theorem configRequest_retry {s : State} (hr : s.reachable = true) (h : ¬ s.bootReleased = true ∨ s.ep.flrActive = true) (w : Bool) (reg v : Nat) :
    configRequest w reg v s = emit .cfgRetry s := by
  rw [configRequest, if_neg (not_not_intro hr), if_pos h]
theorem configRequest_taken {s : State} (hr : s.reachable = true) (hb : s.bootReleased = true) (hf : ¬ s.ep.flrActive = true) (w : Bool) (reg v : Nat) :
    configRequest w reg v s = if w then emit (.cfgCompletion 0) (cfgWrite reg (u32 v) s) else emit (.cfgCompletion (cfgRead reg s)) s := by
  rw [configRequest, if_neg (not_not_intro hr), if_neg (fun h => h.elim (fun h => h hb) hf)]

/-- A BAR4 size is taken where all of R308 is met, and otherwise nothing happens. -/
theorem barSizeWrite_eq (n : Nat) (s : State) :
    barSizeWrite n s = { s with cfg := if ¬ s.cfg.mse ∧ 30 ≤ n ∧ n ≤ 36 then { s.cfg with barSize := n } else s.cfg } := by
  by_cases h : s.cfg.mse = true ∨ n < 30 ∨ 36 < n
  · rw [barSizeWrite, if_pos h, if_neg fun ⟨hm, hlo, hhi⟩ => h.elim hm (fun h => h.elim (Nat.not_lt.mpr hlo) (Nat.not_lt.mpr hhi))]
  · rw [barSizeWrite, if_neg h, if_pos (by simp only [not_or, Nat.not_lt] at h; exact h)]
    rfl

/-- Settles O4: by the cases of each request. -/
theorem configSpaceEffects : Obligations.ConfigSpaceEffects := by
  unfold Obligations.ConfigSpaceEffects
  refine ⟨?_, ?_, ?_, fun s => rfl, ?_, ?_, ?_, ?_, ?_, ?_, ?_⟩
  · intro w reg v s hr
    change done s (configRequest w reg v s) = _
    rw [configRequest_unreachable hr, done_self]
  · intro w reg v s hr hf
    change done s (configRequest w reg v s) = _
    rw [configRequest_retry hr hf]
    exact done_eq rfl rfl rfl
  · intro reg v s hr hb hf
    change done s (configRequest false reg v s) = _
    rw [configRequest_taken hr hb hf]
    exact done_eq rfl rfl rfl
  · intro v s hr hb hf
    change done s (configRequest true 4 v s) = _
    rw [configRequest_taken hr hb hf]
    exact done_eq rfl rfl rfl
  · intro n s
    change done s (if s.memReachable then barSizeWrite n s else s) = _
    rw [barSizeWrite_eq]
    by_cases hm : s.memReachable = true
    · simp only [hm, if_true, true_and]
      exact done_eq rfl rfl rfl
    · simp only [hm]
      exact done_self s
  · intro off len s hm hl
    change done s (if s.memReachable ∧ off + len ≤ 0x80000 then romRead off len s else s) = _
    rw [if_pos ⟨hm, hl⟩]
    exact done_eq rfl rfl rfl
  · intro off len s h
    change done s (if s.memReachable ∧ off + len ≤ 0x80000 then romRead off len s else s) = _
    rw [if_neg h, done_self]
  · intro off data s h
    change done s (if s.memReachable ∧ off < 32768 ∧ off % 16 + data.length ≤ 16 then msixWrite off data s else s) = _
    rw [if_neg h, done_self]
  · intro off data s hm ho hd hmode
    change done s (if s.memReachable ∧ off < 32768 ∧ off % 16 + data.length ≤ 16 then msixWrite off data s else s) = _
    rw [if_pos ⟨hm, ho, hd⟩, msixWrite_of_mode hmode]
    exact done_eq rfl rfl rfl
  · intro off data s hm ho hd
    refine ⟨msixWrite off data s, ?_, (msixWrite_frame off data s).all⟩
    change done s (if s.memReachable ∧ off < 32768 ∧ off % 16 + data.length ≤ 16 then msixWrite off data s else s) = _
    rw [if_pos ⟨hm, ho, hd⟩]
    exact done_of_signalFrame (msixWrite_frame off data s)

/-! ### The peer window (R319 to R323) -/

theorem exec_peerWindowRequest (w : Bool) (off len : Nat) (p : Bool) (data : Bytes) {s : State} (h : s.memReachable = true) :
    exec (.peerWindowRequest w off len p data) s = done s (peerWindow w off len p data s) := by
  change done s (if s.memReachable then _ else s) = _
  rw [if_pos h]
theorem exec_peerWindowRequest_unreachable (w : Bool) (off len : Nat) (p : Bool) (data : Bytes) {s : State} (h : ¬ s.memReachable = true) :
    exec (.peerWindowRequest w off len p data) s = .next s := by
  change done s (if s.memReachable then _ else s) = _
  rw [if_neg h, done_self]

theorem peerWindow_write {s : State} {off len a : Nat} (h : pwTranslate s true off len = some a) (data : Bytes) :
    peerWindow true off len false data s = stagingWrite a (data.take len) s := by
  simp [peerWindow, h]
theorem peerWindow_read {s : State} {off len a : Nat} (h : pwTranslate s false off len = some a) (data : Bytes) :
    peerWindow false off len false data s = emit (.memCompletion (stagingBytes s a len)) s := by
  simp [peerWindow, h]
theorem peerWindow_rejected {s : State} {w : Bool} {off len : Nat} (h : pwTranslate s w off len = none) (data : Bytes) :
    peerWindow w off len false data s = pwReject w off s := by
  simp [peerWindow, h]

/-- A write taken by a segment lands in staging and changes nothing else. -/
theorem exec_peerWrite {s : State} {off len a : Nat} (hm : s.memReachable = true) (h : pwTranslate s true off len = some a) (data : Bytes) :
    exec (.peerWindowRequest true off len false data) s = .next (stagingWrite a (data.take len) s) := by
  rw [exec_peerWindowRequest _ _ _ _ _ hm, peerWindow_write h]
  exact done_eq rfl rfl rfl
theorem exec_peerRead {s : State} {off len a : Nat} (hm : s.memReachable = true) (h : pwTranslate s false off len = some a) (data : Bytes) :
    exec (.peerWindowRequest false off len false data) s = .next { s with out := .memCompletion (stagingBytes s a len) :: s.out } := by
  rw [exec_peerWindowRequest _ _ _ _ _ hm, peerWindow_read h]
  exact done_eq rfl rfl rfl

/-- A rejected request is counted and captured, and staging stays as it is (R320). -/
theorem pwReject_spec (w : Bool) (off : Nat) (s : State) :
    (pwReject w off s).pw = s.pw ∧ (pwReject w off s).ep.urReceived = bump s.ep.urReceived ∧ (pwReject w off s).fc.first.isSome := by
  unfold pwReject
  dsimp only
  generalize hu : s.onEp _ = u
  have hpw : u.pw = s.pw := by rw [← hu]; rfl
  have hur : u.ep.urReceived = bump s.ep.urReceived := by rw [← hu]; rfl
  have hframe := raise_frame { source := 0x0E5, access := if w then 2 else 1, addr := some off } u
  have hfirst : (raise { source := 0x0E5, access := if w then 2 else 1, addr := some off } u).fc.first.isSome :=
    raise_first (by decide : (0x0E5 : Nat) < 512) rfl
  rw [← hpw, ← hur]
  cases w
  · exact ⟨hframe.pw, congrArg Ep.urReceived hframe.ep, hfirst⟩
  · exact ⟨hframe.pw, congrArg Ep.urReceived hframe.ep, hfirst⟩

/-- Settles O5: by whether the request is poisoned and whether a segment takes it. -/
theorem peerWindowEffects : Obligations.PeerWindowEffects := by
  unfold Obligations.PeerWindowEffects
  refine ⟨?_, ?_, ?_, ?_, ?_, ?_⟩
  · intro w off len p data s hm
    exact exec_peerWindowRequest_unreachable w off len p data hm
  · intro off len data s a hm h
    exact exec_peerWrite hm h data
  · intro off len data s a hm h
    exact exec_peerRead hm h data
  · intro off len data s hm
    rw [exec_peerWindowRequest _ _ _ _ _ hm]
    exact done_eq rfl rfl rfl
  · intro w off len data s hm h
    rw [exec_peerWindowRequest _ _ _ _ _ hm, peerWindow_rejected h]
    exact ⟨_, rfl, pwReject_spec w off s⟩
  · intro v s
    change done s (if bit v 0 then s.onPw fun w => { w with pending := true } else s) = _
    cases bit v 0 with
    | false =>
      rw [Bool.or_false]
      exact done_self s
    | true =>
      rw [Bool.or_true]
      exact done_eq rfl rfl rfl

/-- Where a segment takes a request, its address depends on the segment and not on the direction. -/
theorem pwTranslate_eq_some {s : State} {w : Bool} {off len a : Nat} (h : pwTranslate s w off len = some a) :
    a = (segAt s.pw.active (off / s.segSize)).off + off % s.segSize := by
  obtain ⟨-, h⟩ := Option.ite_none_left_eq_some.mp h
  obtain ⟨-, h⟩ := Option.ite_none_left_eq_some.mp h
  exact (Option.some.inj h).symm
theorem pwTranslate_stagingWrite (a : Nat) (d : Bytes) (s : State) (w : Bool) (off len : Nat) :
    pwTranslate (stagingWrite a d s) w off len = pwTranslate s w off len := rfl

/-- Settles O6: the read finds the address of the write, and the sparse memory answers what was put in. -/
theorem peerWriteReadsBack : Obligations.PeerWriteReadsBack := by
  unfold Obligations.PeerWriteReadsBack
  refine ⟨?_, ?_⟩
  · intro off len data s t hm hlen hw hr h
    obtain ⟨a, ha⟩ := Option.isSome_iff_exists.mp hw
    obtain ⟨b, hb⟩ := Option.isSome_iff_exists.mp hr
    have hba : b = a := (pwTranslate_eq_some hb).trans (pwTranslate_eq_some ha).symm
    subst hba hlen
    cases (exec_peerWrite hm ha data).symm.trans h
    rw [exec_peerRead (s := stagingWrite b (data.take data.length) s) hm hb, List.take_length, stagingBytes_stagingWrite]
  · intro off len data s t a hm hlen ha h b hb
    subst hlen
    cases (exec_peerWrite hm ha data).symm.trans h
    rw [List.take_length]
    exact stagingByte_stagingWrite_out data s hb

/-- Every request of the window leaves staging as it is or writes bytes to it. -/
theorem peerWindow_mem (w : Bool) (off len : Nat) (p : Bool) (data : Bytes) (s : State) :
    (peerWindow w off len p data s).pw = s.pw ∨ ∃ a d, peerWindow w off len p data s = stagingWrite a d s := by
  unfold peerWindow
  split
  · exact .inl rfl
  · split
    · exact .inl (pwReject_spec w off s).1
    · split
      · exact .inr ⟨_, _, rfl⟩
      · split
        · exact .inl (raise_frame _ _).pw
        · exact .inl rfl

/-- Settles O7: a peer write keeps the rising order of addresses, and nothing else touches staging. -/
theorem stagingStaysCanonical : Obligations.StagingStaysCanonical := by
  unfold Obligations.StagingStaysCanonical
  refine ⟨?_, ?_, wf_reset⟩
  · intro w off len p data s t hwf h
    by_cases hm : s.memReachable = true
    · rw [exec_peerWindowRequest _ _ _ _ _ hm] at h
      cases h
      change Memory.wf (peerWindow w off len p data s).pw.mem = true
      rcases peerWindow_mem w off len p data s with heq | ⟨a, d, heq⟩
      · rw [heq]
        exact hwf
      · rw [heq]
        exact wf_stagingWrite a d s hwf
    · rw [exec_peerWindowRequest_unreachable _ _ _ _ _ hm] at h
      cases h
      exact hwf
  · intro v s t hwf h
    change done s (if bit v 0 then s.onPw fun w => { w with pending := true } else s) = _ at h
    cases h
    split <;> exact hwf

end Sys2Proof.Machine
end

section
/-! Turn time (chapter 02) and register accesses (chapters 10, 18 and 21). -/
namespace Sys2Proof.Machine

/-- Where the body leaves queue, time and FATAL alone, the next state is the body's. -/
theorem done_eq_of_fatal {s t : State} (hp : t.pending = s.pending) (hh : t.hw = s.hw) (hf : t.fc.fatal = s.fc.fatal) : done s t = .next t := by
  rw [done_next, ← hf, Bool.or_self, ← hp, ← hh]

/-! ### Host accesses (R305, R328, R329, R569, R570) -/

/-- The steps of a host access before the register itself, one by one. -/
theorem hostReaches_iff {s : State} {off : Nat} : s.hostReaches off = true ↔
    (s.reachable = true ∧ ¬ s.ep.d3hot = true) ∧ s.memReachable = true ∧ ¬ (0x3C000 ≤ off ∧ off < 0x40000) ∧ ¬ absentReg off s = true ∧
      (regAt off s).isSome = true := by
  simp only [State.hostReaches, Bool.and_eq_true, Bool.not_eq_true', Bool.and_eq_false_imp, decide_eq_true_eq, decide_eq_false_iff_not,
    Bool.not_eq_true, not_and, and_assoc]

section
variable {s : State} {off : Nat} {w : Bool} {act : State → State}

theorem hostAccess_reached (h : s.hostReaches off = true) : hostAccess off w s act = act s := by
  obtain ⟨⟨hr, hd⟩, hm, hsb, ha, hreg⟩ := hostReaches_iff.mp h
  have hup : ¬ (¬ s.reachable = true ∨ s.ep.d3hot = true) := by simp [hr, hd]
  have hsome : ¬ (regAt off s).isNone = true := by rw [Option.isNone_iff_eq_none]; exact Option.isSome_iff_ne_none.mp hreg
  rw [hostAccess, if_neg hup, if_neg (not_not_intro hm), if_neg hsb, if_neg ha, if_neg hsome]
theorem hostAccess_unreachable_read (h : ¬ s.reachable = true ∨ s.ep.d3hot = true) :
    hostAccess off false s act = emit (.regRead off 0xFFFFFFFF) s := by
  rw [hostAccess, if_pos h]
  rfl
theorem hostAccess_absent (hr : s.reachable = true) (hd : ¬ s.ep.d3hot = true) (hm : s.memReachable = true) (hsb : ¬ (0x3C000 ≤ off ∧ off < 0x40000))
    (ha : absentReg off s = true) : hostAccess off w s act = absentAccess off w s := by
  rw [hostAccess, if_neg (by simp [hr, hd]), if_neg (not_not_intro hm), if_neg hsb, if_pos ha]
theorem hostAccess_reserved (hr : s.reachable = true) (hd : ¬ s.ep.d3hot = true) (hm : s.memReachable = true) (hsb : ¬ (0x3C000 ≤ off ∧ off < 0x40000))
    (ha : ¬ absentReg off s = true) (hreg : regAt off s = none) : hostAccess off w s act = reservedAccess off w s := by
  rw [hostAccess, if_neg (by simp [hr, hd]), if_neg (not_not_intro hm), if_neg hsb, if_neg ha, if_pos (by simp [hreg])]
end

/-! ### Turn time (R29, R32, R42, R43) -/

theorem nextTurn_cycle (h : Hw) : h.nextTurn.cycle = 0 := by unfold Hw.nextTurn; split <;> rfl
theorem nextTurn_within {h : Hw} (hlt : h.turn + 1 < 2 ^ 48) : h.nextTurn = { h with turn := h.turn + 1, cycle := 0 } := if_pos hlt
theorem nextTurn_rollover {h : Hw} (he : h.turn + 1 = 2 ^ 48) : h.nextTurn = { h with powerCycle := h.powerCycle + 1, turn := 0, cycle := 0 } :=
  if_neg (by omega)

theorem exec_turnBoundary {s : State} (h : s.sched.running = true) (l : List Overrun) : exec (.turnBoundary l) s =
    if (turnBoundary l s).trialReady then doneHw (restartHw (turnBoundary l s)) s (trialRestart (turnBoundary l s))
    else doneHw s.hw.nextTurn s (turnBoundary l s) := by
  change execTurnBoundary l s = _
  rw [execTurnBoundary, if_pos h]
theorem planningWindow_planned (s : State) : (planningWindow s).sched.planned = true := rfl

/-- Samples of links go to the Kiln Log and nowhere else. -/
theorem opMinute_eq (l : List (LocCode × Nat)) (s : State) : opMinute l s = { s with klog := (opMinute l s).klog } := by
  have hfold : ∀ (l : List (LocCode × Nat)) (u : State), l.foldl (fun t x => sample 0x0106 x.1.toNat 0 x.2 t) u =
      { u with klog := (l.foldl (fun t x => sample 0x0106 x.1.toNat 0 x.2 t) u).klog } := by
    intro l
    induction l with
    | nil => exact fun u => rfl
    | cons x l ih =>
      intro u
      rw [List.foldl_cons, ih, sample_eq]
  unfold opMinute
  rw [mergeSamples_eq, hfold l s]

/-- Settles O9: by whether the scheduler runs, and by the two cases of the next turn. -/
theorem turnTime : Obligations.TurnTime := by
  unfold Obligations.TurnTime
  refine ⟨?_, ?_, ?_, ?_, ?_, ?_⟩
  · intro l s h
    change execTurnBoundary l s = _
    rw [execTurnBoundary, if_neg h, done_self]
  · intro l s h
    rw [exec_turnBoundary h]
    split
    next ht => exact ⟨_, rfl, fun hn => absurd ht hn⟩
    next =>
      obtain ⟨t, ht⟩ : ∃ t, doneHw s.hw.nextTurn s (turnBoundary l s) = .next t := ⟨_, rfl⟩
      refine ⟨t, ht, fun _ => ?_⟩
      rw [hw_of_doneHw ht]
      refine ⟨nextTurn_cycle _, fun hlt => ?_, fun he => ?_⟩
      · rw [nextTurn_within hlt]
        exact ⟨rfl, rfl⟩
      · rw [nextTurn_rollover he]
        exact ⟨rfl, rfl⟩
  · intro s h
    change execPlanningWindow s = _
    rw [execPlanningWindow, if_neg fun ⟨hr, hp⟩ => h.elim (fun h => h hr) hp, done_self]
  · intro s hr hp
    refine ⟨_, if_pos ⟨hr, hp⟩, planningWindow_planned s, rfl⟩
  · intro l s
    refine ⟨{ s with hw := minuteHw s.hw, klog := (opMinute l { s with hw := minuteHw s.hw }).klog }, ?_, rfl, mergeSamples_samples _, rfl⟩
    change doneHw _ s (opMinute l { s with hw := minuteHw s.hw }) = _
    rw [opMinute_eq, doneHw_next, Bool.or_self]
  · intro s h
    change done s (hostAccess 0x1008 false s snapRead) = _
    rw [hostAccess_reached h]
    exact done_eq rfl rfl rfl

/-! ### Reads and their clears (R6, R517, R518) -/

theorem kcClear_out (k : Nat) (s : State) : (kcClear k s).out = s.out := rfl
theorem epClear_out (k : Nat) (s : State) : (epClear k s).out = s.out := rfl
theorem coilClear_out (k : Nat) (s : State) : (coilClear k s).out = s.out := by
  unfold coilClear
  split <;> rfl
/-- A clear sends nothing. -/
theorem clearRc_out (off : Nat) (s : State) : (clearRc off s).out = s.out := by
  unfold clearRc
  split
  · rfl
  · split
    · exact kcClear_out _ s
    · split
      · exact epClear_out _ s
      · split
        case h_10 => exact coilClear_out _ s
        all_goals rfl

/-! ### GLOBAL_EVENT (R572) -/

theorem globalEvent_sched (b : Nat) (s : State) :
    (globalEvent b s).sched = { s.sched with globalEvent := s.sched.globalEvent ||| BitVec.ofNat 4 (2 ^ b) } := by
  unfold globalEvent
  dsimp only
  split
  · rw [(signal_frame _ _).all]
    rfl
  · rfl
/-- Events of one cycle set their bits one after the other. -/
theorem foldl_globalEvent (bs : List Nat) (s : State) : (bs.foldl (fun u b => globalEvent b u) s).sched.globalEvent =
    bs.foldl (fun (x : BitVec 4) b => x ||| BitVec.ofNat 4 (2 ^ b)) s.sched.globalEvent := by
  induction bs generalizing s with
  | nil => rfl
  | cons b bs ih => rw [List.foldl_cons, List.foldl_cons, ih, globalEvent_sched]
/-- The bits set one by one make the word. -/
theorem foldl_bits (x co : BitVec 4) :
    ((List.range 4).filter (fun b => co.getLsbD b)).foldl (fun (x : BitVec 4) b => x ||| BitVec.ofNat 4 (2 ^ b)) x = x ||| co := by
  revert x co
  decide

/-- Settles O10: by where a host access ends, and by what the register's own row does. -/
theorem registerAccessEffects : Obligations.RegisterAccessEffects := by
  unfold Obligations.RegisterAccessEffects
  refine ⟨?_, ?_, ?_, ?_, ?_, ?_, ?_, ?_, ?_, ?_, ?_⟩
  · intro off s h
    change ∃ t, done s (hostAccess off false s _) = .next t ∧ _
    rw [hostAccess_reached h]
    exact ⟨_, rfl, congrArg _ (clearRc_out off s)⟩
  · intro s h
    change done s (hostAccess 0x44 false s _) = _
    rw [hostAccess_reached h]
    exact done_eq rfl rfl rfl
  · intro off s h
    change done s (hostAccess off false s _) = _
    rw [hostAccess_unreachable_read h]
    exact done_eq rfl rfl rfl
  · intro off s h hlo
    change done s (hostAccess off false s (loRead off)) = _
    rw [hostAccess_reached h, loRead, if_pos hlo]
    exact done_eq rfl rfl rfl
  · intro off v s h hl
    change done s (hostAccess off false s (hiRead off)) = _
    simp only [hostAccess_reached h, hiRead, hl]
    exact done_eq rfl rfl rfl
  · intro off s h hl
    change done s (hostAccess off false s (hiRead off)) = _
    simp only [hostAccess_reached h, hiRead, hl]
    exact done_eq rfl rfl rfl
  · intro v s h
    change done s (hostAccess 0x3004 true s (regWrite 0x3004 v)) = _
    rw [hostAccess_reached h]
    exact done_eq_of_fatal rfl rfl rfl
  · intro v s h
    change done s (hostAccess 0x34 true s (regWrite 0x34 v)) = _
    rw [hostAccess_reached h]
    exact done_eq rfl rfl rfl
  · intro off s hr hd hm hsb ha hreg
    refine ⟨?_, ?_⟩
    · change done s (hostAccess off false s _) = _
      rw [hostAccess_reserved hr hd hm hsb ha hreg]
      exact done_eq rfl rfl rfl
    · change done s (hostAccess off true s _) = _
      rw [hostAccess_reserved hr hd hm hsb ha hreg]
      exact done_eq rfl rfl rfl
  · intro off w s hr hd hm hsb ha
    change ∃ t, done s (hostAccess off w s id) = .next t ∧ _
    rw [hostAccess_absent hr hd hm hsb ha, absentAccess]
    refine ⟨_, rfl, ?_, raise_first (by decide : (0 : Nat) < 512) rfl⟩
    refine (congrArg Sched.absentAccesses (raise_frame _ _).sched).trans ?_
    cases w <;> rfl
  · intro v co s h
    change ∃ t, done s (hostAccess 0x30 true s (globalEventWrite v co)) = .next t ∧ _
    rw [hostAccess_reached h]
    exact ⟨_, rfl, (foldl_globalEvent _ _).trans (foldl_bits _ co)⟩

end Sys2Proof.Machine
end

section
/-! Doorbells, fetching, posting and coalescing (R337, R339, R343 to R345). -/
namespace Sys2Proof.Machine

/-! ### Doorbells (R337, R356) -/

/-- An asynchronous event touches the requests, the events that wait and the commands that become ready. -/
theorem asyncEvent_frame (typ info page : Nat) (s : State) : (asyncEvent typ info page s).ncnt = s.ncnt ∧
    (asyncEvent typ info page s).nvme.sqs = s.nvme.sqs ∧ (asyncEvent typ info page s).nvme.cqs = s.nvme.cqs := by
  unfold asyncEvent
  split
  · exact ⟨rfl, rfl, rfl⟩
  · refine ⟨rfl, ?_, ?_⟩ <;> rw [State.onNvme_nvme] <;> split <;> rfl
theorem doorbellError_frame (info : Nat) (s : State) : (doorbellError info s).ncnt.doorbellErrors = bump s.ncnt.doorbellErrors ∧
    (doorbellError info s).nvme.sqs = s.nvme.sqs ∧ (doorbellError info s).nvme.cqs = s.nvme.cqs := by
  obtain ⟨hn, hs, hc⟩ := asyncEvent_frame 0 info 1 (s.onNcnt fun n => { n with doorbellErrors := bump n.doorbellErrors })
  exact ⟨congrArg NvmeCnt.doorbellErrors hn, hs, hc⟩

theorem tailDoorbell_taken {s : State} {q v : Nat} {x : Sq} (hq : s.sq q = some x) (hv : v < x.size) :
    tailDoorbell q v s = onSq q (fun x => { x with tail := v }) s := by
  simp only [tailDoorbell, hq, if_pos hv]
theorem tailDoorbell_ignored {s : State} {q v : Nat} {x : Sq} (hq : s.sq q = some x) (hv : x.size ≤ v) : tailDoorbell q v s = doorbellError 1 s := by
  simp only [tailDoorbell, hq, if_neg (Nat.not_lt.mpr hv)]
theorem headDoorbell_taken {s : State} {q v : Nat} {x : Cq} (hq : s.cq q = some x) (hv : v < x.size)
    (hn : (v + x.size - x.head) % max x.size 1 ≤ x.used) :
    headDoorbell q v s = onCq q (fun y => { y with head := v, used := y.used - (v + x.size - x.head) % max x.size 1 }) s := by
  simp only [headDoorbell, hq]
  rw [if_neg (by omega)]
theorem headDoorbell_ignored {s : State} {q v : Nat} {x : Cq} (hq : s.cq q = some x) (hv : x.size ≤ v) : headDoorbell q v s = doorbellError 1 s := by
  simp only [headDoorbell, hq]
  rw [if_pos (.inl hv)]

theorem exec_sqTailDoorbell {s : State} {q : Nat} (hr : s.nvme.rdy = true) (hq : q < 4096) (v : Nat) :
    exec (.sqTailDoorbell q v) s = done s (tailDoorbell q v s) := congrArg (done s) (if_pos ⟨hr, hq⟩)
theorem exec_cqHeadDoorbell {s : State} {q : Nat} (hr : s.nvme.rdy = true) (hq : q < 4096) (v : Nat) :
    exec (.cqHeadDoorbell q v) s = done s (headDoorbell q v s) := congrArg (done s) (if_pos ⟨hr, hq⟩)

/-! ### Fetching (R339, R343) -/

/-- A fetch goes ahead: the controller takes commands, one waits, and the holding area has room. -/
def FetchGoes (q : Nat) (x : Sq) (s : State) : Prop :=
  s.sq q = some x ∧ s.nvme.rdy = true ∧ ¬ s.nvme.fetchStop = true ∧ ¬ s.ep.d3Stop = true ∧ s.cfg.busMaster = true ∧ x.waiting ≠ 0 ∧
    (s.nvme.fetched.filter (fun c => c.sqid == q)).length < 16 ∧ s.nvme.fetched.length < 8192

/-- The submission queue's head moves past the fetched entry. -/
def headMoved (q : Nat) (s : State) : State := onSq q (fun x => { x with head := (x.head + 1) % max x.size 1 }) s

theorem fetchCommand_eq {q : Nat} {x : Sq} {s : State} (h : FetchGoes q x s) (e : SqEntry) : fetchCommand q e s =
    if (s.nvme.fetched ++ s.nvme.admitted).any (fun y => y.sqid == q && y.e.cid == e.cid) then
      completeEarly { sqid := q, e := e } scCidConflict ((headMoved q s).onNcnt fun n => { n with cidConflicts := bump n.cidConflicts })
    else (headMoved q s).onNvme fun n => { n with fetched := n.fetched ++ [{ sqid := q, e := e }] } := by
  obtain ⟨hq, hr, hf, hd, hb, hw, h16, h8192⟩ := h
  simp only [fetchCommand, hq]
  rw [if_neg (by simp [hr, hf, hd, hb, hw]; omega)]
  rfl

/-! ### Posting (R344) -/

/-- The command that a post of queue `q` and identifier `cid` completes. -/
def State.postable (s : State) (q cid : Nat) : Option Cmd :=
  s.nvme.admitted.find? (fun c => c.sqid == q && c.e.cid == cid && match c.stage with | .ready _ _ => true | _ => false)

theorem finishDeletes_of_none {s : State} (h : ∀ y ∈ s.nvme.sqs, ¬ y.deleting = true) : finishDeletes s = s := by
  have hnil : s.nvme.sqs.filter (fun q => q.deleting && !(s.nvme.admitted ++ s.nvme.fetched).any (fun c => c.sqid == q.qid)) = [] := by
    rw [List.filter_eq_nil_iff]
    intro y hy
    simp [h y hy]
  rw [finishDeletes, hnil]
  rfl
/-- The end of a shutdown is noted in SHST alone. -/
theorem finishShutdown_eq (s : State) : finishShutdown s = { s with nvme := { s.nvme with shst := (finishShutdown s).nvme.shst } } := by
  unfold finishShutdown
  split <;> rfl

/-- What is written for a completion: the entry, and the completion queue's tail moved on. -/
def posted (q cid : Nat) (c : Cmd) (x : Sq) (k : Cq) (dw0 st : Nat) (s : State) : State :=
  sample 0x0101 (latencyKind c) 0 ((s.hw.turn - c.admitTurn) * s.turnNs / 1000)
    (emit (.cqe k.qid q cid dw0 (statusField st) x.head k.phase)
      (onCq k.qid (fun y => { y with
          tail := (y.tail + 1) % max y.size 1, phase := if y.tail + 1 = y.size then !y.phase else y.phase, used := y.used + 1, reserved := y.reserved - 1 })
        (s.onNvme fun n => { n with
          admitted := n.admitted.erase c
          errorLog := if st = 0 ∨ st = scNotReady then n.errorLog else ((q, cid, statusField st) :: n.errorLog).take 64 })))

theorem postCompletion_eq {q cid dw0 st : Nat} {c : Cmd} {x : Sq} {k : Cq} {s : State} (hc : s.postable q cid = some c) (hx : s.sq q = some x)
    (hk : s.cq x.cqid = some k) (hst : c.stage = .ready dw0 st) (hr : s.nvme.rdy = true) (hb : s.cfg.busMaster = true) (hd : ¬ s.ep.d3hot = true)
    (ha : c.admittedAt ≠ none) (hi : ¬ k.ien = true) :
    postCompletion q cid s = finishShutdown (finishDeletes (posted q cid c x k dw0 st s)) := by
  unfold State.postable at hc
  have hgo : ¬ (¬ s.nvme.rdy = true ∨ ¬ s.cfg.busMaster = true ∨ s.ep.d3hot = true ∨ c.admittedAt = none ∧ k.free = 0) := by
    simp [hr, hb, hd, ha]
  unfold postCompletion
  split
  next c' x' hc' hx' =>
    cases hc.symm.trans hc'
    cases hx.symm.trans hx'
    simp only [hst, hk]
    rw [if_neg hgo]
    simp only [ha, if_false, hi, Bool.false_eq_true]
    rfl
  next hno => exact (hno c x hc hx).elim

/-- Settles O12: by the cases of each row. -/
theorem queueEffects : Obligations.QueueEffects := by
  unfold Obligations.QueueEffects
  refine ⟨?_, ?_, ?_, ?_, ?_, ?_, ?_, ?_⟩
  · intro q v x s hr hq hx hv
    rw [exec_sqTailDoorbell hr hq, tailDoorbell_taken hx hv]
    exact done_eq rfl rfl rfl
  · intro q v x s hr hq hx hv
    rw [exec_sqTailDoorbell hr hq, tailDoorbell_ignored hx hv]
    obtain ⟨hn, hs, -⟩ := doorbellError_frame 1 s
    exact ⟨_, rfl, hn, hs⟩
  · intro q v x s hr hq hx hv hn
    rw [exec_cqHeadDoorbell hr hq, headDoorbell_taken hx hv hn]
    exact done_eq rfl rfl rfl
  · intro q v x s hr hq hx hv
    rw [exec_cqHeadDoorbell hr hq, headDoorbell_ignored hx hv]
    obtain ⟨hn, -, hc⟩ := doorbellError_frame 1 s
    exact ⟨_, rfl, hn, hc⟩
  · intro q e x s hq hr hf hd hb hw h16 h8192 hno
    change done s (fetchCommand q e s) = _
    rw [fetchCommand_eq ⟨hq, hr, hf, hd, hb, hw, h16, h8192⟩, if_neg hno]
    exact done_eq rfl rfl rfl
  · intro q e x s hq hr hf hd hb hw h16 h8192 hany
    change ∃ t, done s (fetchCommand q e s) = .next t ∧ _
    rw [fetchCommand_eq ⟨hq, hr, hf, hd, hb, hw, h16, h8192⟩, if_pos hany]
    exact ⟨_, rfl, rfl, _, List.mem_append_right _ (List.mem_singleton.mpr rfl), rfl, rfl, rfl⟩
  · intro q cid c x k dw0 st s hc hx hk hst hr hb hd ha hi hdel
    change ∃ t, done s (postCompletion q cid s) = .next t ∧ _
    rw [postCompletion_eq hc hx hk hst hr hb hd ha hi, finishDeletes_of_none (s := posted q cid c x k dw0 st s) hdel, finishShutdown_eq]
    exact ⟨_, rfl, rfl, rfl, rfl⟩
  · intro v s
    change done s (if _ then _ else _) = _
    split
    · exact done_eq rfl rfl rfl
    · exact done_self s

end Sys2Proof.Machine
end

section
/-! Kiln pieces (R57) and kiln car channels (R414 to R432). -/
namespace Sys2Proof.Machine

/-! ### A kiln piece of an identifier that two jobs have (R57) -/

/-- Two jobs with one identifier, whose granted slices have different widths. -/
def twoJobsOneId : State :=
  { arr := { arrays := [{}], jobs := [{ slices := [{ phase := .granted, width := 16 }] }, { slices := [{ phase := .granted, width := 32 }] }] } }

/-- Bytes that pieces have done of the second job's slice. -/
def secondJobPos (s : State) : Nat := (nth (nth s.arr.jobs 1 {}).slices 0 {}).pos

theorem pieceComplete_twoJobsOneId : secondJobPos (pieceComplete 0 0 twoJobsOneId) = 32 := by decide

/-- Refutes O15: where two jobs share an identifier, each slice moves on by its own width, and not both by the first one's. -/
theorem not_kilnEffects : ¬ Obligations.KilnEffects := by
  unfold Obligations.KilnEffects
  rintro ⟨hpiece, -⟩
  have h := hpiece 0 0 { slices := [{ phase := .granted, width := 16 }] } {} twoJobsOneId rfl rfl rfl (by decide)
  have hdone : done twoJobsOneId (pieceComplete 0 0 twoJobsOneId) = _ := h
  rw [done_next] at hdone
  have hpos := congrArg secondJobPos (Host.Outcome.next.inj hdone)
  exact absurd (pieceComplete_twoJobsOneId.symm.trans hpos) (by decide)

/-! ### One channel changed -/

theorem nthMod_congr {α : Type} {l : List α} {i : Nat} {f g : α → α} {d : α} (h : i < l.length → f (nth l i d) = g (nth l i d)) :
    nthMod l i f = nthMod l i g := by
  unfold nthMod
  rcases Nat.lt_or_ge i l.length with hi | hi
  · have hf := h hi
    simp only [nth, List.getElem?_eq_getElem hi, Option.getD_some] at hf
    rw [List.modify_eq_take_cons_drop hi, List.modify_eq_take_cons_drop hi, hf]
  · rw [List.modify_eq_self hi, List.modify_eq_self hi]

theorem chan_onChan_self {ch : Nat} {s : State} (f : Chan → Chan) (h : ch < s.kc.chans.length) : (onChan ch f s).chan ch = f (s.chan ch) :=
  nth_nthMod_self _ _ _ _ h
@[simp] theorem onChan_length (ch : Nat) (f : Chan → Chan) (s : State) : (onChan ch f s).kc.chans.length = s.kc.chans.length := nthMod_length _ _ _
/-- Only what the changes make of the channel itself matters. -/
theorem onChan_congr {ch : Nat} {f g : Chan → Chan} {s : State} (h : f (s.chan ch) = g (s.chan ch)) : onChan ch f s = onChan ch g s := by
  rw [onChan_eq, onChan_eq, nthMod_congr (d := {}) fun _ => h]
/-- A channel that is not idle is one of the channels. -/
theorem chan_exists {ch : Nat} {s : State} (h : (s.chan ch).st ≠ .idle) : ch < s.kc.chans.length := by
  rcases Nat.lt_or_ge ch s.kc.chans.length with n | n
  · exact n
  · exact absurd (by rw [State.chan, nth_out _ _ n]) h

/-! ### Commit, start and stop (R414 to R418) -/

theorem exec_kcCommit (ch : Nat) (s : State) : exec (.kcCommit ch) s = done s (kcCommitBody ch s) := rfl
theorem kcCommitBody_running {ch : Nat} {s : State} (h : ch < 64) (hs : (s.chan ch).st = .running) : kcCommitBody ch s = commitCopy ch s := by
  rw [kcCommitBody, if_pos h]
  exact if_neg (by rw [hs]; decide)
theorem kcCommitBody_idle {ch : Nat} {s : State} (h : ch < 64) (hs : (s.chan ch).st = .idle) :
    kcCommitBody ch s = handOver ch false (commitCopy ch s) := by
  rw [kcCommitBody, if_pos h]
  exact if_pos (.inl hs)
/-- The pending copy that COMMIT makes of the shadow set. -/
def committedCopy (ch : Nat) (s : State) : KcSet := { (s.chan ch).shadow with seq := ((s.chan ch).commitSeq + 1) % 256 }

theorem commitCopy_fresh {ch : Nat} {s : State} (hc : (s.chan ch).committed = none) :
    commitCopy ch s = onChan ch (fun c => { c with commitSeq := ((s.chan ch).commitSeq + 1) % 256, committed := some (committedCopy ch s) }) s := by
  simp only [commitCopy, hc, Option.isSome_none, Bool.false_eq_true, if_false]
  exact onChan_congr rfl
theorem commitCopy_supersedes {ch : Nat} {s : State} {p : KcSet} (hc : (s.chan ch).committed = some p) :
    (commitCopy ch s).kc.superseded = bump s.kc.superseded := by
  simp only [commitCopy, hc, Option.isSome_some, if_true]
  rfl
theorem chan_commitCopy {ch : Nat} {s : State} (h : ch < s.kc.chans.length) :
    ((commitCopy ch s).chan ch).committed = some (committedCopy ch s) ∧ ch < (commitCopy ch s).kc.chans.length := by
  unfold commitCopy
  dsimp only
  split
  · rw [chan_onChan_self _ (by exact h), onChan_length]
    exact ⟨rfl, h⟩
  · rw [chan_onChan_self _ h, onChan_length]
    exact ⟨rfl, h⟩
theorem handOver_data {ch : Nat} {s : State} {p : KcSet} (hm : isMaint ch = false) (h : ch < s.kc.chans.length)
    (hc : (s.chan ch).committed = some p) (b : Bool) : ((handOver ch b s).chan ch).st = .running ∧ ((handOver ch b s).chan ch).active = p := by
  simp only [handOver, hc, hm, Bool.false_eq_true, false_and, if_false]
  rw [chan_onChan_self _ h]
  exact ⟨rfl, rfl⟩

theorem kcStopBody_running {ch : Nat} {s : State} (h : (s.chan ch).st = .running) :
    kcStopBody ch s = onChan ch (fun c => { c with st := .stopping, stopWanted := true }) s := by
  simp only [kcStopBody, h]
theorem kcStopBody_idle {ch : Nat} {s : State} (h : (s.chan ch).st = .idle) : kcStopBody ch s = s := by
  simp only [kcStopBody, h]
theorem kcStartBody_idle {ch : Nat} {s : State} (h : (s.chan ch).st = .idle) : kcStartBody ch s = s := by
  simp [kcStartBody, h]
theorem kcStartBody_stopped {ch : Nat} {s : State} (h : (s.chan ch).st = .stopped) (hc : (s.chan ch).committed = none)
    (he : ¬ (s.chan ch).ended = true) : kcStartBody ch s = onChan ch (fun c => { c with st := .running, cause := .none, hops := 0 }) s := by
  simp [kcStartBody, h, hc, he]
theorem exec_kcStop {ch : Nat} (h : ch < 64) (s : State) : exec (.kcStop ch) s = done s (kcStopBody ch s) := congrArg (done s) (if_pos h)
theorem exec_kcStart {ch : Nat} (h : ch < 64) (s : State) : exec (.kcStart ch) s = done s (kcStartBody ch s) := congrArg (done s) (if_pos h)

/-! ### Request lines (R425) -/

theorem addRequest_counts {n : Nat} {s : State} (h : nth s.kc.reqs n 0 < 255) :
    addRequest n s = { s with kc := { s.kc with reqs := nthMod s.kc.reqs n (· + 1) } } := if_pos h
theorem addRequest_overflows {n : Nat} {s : State} (h : 255 ≤ nth s.kc.reqs n 0) :
    addRequest n s = raise { source := 0x104 } (s.onKc fun k => { k with reqOverflow := bump k.reqOverflow }) := if_neg (Nat.not_lt.mpr h)
theorem exec_requestLinePulse {n : Nat} (h : n < 96) (s : State) : exec (.requestLinePulse n) s = done s (addRequest n s) :=
  congrArg (done s) (if_pos h)

/-! ### Stops with a cause (R427, R428) -/

theorem chanIrq_kc (ch b : Nat) (s : State) : (chanIrq ch b s).kc = { s.kc with chans := (chanIrq ch b s).kc.chans } := by
  have hsignal : ∀ (b : Bool) (v : Nat) (t : State), (if b then signal v t else t).kc = t.kc := by
    intro b v t
    split
    · rw [(signal_frame v t).all]
    · rfl
  unfold chanIrq
  split
  · rfl
  · dsimp only
    rw [hsignal]
    rfl
/-- A channel that stops changes no counter of the car. -/
theorem chanStop_kc (ch : Nat) (cause : KcCause) (st : Nat) (s : State) :
    (chanStop ch cause st s).kc = { s.kc with chans := (chanStop ch cause st s).kc.chans } := by
  unfold chanStop
  dsimp only
  split
  · rw [onChan_eq, chanIrq_kc]
    rfl
  · rfl

/-! ### Descriptors and bursts (R421 to R426) -/

theorem Chan.exists_of_active {ch : Nat} {s : State} (h : (s.chan ch).active? = true) : ch < s.kc.chans.length := by
  apply chan_exists
  intro he
  simp [Chan.active?, he] at h
/-- The descriptor that was fetched becomes the current one. -/
def descTaken (ch : Nat) (d : KcDesc) (s : State) : State :=
  onChan ch (fun c => { c with
    hops := c.hops + 1, desc := some d, bytesDone := 0
    running := some (if d.crcContinue then c.running.getD (crcInit d.crc) else crcInit d.crc)
    startRunning := some (if d.crcContinue then c.running.getD (crcInit d.crc) else crcInit d.crc) }) s

section
variable {ch : Nat} {d : KcDesc} {s : State} (h : ch < 64) (ha : (s.chan ch).active? = true) (hn : (s.chan ch).desc = none)
include h ha hn

theorem fetchedBody_valid (hv : ¬ descInvalid d (isMaint ch) (s.pw.stagingMib * 1048576) = true) (hl : d.last = true) :
    fetchedBody ch d s = descTaken ch d s := by
  simp [fetchedBody, ha, hn, Nat.not_le.mpr h, hv, hl, descTaken]
theorem fetchedBody_invalid (hv : descInvalid d (isMaint ch) (s.pw.stagingMib * 1048576) = true) :
    fetchedBody ch d s = raise { source := if isMaint ch then 0x102 else 0x101, loc := some (locChan ch) }
      (chanStop ch .descError 2 ((descTaken ch d s).onKc fun k => { k with descErrors := bump k.descErrors })) := by
  simp [fetchedBody, ha, hn, Nat.not_le.mpr h, hv, descTaken]
end

theorem channelBurst_noData {ch : Nat} {d : KcDesc} {s : State} (hd : (s.chan ch).desc = some d) (hs : (s.chan ch).st = .running)
    (hg : (s.chan ch).granted = true) (hh : ¬ s.kc.halted = true) (ho : d.op = 3) (hc : d.crc = 0) (data : Bytes) (ix : List Nat) :
    channelBurst ch data ix s = onChan ch (fun c => { c with
      bytesDone := c.bytesDone + (burstStream (s.chan ch) d (data.take (min 16384 (d.byteCount - (s.chan ch).bytesDone))) s).length
      granted := false, running := c.running.map (fun r => r) }) s := by
  simp [channelBurst, hd, hs, hg, hh, ho, hc, Chan.active?]

/-! ### The boundary of the last descriptor (R415, R426) -/

/-- `t` has the same channels, and channel `ch` differs at most in its CRC, its record marks and whether it has ended. -/
structure BoundaryFrame (ch : Nat) (s t : State) : Prop where
  length : t.kc.chans.length = s.kc.chans.length
  st : (t.chan ch).st = (s.chan ch).st
  committed : (t.chan ch).committed = (s.chan ch).committed

theorem BoundaryFrame.trans {ch : Nat} {s t u : State} (a : BoundaryFrame ch s t) (b : BoundaryFrame ch t u) : BoundaryFrame ch s u :=
  ⟨b.length.trans a.length, b.st.trans a.st, b.committed.trans a.committed⟩
theorem BoundaryFrame.ofKc {ch : Nat} {s t : State} (h : t.kc = s.kc) : BoundaryFrame ch s t := by
  have hc : t.chan ch = s.chan ch := by rw [State.chan, State.chan, h]
  exact ⟨by rw [h], by rw [hc], by rw [hc]⟩
/-- A change of channel `ch` that keeps its state and its pending copy. -/
theorem BoundaryFrame.onChan {ch : Nat} {s : State} {f : Chan → Chan} (hl : ch < s.kc.chans.length) (hs : (f (s.chan ch)).st = (s.chan ch).st)
    (hc : (f (s.chan ch)).committed = (s.chan ch).committed) : BoundaryFrame ch s (onChan ch f s) :=
  ⟨onChan_length _ _ _, by rw [chan_onChan_self _ hl, hs], by rw [chan_onChan_self _ hl, hc]⟩

theorem storeCrc_boundaryFrame {ch : Nat} (d : KcDesc) {s : State} (hl : ch < s.kc.chans.length) : BoundaryFrame ch s (storeCrc ch d s) := by
  unfold storeCrc
  dsimp only
  split
  · exact .ofKc rfl
  · have hcrc : BoundaryFrame ch s (Machine.onChan ch (fun c => { c with crc := crcFinal d.crc (((s.chan ch).running).getD 0) }) s) :=
      .onChan hl rfl rfl
    split
    · split <;> exact hcrc.trans (.ofKc rfl)
    · exact hcrc
theorem writeRecord_boundaryFrame {ch : Nat} (st : Nat) {s : State} (hl : ch < s.kc.chans.length) : BoundaryFrame ch s (writeRecord ch st s) := by
  unfold writeRecord
  dsimp only
  generalize hu : tookFree _ = u
  have hkc : u.kc = s.kc := by rw [← hu]; rfl
  exact (BoundaryFrame.ofKc hkc).trans (.onChan (hkc ▸ hl) rfl rfl)

theorem boundaryBody_last {ch : Nat} {d : KcDesc} {s : State} (h48 : ch < 48) (hl : ch < s.kc.chans.length) (hs : (s.chan ch).st = .running)
    (hd : (s.chan ch).desc = some d) (hc : (s.chan ch).committed = none) (hh : ¬ s.kc.halted = true) (hb : d.byteCount ≤ (s.chan ch).bytesDone)
    (hlast : d.last = true) : ((boundaryBody ch false s).chan ch).st = .finished ∧ ((boundaryBody ch false s).chan ch).cause = .endOfCount ∧
      ((boundaryBody ch false s).chan ch).desc = none := by
  have hm : isMaint ch = false := by simp [isMaint, h48]
  have hends : chainEnds (s.chan ch) d = true := by simp [chainEnds, hlast]
  have hgo : ¬ (¬ ((s.chan ch).active? = true ∧ ¬ s.kc.halted = true ∨ (s.kc.halted && (s.chan ch).st == .halted) = true) ∨
      (s.chan ch).bytesDone < d.byteCount) := by
    simp [Chan.active?, hs, hh, hb]
  have hirq : ∀ b u, chanIrq ch b u = u := fun b u => if_pos (by simp [hm])
  simp only [boundaryBody, hd]
  rw [if_neg hgo]
  simp only [hends, hm, hirq, Bool.false_eq_true, not_false_eq_true, or_true, and_self, if_true, hh, Bool.false_and, if_false]
  have f1 := storeCrc_boundaryFrame d hl
  have f2 := f1.trans (.onChan (f := fun c => { c with ended := true }) (f1.length ▸ hl) rfl rfl)
  have f3 := f2.trans (writeRecord_boundaryFrame 0 (f2.length ▸ hl))
  generalize writeRecord ch 0 _ = u at f3
  have hlu : ch < u.kc.chans.length := f3.length ▸ hl
  have hst : ¬ (u.chan ch).st = .stopping := by rw [f3.st, hs]; decide
  have hcom : ¬ (u.chan ch).committed.isSome = true := by rw [f3.committed, hc]; decide
  simp only [afterBoundary, chan_onChan_self _ hlu, hst, hcom, if_false, if_true, Bool.false_eq_true]
  rw [chan_onChan_self _ (by rwa [onChan_length]), chan_onChan_self _ hlu]
  exact ⟨rfl, rfl, rfl⟩

/-- Settles O17: by the state of the channel, row by row. -/
theorem kilnCarEffects : Obligations.KilnCarEffects := by
  unfold Obligations.KilnCarEffects
  refine ⟨?_, ?_, ?_, ?_, ?_, ?_, ?_, ?_, ?_, ?_, ?_, ?_, ?_, ?_, ?_, ?_⟩
  · intro ch s h hs hc
    rw [exec_kcCommit, kcCommitBody_running h hs, commitCopy_fresh hc]
    exact done_eq rfl rfl rfl
  · intro ch p s h hs hc
    rw [exec_kcCommit, kcCommitBody_running h hs]
    exact ⟨_, rfl, commitCopy_supersedes hc⟩
  · intro ch s h48 hl hs
    rw [exec_kcCommit, kcCommitBody_idle (by omega) hs]
    obtain ⟨hc, hl'⟩ := chan_commitCopy hl
    exact ⟨_, rfl, handOver_data (by simp [isMaint, h48]) hl' hc false⟩
  · intro ch s h hs
    rw [exec_kcStop h, kcStopBody_running hs]
    exact done_eq rfl rfl rfl
  · intro ch s h hs
    rw [exec_kcStop h, exec_kcStart h, kcStopBody_idle hs, kcStartBody_idle hs]
    exact ⟨done_self s, done_self s⟩
  · intro ch s h hs hc he
    rw [exec_kcStart h, kcStartBody_stopped hs hc he]
    exact done_eq rfl rfl rfl
  · exact done_self
  · intro s h
    change done s (addRequest 88 s) = _
    rw [addRequest_counts h]
    exact done_eq rfl rfl rfl
  · intro n s h hn
    rw [exec_requestLinePulse h, addRequest_counts hn]
    exact done_eq rfl rfl rfl
  · intro n s h hn
    rw [exec_requestLinePulse h, addRequest_overflows hn]
    exact ⟨_, rfl, (raise_frame _ _).kc, raise_first (by decide : (0x104 : Nat) < 512) rfl⟩
  · intro ch d s h ha hn hv hl hcc
    change done s (fetchedBody ch d s) = _
    rw [fetchedBody_valid h ha hn hv hl, descTaken]
    refine (done_eq rfl rfl rfl).trans (congrArg _ (onChan_congr ?_))
    simp [hcc]
  · intro ch d s h ha hn hv
    change ∃ t, done s (fetchedBody ch d s) = .next t ∧ _
    rw [fetchedBody_invalid h ha hn hv]
    refine ⟨_, rfl, ?_, ?_⟩
    · refine (congrArg Kc.descErrors (raise_frame _ _).kc).trans ?_
      rw [chanStop_kc]
      rfl
    · cases hm : isMaint ch with
      | false => exact raise_first (by decide : (0x101 : Nat) < 512) rfl
      | true => exact raise_first (by decide : (0x102 : Nat) < 512) rfl
  · intro ch d c s h48 hl hch hs hd hc hh hb hlast
    subst hch
    have hexec : exec (.descriptorBoundary ch false) s = done s (boundaryBody ch false s) := congrArg (done s) (if_pos (by omega))
    rw [hexec]
    exact ⟨_, rfl, boundaryBody_last h48 hl hs hd hc hh hb hlast⟩
  · intro ch m c k s h
    have hexec : exec (.kcMemError ch m c k) s = done s (kcMemBody ch m c k s) := congrArg (done s) (if_pos h)
    rw [hexec]
    cases k with
    | false => exact ⟨_, rfl, raise_first (by decide : (0x106 : Nat) < 512) rfl, fun hk => absurd hk (by decide)⟩
    | true => exact ⟨_, rfl, raise_first (by decide : (0x105 : Nat) < 512) rfl, fun _ => (raise_frame _ _).kc⟩
  · intro ch d data ix s h hd hs hg hh ho hc
    have hexec : exec (.burstComplete (.channel ch data ix)) s = done s (channelBurst ch data ix s) := congrArg (done s) (if_pos h)
    rw [hexec, channelBurst_noData hd hs hg hh ho hc]
    exact done_eq rfl rfl rfl
  · intro ch data ix s h hd
    have hexec : exec (.burstComplete (.channel ch data ix)) s = done s (channelBurst ch data ix s) := congrArg (done s) (if_pos h)
    have hnone : channelBurst ch data ix s = s := by simp only [channelBurst, hd]
    rw [hexec, hnone, done_self]

end Sys2Proof.Machine
end

section
/-! PROOF. Mailboxes: claiming, ringing, cancelling, taking and completing (R360 to R376), restarts of the control complex
(R378, R386), the sideband and MCTP control (R368, R369). -/
namespace Sys2Proof.Machine

/-! ### One mailbox -/

/-- Changes that agree on the mailbox as it is change the state alike. -/
theorem onMb_congr {i : Nat} {f g : Mailbox → Mailbox} {s : State} (h : f (s.mb i) = g (s.mb i)) : onMb i f s = onMb i g s := by
  rw [onMb_eq, onMb_eq, nthMod_congr (d := ({} : Mailbox)) fun _ => h]
theorem mb_of_mci {s t : State} (h : t.mci = s.mci) (i : Nat) : t.mb i = s.mb i := by simp only [State.mb, h]
theorem mb_locked {i : Nat} {s : State} (h : (s.mb i).lock ≠ 0) : i < s.mci.mbs.length := by
  refine Nat.lt_of_not_le fun hn => ?_
  exact h (by rw [State.mb, nth_out _ _ hn])
theorem mb_staged {i : Nat} {s : State} {r : MbResp} (h : (s.mb i).staged = some r) : i < s.mci.mbs.length := by
  refine Nat.lt_of_not_le fun hn => ?_
  rw [State.mb, nth_out _ _ hn] at h
  cases h

theorem alertSet_mci (i : Nat) (on : Bool) (s : State) : (alertSet i on s).mci = s.mci := by unfold alertSet; split <;> rfl
theorem alertSet_frame (i : Nat) (on : Bool) (s : State) : alertSet i on s = { s with pins := (alertSet i on s).pins } := by
  unfold alertSet; split <;> rfl

/-- A condition decides between signalling and not: the state's frame is a signal's either way. -/
theorem signalIf_frame (b : Prop) [Decidable b] (v : Nat) (s : State) : SignalFrame s (if b then signal v s else s) := by
  split
  · exact signal_frame v s
  · exact .refl s

/-- The body of a row that changes neither the queue's rest, nor time, nor the collector: what ends a command untaken. -/
theorem endUntaken_frame (i st : Nat) (irq : Bool) (s : State) : endUntaken i st irq s =
    { s with mci := (endUntaken i st irq s).mci, pins := (endUntaken i st irq s).pins, cfg := (endUntaken i st irq s).cfg,
             msix := (endUntaken i st irq s).msix, out := (endUntaken i st irq s).out } := by
  unfold endUntaken
  dsimp only
  rw [(signalIf_frame _ _ _).all, alertSet_frame]; rfl
theorem endUntaken_mb {i : Nat} (st : Nat) (irq : Bool) {s : State} (h : i < s.mci.mbs.length) :
    (endUntaken i st irq s).mb i = { (s.mb i).ended with resp := { status := st, doneFt := s.now } } := by
  unfold endUntaken
  dsimp only
  rw [(signalIf_frame _ _ _).all]
  exact (mb_of_mci (alertSet_mci _ _ _) i).trans (mb_onMb_self _ _ _ h)
/-- A queued command that is cancelled ends as CANCELLED. -/
theorem done_endUntaken {i st : Nat} {irq : Bool} {s u : State} (h : i < u.mci.mbs.length) (hp : u.pending = s.pending) (hh : u.hw = s.hw) (hf : u.fc = s.fc) :
    ∃ t, done s (endUntaken i st irq u) = .next t ∧ (t.mb i).st = .finished ∧ (t.mb i).resp.status = st := by
  refine ⟨_, done_eq ?_ ?_ ?_, ?_⟩
  · rw [endUntaken_frame]; exact hp
  · rw [endUntaken_frame]; exact hh
  · rw [endUntaken_frame]; exact hf
  · rw [endUntaken_mb _ _ h]; exact ⟨rfl, rfl⟩

/-! ### Claim, ring, cancel (R363, R364) -/

theorem lockWrite_claim {v : Nat} {m : Mailbox} (hl : m.lock = 0) (h0 : v ≠ 0) (h1 : v ≠ 0xFFFFFFFF) : lockWrite v m = { m with lock := v } := by
  simp [lockWrite, hl, h0, h1]
theorem lockWrite_release {m : Mailbox} (h : m.st = .idle ∨ m.st = .finished) : lockWrite 0 m = { m with lock := 0, st := .idle } := by
  simp [lockWrite, h]
theorem lockWrite_held {v : Nat} {m : Mailbox} (hl : m.lock ≠ 0) (h0 : v ≠ 0) : lockWrite v m = m := by
  simp [lockWrite, hl, h0]

theorem exec_mbLockWrite {mb : Nat} (h : mb < 14) (v : Nat) (s : State) : exec (.mbLockWrite mb v) s = .next (onMb mb (lockWrite v) s) :=
  (congrArg (done s) (if_pos h)).trans (done_eq rfl rfl rfl)
theorem exec_mbRing {mb : Nat} (h : mb < 14) (c : Bool) (s : State) : exec (.mbRing mb c) s = done s (ringWrite mb c s) := congrArg (done s) (if_pos h)
theorem exec_mbCancel {mb : Nat} (h : mb < 14) (s : State) : exec (.mbCancel mb) s = done s (cancelWrite mb s) := congrArg (done s) (if_pos h)

theorem ringWrite_accepted {mb : Nat} {s : State} (hl : (s.mb mb).lock ≠ 0) (hs : (s.mb mb).st = .idle ∨ (s.mb mb).st = .finished) (c : Bool) :
    ringWrite mb c s = ringMb mb s := if_pos ⟨hl, hs⟩
theorem ringWrite_ignored {mb : Nat} {s : State} (h : ¬ ((s.mb mb).lock ≠ 0 ∧ ((s.mb mb).st = .idle ∨ (s.mb mb).st = .finished))) :
    ringWrite mb false s = onMb mb (fun m => { m with ringIgnored := true }) s := by
  simp only [ringWrite]; rw [if_neg h]; rfl
/-- RING with CANCEL on a queued command cancels it: a queued mailbox takes no ring. -/
theorem ringWrite_cancel {mb : Nat} {s : State} (h : (s.mb mb).st = .queued) :
    ringWrite mb true s = endUntaken mb stCancelled true (onMb mb (fun m => { m with ringIgnored := true }) s) := by
  have hn : ¬ ((s.mb mb).lock ≠ 0 ∧ ((s.mb mb).st = .idle ∨ (s.mb mb).st = .finished)) := by simp [h]
  simp only [ringWrite]; rw [if_neg hn, if_pos ⟨trivial, h⟩]
theorem cancelWrite_queued {mb : Nat} {s : State} (h : (s.mb mb).st = .queued) : cancelWrite mb s = endUntaken mb stCancelled true s := if_pos h
theorem queued_exists {mb : Nat} {s : State} (h : (s.mb mb).st = .queued) : mb < s.mci.mbs.length := mb_exists (by rw [h]; decide)

theorem ringMb_mb {mb : Nat} {s : State} (h : mb < s.mci.mbs.length) :
    (ringMb mb s).mb mb = { s.mb mb with st := .queued, ringFt := s.now, resp := {}, ringIgnored := false, started := false, adj := [] } :=
  mb_onMb_self mb _ s h

/-- Settles O31: by the branch of the lock, ring or cancel write. -/
theorem mailboxHostEffects : Obligations.MailboxHostEffects := by
  unfold Obligations.MailboxHostEffects
  refine ⟨?_, ?_, ?_, ?_, ?_, ?_, ?_, ?_, ?_, fun mb off s => done_eq rfl rfl rfl, fun mb off s => done_eq rfl rfl rfl⟩
  · intro mb v s h hl h0 h1
    rw [exec_mbLockWrite h]
    exact congrArg _ (onMb_congr (lockWrite_claim hl h0 h1))
  · intro mb s h hs
    rw [exec_mbLockWrite h]
    exact congrArg _ (onMb_congr (lockWrite_release hs))
  · intro mb v s h hl h0
    exact ⟨_, exec_mbLockWrite h v s, (mb_onMb_self mb _ s (mb_locked hl)).trans (lockWrite_held hl h0)⟩
  · intro mb v s h
    exact (congrArg (done s) (if_neg (by omega))).trans (done_self s)
  · intro mb c s h hl hs
    rw [exec_mbRing h, ringWrite_accepted hl hs]
    refine ⟨_, done_eq rfl rfl rfl, ?_⟩
    rw [ringMb_mb (mb_locked hl)]
    exact ⟨rfl, rfl, rfl, rfl⟩
  · intro mb s h hn
    rw [exec_mbRing h, ringWrite_ignored hn]
    exact done_eq rfl rfl rfl
  · intro mb s h hq
    rw [exec_mbCancel h, cancelWrite_queued hq]
    exact done_endUntaken (queued_exists hq) rfl rfl rfl
  · intro mb s h hq
    rw [exec_mbRing h, ringWrite_cancel hq]
    exact done_endUntaken (by simpa using queued_exists hq) rfl rfl rfl
  · intro mb s h hn
    rw [exec_mbCancel h, show cancelWrite mb s = s from if_neg hn]
    exact done_self s

/-! ### Taking in ring order (R365) -/

/-- Mailbox `i` waits to be taken. -/
def State.waits (s : State) (i : Nat) : Bool := (s.mb i).st == .queued && s.mbServed i
/-- The ring of `i` comes before that of `j`. -/
def State.rungBefore (s : State) (i j : Nat) : Bool := ftBefore (s.mb i).ringFt (s.mb j).ringFt
/-- One mailbox is compared with the best one so far. -/
def betterQueued (s : State) (best : Option Nat) (i : Nat) : Option Nat :=
  if s.waits i then match best with
    | none => some i
    | some b => if s.rungBefore i b then some i else some b
  else best
theorem nextQueued_eq (s : State) : nextQueued s = (List.range 16).foldl (betterQueued s) none := rfl

/-- No mailbox below `n` that waits is to be taken before the best one. -/
structure BestBelow (s : State) (n i : Nat) : Prop where
  waits : s.waits i = true
  below : i < n
  first : ∀ j < n, s.waits j = true → s.rungBefore j i = false ∧ (s.rungBefore i j = false → i ≤ j)

/-- What precedes neither of two fine times in a row precedes the second of them. -/
theorem ftBefore_false_trans {a b c : FT} (hab : ftBefore a b = false) (hbc : ftBefore b c = false) : ftBefore a c = false := by
  simp only [ftBefore, Bool.or_eq_false_iff, Bool.and_eq_false_iff, decide_eq_false_iff_not, beq_eq_false_iff_ne, ne_eq] at *
  omega
/-- The fold over the mailboxes below `n` finds the best of them, or none when none waits. -/
theorem foldl_betterQueued (s : State) (n : Nat) : match (List.range n).foldl (betterQueued s) none with
    | none => ∀ j < n, s.waits j = false
    | some i => BestBelow s n i := by
  induction n with
  | zero => intro j hj; omega
  | succ n ih =>
    rw [List.range_succ, List.foldl_append, List.foldl_cons, List.foldl_nil]
    generalize (List.range n).foldl (betterQueued s) none = best at ih
    by_cases hw : s.waits n = true
    · cases best with
      | none =>
        rw [show betterQueued s none n = some n by simp [betterQueued, hw]]
        refine ⟨hw, by omega, fun j hj hwj => ?_⟩
        have : j = n := by
          refine Classical.not_not.mp fun hne => ?_
          have hf := ih j (by omega)
          rw [hwj] at hf; cases hf
        subst this
        exact ⟨by simp [State.rungBefore, ftBefore], fun _ => Nat.le_refl _⟩
      | some b =>
        obtain ⟨hb, hbn, hfirst⟩ := ih
        by_cases hlt : s.rungBefore n b = true
        · rw [show betterQueued s (some b) n = some n by simp [betterQueued, hw, hlt]]
          refine ⟨hw, by omega, fun j hj hwj => ?_⟩
          rcases Nat.lt_succ_iff_lt_or_eq.mp hj with hjn | rfl
          · have hjb := (hfirst j hjn hwj).1
            have hbn' : s.rungBefore b n = false := ftBefore_asymm hlt
            refine ⟨ftBefore_false_trans hjb hbn', fun hnj => ?_⟩
            have : s.rungBefore n b = false := ftBefore_false_trans hnj hjb
            rw [hlt] at this; cases this
          · exact ⟨by simp [State.rungBefore, ftBefore], fun _ => Nat.le_refl _⟩
        · rw [show betterQueued s (some b) n = some b by simp [betterQueued, hw, hlt]]
          refine ⟨hb, by omega, fun j hj hwj => ?_⟩
          rcases Nat.lt_succ_iff_lt_or_eq.mp hj with hjn | rfl
          · exact hfirst j hjn hwj
          · exact ⟨by simpa using hlt, fun _ => by omega⟩
    · rw [show betterQueued s best n = best by simp [betterQueued, hw]]
      cases best with
      | none =>
        intro j hj
        rcases Nat.lt_succ_iff_lt_or_eq.mp hj with hjn | rfl
        · exact ih j hjn
        · simpa using hw
      | some b =>
        obtain ⟨hb, hbn, hfirst⟩ := ih
        refine ⟨hb, by omega, fun j hj hwj => ?_⟩
        rcases Nat.lt_succ_iff_lt_or_eq.mp hj with hjn | rfl
        · exact hfirst j hjn hwj
        · exact absurd hwj hw

theorem nextQueued_best {s : State} {i : Nat} (h : nextQueued s = some i) : BestBelow s 16 i := by
  have := foldl_betterQueued s 16
  rwa [← nextQueued_eq, h] at this
theorem waits_iff {s : State} {i : Nat} : s.waits i = true ↔ (s.mb i).st = .queued ∧ s.mbServed i = true := by simp [State.waits]

/-- Settles O33: the fold over the mailboxes keeps the one that waits and was rung first, the lowest of those rung together. -/
theorem earliestRingFirst : Obligations.EarliestRingFirst := by
  unfold Obligations.EarliestRingFirst
  intro s i h
  obtain ⟨hw, -, hfirst⟩ := nextQueued_best h
  obtain ⟨hq, hsv⟩ := waits_iff.mp hw
  exact ⟨hq, hsv, fun j hj hjq hjs => hfirst j hj (waits_iff.mpr ⟨hjq, hjs⟩)⟩

/-! ### Taking (R366) -/

theorem hostRead_mci (k : Nat) (r : HostReq) (s : State) : (hostRead k r s).mci = s.mci := by rw [hostRead_frame]

theorem mciFail_mb {i : Nat} (st a b : Nat) {s : State} (h : i < s.mci.mbs.length) : (mciFail i st a b s).mb i =
    { s.mb i with started := true, staged := some (mkResp (s.mb i).adj st a b), stagedInline := [], stagedOut := [] } := by
  unfold mciFail
  dsimp only
  split
  · exact mb_onMb_self i _ s h
  · split
    · exact mb_onMb_self i _ s h
    · exact mb_onMb_self i _ s h
theorem mciFail_mb_ne {i j : Nat} (st a b : Nat) (s : State) (h : j ≠ i) : (mciFail i st a b s).mb j = s.mb j := by
  unfold mciFail
  dsimp only
  split
  · exact mb_onMb_ne _ s h
  · split
    · exact mb_onMb_ne _ s h
    · exact mb_onMb_ne _ s h
theorem mciFail_length (i st a b : Nat) (s : State) : (mciFail i st a b s).mci.mbs.length = s.mci.mbs.length := by
  unfold mciFail
  dsimp only
  split
  · exact onMb_length i _ s
  · split
    · exact onMb_length i _ s
    · exact onMb_length i _ s
/-- A command that ends with a status of its own has that status staged. -/
theorem done_mciFail {i : Nat} (st a b : Nat) {s u : State} (h : i < u.mci.mbs.length) (hp : u.pending = s.pending) (hh : u.hw = s.hw) (hf : u.fc = s.fc) :
    ∃ t, done s (mciFail i st a b u) = .next t ∧ ∃ r, (t.mb i).staged = some r ∧ r.status = st := by
  refine ⟨_, done_eq ?_ ?_ ?_, ?_⟩
  · rw [mciFail_frame]; exact hp
  · rw [mciFail_frame]; exact hh
  · rw [mciFail_frame]; exact hf
  · rw [mciFail_mb st a b h]; exact ⟨_, rfl, rfl⟩

section
variable {mb : Nat} {inp : Option Bytes} {ok : Bool} {s : State}

/-- A fetching mailbox whose input has been read goes through the ordered checks. -/
theorem exec_mciInputReadDone (hi : mb < 16) (hf : (s.mb mb).st = .fetching) (hs : ¬ (s.mb mb).started = true) :
    exec (.mciInputReadDone mb inp ok) s = done s (checkInput mb inp ok (endRequest (.mciInput mb) s)) :=
  congrArg (done s) (if_pos ⟨hf, hs, hi⟩)
theorem fetching_exists (hf : (s.mb mb).st = .fetching) : mb < s.mci.mbs.length := mb_exists (by rw [hf]; decide)

theorem checkInput_unknown (h : ¬ inCatalogue (s.mb mb).opcode = true) : checkInput mb inp ok s = mciFail mb stOpcode 0 0 s := if_pos h
theorem checkInput_unread (hc : inCatalogue (s.mb mb).opcode = true) (hr : ¬ s.dev.recoveryBoot = true) (hn : inputRead mb (s.mb mb) inp ok = none) :
    checkInput mb inp ok s = mciFail mb stBuffer 0 0 s := by
  simp only [checkInput, hc, hr, hn]; rfl
theorem checkInput_operator {b : Bytes} (hc : inCatalogue (s.mb mb).opcode = true) (hr : ¬ s.dev.recoveryBoot = true) (hn : inputRead mb (s.mb mb) inp ok = some b)
    (ha : authorityOf (s.mb mb).opcode = 1) (he : bit (s.mb mb).flags 0 = false) : checkInput mb inp ok s = takeCommand mb b s := by
  simp only [checkInput, hc, hr, hn, ha, he]; rfl
/-- The step of R372 that a mailbox's envelope fails first, 0 where it passes. -/
def State.envelopeCheck (s : State) (mb : Nat) (b : Bytes) : Nat :=
  envelopeStep s (s.mb mb).opcode (flag (bit (s.mb mb).flags 0) 0) (s.mb mb).params b
    (envelopeKey s (s.mb mb).opcode (s.mb mb).params).1 (envelopeKey s (s.mb mb).opcode (s.mb mb).params).2
theorem checkInput_envelope {b : Bytes} (hc : inCatalogue (s.mb mb).opcode = true) (hr : ¬ s.dev.recoveryBoot = true) (hn : inputRead mb (s.mb mb) inp ok = some b)
    (ha : authorityOf (s.mb mb).opcode ≠ 1) : checkInput mb inp ok s = if s.envelopeCheck mb b ≠ 0 then
      recordSecurity 6 (s.envelopeCheck mb b) [(s.mb mb).opcode, field b 40 8] (mciFail mb stAuthority 0 (s.envelopeCheck mb b) s)
    else takeCommand mb (b.drop (payloadStart b)) (s.onMci fun c => { c with counter := field b 40 8 }) := by
  have hr' : ¬ (s.dev.recoveryBoot = true ∧ ¬ recoveryOps.contains (s.mb mb).opcode = true) := fun h => hr h.1
  have hc' : ¬ ¬ inCatalogue (s.mb mb).opcode = true := not_not_intro hc
  simp only [checkInput, hn]
  rw [if_neg hc', if_neg hr', if_neg ha]; rfl
/-- A command taken is EXECUTING, with its payload and the time it was taken. -/
theorem takeCommand_mb (b : Bytes) (h : mb < s.mci.mbs.length) :
    ((takeCommand mb b s).mb mb).st = .executing ∧ ((takeCommand mb b s).mb mb).payload = b ∧ ((takeCommand mb b s).mb mb).submitFt = s.now := by
  rw [show (takeCommand mb b s).mb mb = { s.mb mb with st := .executing, submitFt := s.now, payload := b } from mb_onMb_self mb _ s h]
  exact ⟨rfl, rfl, rfl⟩
end

/-! ### Completion (R376) -/

theorem restartIfIdle_none {s : State} (h : s.mci.restartMb = none) : restartIfIdle s = s := by simp only [restartIfIdle, h]

theorem emitIf_frame (b : Prop) [Decidable b] (o : Output) (s : State) :
    (if b then emit o s else s) = { s with out := (if b then emit o s else s).out } := by split <;> rfl
/-- Completion of a command: its output is sent, its alert set, its mailbox finished, and its vector signalled. -/
theorem completeMb_steps (i : Nat) (r : MbResp) (ow : Bool) (s : State) : ∃ u f, u = { s with out := u.out } ∧
    (∀ m, (f m).st = .finished ∧ (f m).resp = finalResp i (s.mb i) r ow s.now) ∧ SignalFrame (onMb i f (alertSet i true u)) (completeMb i r ow s) := by
  exact ⟨_, _, emitIf_frame _ _ _, fun m => ⟨rfl, rfl⟩, signalIf_frame _ _ _⟩
theorem completeMb_frame (i : Nat) (r : MbResp) (ow : Bool) (s : State) : completeMb i r ow s =
    { s with mci := (completeMb i r ow s).mci, pins := (completeMb i r ow s).pins, cfg := (completeMb i r ow s).cfg,
             msix := (completeMb i r ow s).msix, out := (completeMb i r ow s).out } := by
  obtain ⟨u, f, hu, -, hs⟩ := completeMb_steps i r ow s
  rw [hs.all, alertSet_frame, hu]; rfl
theorem completeMb_restart (i : Nat) (r : MbResp) (ow : Bool) (s : State) : (completeMb i r ow s).mci.restartMb = s.mci.restartMb := by
  obtain ⟨u, f, hu, -, hs⟩ := completeMb_steps i r ow s
  rw [hs.all, alertSet_frame, hu]; rfl
theorem completeMb_mb {i : Nat} (r : MbResp) (ow : Bool) {s : State} (h : i < s.mci.mbs.length) :
    ((completeMb i r ow s).mb i).st = .finished ∧ ((completeMb i r ow s).mb i).resp = finalResp i (s.mb i) r ow s.now := by
  obtain ⟨u, f, hu, hf, hs⟩ := completeMb_steps i r ow s
  have hm : (completeMb i r ow s).mci = (onMb i f (alertSet i true u)).mci := by rw [hs.all]
  have hl : i < (alertSet i true u).mci.mbs.length := by rw [alertSet_mci, hu]; exact h
  rw [mb_of_mci hm, mb_onMb_self i f _ hl]
  exact hf _

/-- Settles O32: by the check of R366 that the input meets first. -/
theorem mailboxTakeEffects : Obligations.MailboxTakeEffects := by
  unfold Obligations.MailboxTakeEffects
  refine ⟨?_, ?_, ?_, ?_, ?_, ?_, ?_, ?_, ?_⟩
  · intro i s ha hr hl hn
    have hq : i < s.mci.mbs.length := queued_exists (waits_iff.mp (nextQueued_best hn).waits).1
    have hb : takeMailbox s = if i < 14 ∧ (s.mb i).inLen ≠ 0 then hostRead 2 (.mciInput i) (onMb i (fun m => { headerFields m with st := .fetching }) s)
        else onMb i (fun m => { headerFields m with st := .fetching }) s := by
      simp only [takeMailbox, hn]
      rw [if_neg (by simp [ha, hr, hl])]
    have hm : (takeMailbox s).mci = (onMb i (fun m => { headerFields m with st := .fetching }) s).mci := by
      rw [hb]; split
      · exact hostRead_mci _ _ _
      · rfl
    refine ⟨_, done_eq ?_ ?_ ?_, ?_, fun j hj => ?_⟩
    · rw [hb]; split <;> rfl
    · rw [hb]; split <;> rfl
    · rw [hb]; split <;> rfl
    · rw [mb_of_mci hm, mb_onMb_self i _ s hq]
    · rw [mb_of_mci hm, mb_onMb_ne _ s hj]
  · intro s hn
    have hb : takeMailbox s = s := by simp only [takeMailbox, hn]; exact ite_self s
    exact (congrArg (done s) hb).trans (done_self s)
  · intro mb inp ok s hi hf hs hc
    rw [exec_mciInputReadDone hi hf hs, checkInput_unknown (s := endRequest (.mciInput mb) s) hc]
    exact done_mciFail _ _ _ (fetching_exists hf) rfl rfl rfl
  · intro mb inp ok s hi hf hs hc hr hn
    rw [exec_mciInputReadDone hi hf hs, checkInput_unread (s := endRequest (.mciInput mb) s) hc hr hn]
    exact done_mciFail _ _ _ (fetching_exists hf) rfl rfl rfl
  · intro mb inp ok b s hi hf hs hc hr hn ha he
    rw [exec_mciInputReadDone hi hf hs, checkInput_operator (s := endRequest (.mciInput mb) s) hc hr hn ha he]
    exact ⟨_, done_eq rfl rfl rfl, takeCommand_mb b (s := endRequest (.mciInput mb) s) (fetching_exists hf)⟩
  · intro mb inp ok b s hi hf hs hc hr hn ha he
    rw [exec_mciInputReadDone hi hf hs, checkInput_envelope (s := endRequest (.mciInput mb) s) hc hr hn ha, if_pos (c := (endRequest (.mciInput mb) s).envelopeCheck mb b ≠ 0) he, recordSecurity_eq]
    refine ⟨_, done_eq ?_ ?_ ?_, rfl, rfl, ?_⟩
    · rw [mciFail_frame]; rfl
    · rw [mciFail_frame]; rfl
    · rw [mciFail_frame]; rfl
    · show ∃ r, ((mciFail mb stAuthority 0 _ (endRequest (.mciInput mb) s)).mb mb).staged = some r ∧ _
      rw [mciFail_mb (s := endRequest (.mciInput mb) s) _ _ _ (fetching_exists hf)]
      exact ⟨_, rfl, rfl⟩
  · intro mb inp ok b s hi hf hs hc hr hn ha he
    rw [exec_mciInputReadDone hi hf hs, checkInput_envelope (s := endRequest (.mciInput mb) s) hc hr hn ha, if_neg (c := (endRequest (.mciInput mb) s).envelopeCheck mb b ≠ 0) (not_not_intro he)]
    obtain ⟨hst, hpl, -⟩ := takeCommand_mb (b.drop (payloadStart b)) (mb := mb)
      (s := (endRequest (.mciInput mb) s).onMci fun c => { c with counter := field b 40 8 }) (fetching_exists hf)
    exact ⟨_, done_eq rfl rfl rfl, rfl, hst, hpl⟩
  · intro mb ow r s hi hst hr hn
    have hb : exec (.mciComplete mb ow) s = done s (completeMb mb r ow s) := by
      refine congrArg (done s) ?_
      rw [hst]
      exact (if_pos ⟨hi, hr⟩).trans (restartIfIdle_none ((completeMb_restart _ _ _ _).trans hn))
    obtain ⟨hfin, hresp⟩ := completeMb_mb r ow (mb_staged hst)
    refine ⟨_, hb.trans (done_eq ?_ ?_ ?_), hfin, ?_⟩
    · rw [completeMb_frame]
    · rw [completeMb_frame]
    · rw [completeMb_frame]
    · rw [hresp]; exact ⟨rfl, rfl, rfl⟩
  · intro mb ow s hn
    have : execMciComplete mb ow s = done s s := by unfold execMciComplete; rw [hn]
    exact this.trans (done_self s)

end Sys2Proof.Machine
end

section
/-! PROOF. Restarts of the control complex (R378, R386), the sideband and MCTP control (R326, R364, R368, R369). -/
namespace Sys2Proof.Machine

/-! ### Restarts -/

theorem mciFail_foldl_frame (st : Nat) (l : List Nat) (s : State) :
    l.foldl (fun u j => mciFail j st 0 0 u) s = { s with mci := (l.foldl (fun u j => mciFail j st 0 0 u) s).mci } := by
  induction l generalizing s with
  | nil => rfl
  | cons j l ih => rw [List.foldl_cons, ih, mciFail_frame]
/-- Every mailbox of the list ends with the status given; one that has it keeps it. -/
theorem mciFail_foldl_staged {st i : Nat} {l : List Nat} {s : State} (hl : i < s.mci.mbs.length)
    (h : i ∈ l ∨ ∃ r, (s.mb i).staged = some r ∧ r.status = st) :
    ∃ r, ((l.foldl (fun u j => mciFail j st 0 0 u) s).mb i).staged = some r ∧ r.status = st := by
  induction l generalizing s with
  | nil => exact h.resolve_left (by simp)
  | cons j l ih =>
    rw [List.foldl_cons]
    refine ih (by rwa [mciFail_length]) ?_
    by_cases hij : i = j
    · subst hij
      right
      rw [mciFail_mb _ _ _ hl]
      exact ⟨_, rfl, rfl⟩
    · rw [mciFail_mb_ne _ _ _ _ hij]
      exact h.imp_left fun hm => (List.mem_cons.mp hm).resolve_left hij

/-- A restart begins: the control complex restarts, and commands that had not committed end. -/
theorem beginRestart_spec (s : State) : (beginRestart s).mci.restart = 2 ∧ (beginRestart s).dev.restarting = true ∧
    (beginRestart s).pending = s.pending ∧ (beginRestart s).hw = s.hw ∧ (beginRestart s).fc = s.fc ∧
    ∀ i < 16, (s.mb i).st = .executing → (s.mb i).committed = false → (s.mb i).staged = none →
      ∃ r, ((beginRestart s).mb i).staged = some r ∧ r.status = stAbortRestart := by
  have hfr := mciFail_foldl_frame stAbortRestart
    ((List.range 16).filter (fun j => (s.mb j).st == .executing && !(s.mb j).committed && ((s.mb j).staged).isNone)) s
  refine ⟨rfl, rfl, ?_, ?_, ?_, fun i hi hst hcm hsg => ?_⟩
  · exact (congrArg State.pending hfr :)
  · exact (congrArg State.hw hfr :)
  · exact (congrArg State.fc hfr :)
  · exact mciFail_foldl_staged (mb_exists (by rw [hst]; decide)) (.inl (by simp [hi, hst, hcm, hsg]))

theorem othersExecuting_of_st {s t : State} (h : ∀ j, (t.mb j).st = (s.mb j).st) (mb : Nat) : t.othersExecuting mb = s.othersExecuting mb := by
  simp only [State.othersExecuting, h]
/-- Changing a mailbox without its STATE leaves every STATE. -/
theorem onMb_st {i : Nat} {f : Mailbox → Mailbox} (hf : ∀ m, (f m).st = m.st) (s : State) (j : Nat) : ((onMb i f s).mb j).st = (s.mb j).st := by
  by_cases hj : j = i
  · subst hj
    by_cases hl : j < s.mci.mbs.length
    · rw [mb_onMb_self _ _ _ hl, hf]
    · have hlen := Nat.le_of_not_lt hl
      rw [State.mb, nth_out _ _ (by rw [onMb_length]; exact hlen), State.mb, nth_out _ _ hlen]
  · rw [mb_onMb_ne _ _ hj]

/-- The command interface `m` in which the effect of mailbox `i`'s command begins, when its checks have passed in `s` (R366). -/
structure Started (i : Nat) (s : State) (m : Mci) : Prop where
  rest : m = { s.mci with mbs := m.mbs }
  length : m.mbs.length = s.mci.mbs.length
  exists_ : i < m.mbs.length
  started : (nth m.mbs i {}).started = true
  staged : (nth m.mbs i {}).staged = (s.mb i).staged
  others : ∀ j, j ≠ i → nth m.mbs j {} = s.mb j
  st : ∀ j, (nth m.mbs j {}).st = (s.mb j).st

/-- A command that has started and had no response is in progress. -/
theorem Started.inProgress {i : Nat} {s : State} {m : Mci} (hm : Started i s m) (h : (s.mb i).staged = none) : InProgress i { s with mci := m } :=
  ⟨hm.started, hm.staged.trans h⟩
theorem Started.succeeds {i : Nat} {s : State} {m : Mci} (hm : Started i s m) {u : State} (hu : u.mci = m) (a b : Bytes) : Succeeds i a b (mciOk i a b u) :=
  mciOk_succeeds a b (by rw [hu]; exact hm.exists_)

/-- Where steps 5 to 7 of R366 pass, a command row does what its effect does to the state in which its mailbox has started. -/
theorem row_runs {i op : Nat} {s : State} {plan : Mailbox → Plan} (act : Mailbox → State → State) (h : planRuns i op s plan = true) :
    ∃ m, Started i s m ∧ mciRun i op s plan act = act (s.mb i) { s with mci := m } := by
  have hl := planRuns_exists h
  rw [mciRun_passes act h, onMb_eq, onMb_eq]
  refine ⟨_, { rest := rfl, length := ?_, exists_ := ?_, started := ?_, staged := ?_, others := fun j hj => ?_, st := fun j => ?_ }, rfl⟩
  · rw [nthMod_length, nthMod_length]
  · rwa [nthMod_length, nthMod_length]
  · rw [nth_nthMod_self _ _ _ _ (by rwa [nthMod_length])]
  · rw [nth_nthMod_self _ _ _ _ (by rwa [nthMod_length]), nth_nthMod_self _ _ _ _ hl]; rfl
  · rw [nth_nthMod_ne _ _ _ hj, nth_nthMod_ne _ _ _ hj]; rfl
  · exact (onMb_st (f := fun m => { m with started := true, objects := (plan (s.mb i)).objects }) (fun _ => rfl) _ j).trans
      (onMb_st (f := fun m => { m with adj := m.adj ++ (plan (s.mb i)).p.adj }) (fun _ => rfl) s j)
theorem row_completes {i op : Nat} {s : State} {plan : Mailbox → Plan} {act : Mailbox → State → State} {P : State → Prop} (h : planRuns i op s plan = true)
    (hact : ∀ m, Started i s m → ∃ t, done s (act (s.mb i) { s with mci := m }) = .next t ∧ P t) : ∃ t, done s (mciRun i op s plan act) = .next t ∧ P t := by
  obtain ⟨m, hm, he⟩ := row_runs act h
  rw [he]
  exact hact m hm
/-- A row whose effect is to report. -/
theorem row_reports {i op : Nat} {s : State} {plan : Mailbox → Plan} {act : Mailbox → State → State} {a b : Bytes} (h : planRuns i op s plan = true)
    (hact : ∀ m, act (s.mb i) { s with mci := m } = mciOk i a b { s with mci := m }) :
    ∃ t, done s (mciRun i op s plan act) = .next t ∧ t = { s with mci := t.mci } ∧ Succeeds i a b t := by
  refine row_completes h fun m hm => ?_
  rw [hact]
  exact ⟨_, done_eq rfl rfl rfl, rfl, hm.succeeds rfl a b⟩

/-- DEVICE_RESTART of mailbox `mb` asks for the restart. -/
def askRestart (mb : Nat) (s : State) : State := (onMb mb (fun m => { m with committed := true }) s).onMci fun c => { c with restart := 1, restartMb := some mb }
theorem deviceRestartAct_eq (mb : Nat) (m : Mailbox) (s : State) :
    deviceRestartAct mb m s = if s.othersExecuting mb = [] then beginRestart (askRestart mb s) else askRestart mb s := by
  have ho : (askRestart mb s).othersExecuting mb = s.othersExecuting mb :=
    othersExecuting_of_st (fun j => onMb_st (f := fun m => { m with committed := true }) (fun _ => rfl) s j) mb
  rw [← ho]
  show (if (1 = 1 ∧ _) then _ else _) = _
  simp only [true_and]
  rfl

/-- Settles O34: a restart waits while another command executes, and begins when none does or the wait ends. -/
theorem restartEffects : Obligations.RestartEffects := by
  unfold Obligations.RestartEffects
  refine ⟨?_, ?_, ?_, fun s h => (congrArg (done s) (if_neg h)).trans (done_self s), ?_,
    fun s h => (congrArg (done s) (if_neg h)).trans (done_self s)⟩
  · intro mb s h ho
    refine row_completes h fun m hm => ?_
    rw [deviceRestartAct_eq, othersExecuting_of_st (t := { s with mci := m }) hm.st, if_neg ho]
    refine ⟨_, done_eq rfl rfl rfl, rfl, rfl, ?_⟩
    exact congrArg Mailbox.committed (mb_onMb_self mb (fun m => { m with committed := true }) { s with mci := m } hm.exists_)
  · intro mb s h ho
    refine row_completes h fun m hm => ?_
    rw [deviceRestartAct_eq, othersExecuting_of_st (t := { s with mci := m }) hm.st, if_pos ho]
    obtain ⟨h1, h2, hp, hh, hf, -⟩ := beginRestart_spec (askRestart mb { s with mci := m })
    exact ⟨_, done_eq hp hh hf, h1, h2⟩
  · intro s h
    obtain ⟨h1, h2, hp, hh, hf, hcut⟩ := beginRestart_spec s
    exact ⟨_, (congrArg (done s) (if_pos h)).trans (done_eq hp hh hf), h1, h2, hcut⟩
  · intro s h
    have hx : exec .controlComplexRestarted s = done s (restarted s) := congrArg (done s) (if_pos h)
    rw [hx]
    cases hm : s.mci.restartMb with
    | none =>
      rw [restarted, hm]
      exact ⟨_, done_eq rfl rfl rfl, rfl, rfl, fun i hi => by cases hi⟩
    | some i =>
      rw [restarted, hm]
      refine ⟨_, done_eq rfl rfl rfl, rfl, rfl, fun j hj hl => ?_⟩
      obtain rfl : i = j := Option.some.inj hj
      exact (mciOk_succeeds [] [] (by simpa [mapIf] using hl)).1

/-! ### The sideband -/

section
variable {mb off n : Nat} {s : State} {act : State → State}

theorem sbGate_passes (hm : mb = 14 ∨ mb = 15) (hr : sbRange off n = true) (hp : s.pins.main = true) : sbGate mb off n s act = act s := by
  unfold sbGate
  rw [if_neg (by simp [hr]; omega), if_neg (not_not_intro hp)]
theorem sbGate_badOffset (hr : ¬ sbRange off n = true) : sbGate mb off n s act = emit (.mctp 1 []) s := if_pos (.inr hr)
theorem sbGate_notReady (hm : mb = 14 ∨ mb = 15) (hr : sbRange off n = true) (hp : ¬ s.pins.main = true) : sbGate mb off n s act = emit (.mctp 2 []) s := by
  unfold sbGate
  rw [if_neg (by simp [hr]; omega), if_pos hp]; rfl
end

theorem leNat_field_four {d : Bytes} (h : d.length = 4) : field d (4 * 0) 4 = leNat d := by
  simp [field, List.take_of_length_le, h]
/-- A write of the four bytes of MB_LOCK is a lock write (R363). -/
theorem sbWriteBytes_lock {d : Bytes} (h : d.length = 4) (mb : Nat) (s : State) : sbWriteBytes mb 0 d s = onMb mb (lockWrite (leNat d)) s := by
  have : sbWriteBytes mb 0 d s = sbWriteWord mb 0 (field d (4 * 0) 4) s := by
    simp [sbWriteBytes, h]
  rw [this, leNat_field_four h]; rfl
theorem sbWriteBytes_staging {off : Nat} (h : 0x10000 ≤ off) (d : Bytes) (mb : Nat) (s : State) :
    sbWriteBytes mb off d s = onMb mb (fun m => { m with sideband := putBytes m.sideband (off - 0x10000) d }) s := if_pos h
theorem sbRange_staging {off n : Nat} (h0 : 0x10000 ≤ off) (h1 : off + n ≤ 0x50000) : sbRange off n = true := by
  simp [sbRange, h0, h1]

theorem alertSet_sideband {mb : Nat} (h : mb = 14 ∨ mb = 15) (on : Bool) (s : State) :
    alertSet mb on s = { s with pins := { s.pins with smbAlert := alertBits mb on s.pins.smbAlert } } := if_neg (by omega)

/-- Settles O35: by the gate of R368 and then the operation. -/
theorem sidebandEffects : Obligations.SidebandEffects := by
  unfold Obligations.SidebandEffects
  refine ⟨?_, ?_, ?_, ?_, ?_, ?_, ?_, ?_, ?_, ?_, ?_, ?_, ?_, ?_, fun s => done_eq rfl rfl rfl, fun s => ⟨done_eq rfl rfl rfl, rfl⟩,
    fun s => done_eq rfl rfl rfl, fun s => done_eq rfl rfl rfl, ?_⟩
  · intro mb off d s hm hp h0 h1
    have hb := sbGate_passes (act := fun t => emit (.mctp ccOk []) (sbWriteBytes mb off d t)) hm (sbRange_staging h0 h1) hp
    rw [sbWriteBytes_staging h0] at hb
    exact (congrArg (done s) hb).trans (done_eq rfl rfl rfl)
  · intro mb d s hm hp hl
    have hb := sbGate_passes (act := fun t => emit (.mctp ccOk []) (sbWriteBytes mb 0 d t)) (off := 0) (n := d.length) hm (by simp [sbRange, hl]) hp
    rw [sbWriteBytes_lock hl] at hb
    exact (congrArg (done s) hb).trans (done_eq rfl rfl rfl)
  · intro mb off d s hm hr
    exact (congrArg (done s) (sbGate_badOffset hr)).trans (done_eq rfl rfl rfl)
  · intro mb off d s hm hr hp
    exact (congrArg (done s) (sbGate_notReady hm hr hp)).trans (done_eq rfl rfl rfl)
  · intro mb off n s hm hp hn hr
    exact (congrArg (done s) ((if_neg (by omega)).trans (sbGate_passes hm hr hp))).trans (done_eq rfl rfl rfl)
  · intro mb off n s hn
    exact (congrArg (done s) (if_pos hn)).trans (done_eq rfl rfl rfl)
  · intro mb s hm hp hl hs
    have hb := sbGate_passes (act := fun t => emit (.mctp ccOk []) (ringWrite mb false t)) (off := 0) (n := 0) hm rfl hp
    rw [ringWrite_accepted hl hs] at hb
    refine ⟨_, (congrArg (done s) hb).trans (done_eq rfl rfl rfl), ?_⟩
    have hmb : (emit (.mctp ccOk []) (ringMb mb s)).mb mb = _ := ringMb_mb (mb_locked hl)
    rw [hmb]
    exact ⟨rfl, rfl, rfl⟩
  · intro mb s hm hp hq
    have hb := sbGate_passes (act := fun t => emit (.mctp ccOk []) (cancelWrite mb t)) (off := 0) (n := 0) hm rfl hp
    rw [cancelWrite_queued hq] at hb
    refine ⟨_, (congrArg (done s) hb).trans (done_eq ?_ ?_ ?_), ?_⟩
    · rw [endUntaken_frame]; rfl
    · rw [endUntaken_frame]; rfl
    · rw [endUntaken_frame]; rfl
    · have hmb : (emit (.mctp ccOk []) (endUntaken mb stCancelled true s)).mb mb = _ := endUntaken_mb stCancelled true (queued_exists hq)
      rw [hmb]
      exact ⟨rfl, rfl⟩
  · intro mb s hm
    have hx : exec (.getState mb) s = done s _ := congrArg (done s) (if_pos hm)
    rw [hx, alertSet_sideband hm]
    exact done_eq rfl rfl rfl
  · intro mb s hm hp he
    have hb : wakeHost s = { s with pins := { s.pins with wake := true } } := (if_pos hp).trans (if_pos he)
    have hx : exec (.wakeHost mb) s = done s (emit (.mctp ccOk []) (wakeHost s)) := congrArg (done s) (if_pos hm)
    rw [hx, hb]
    exact done_eq rfl rfl rfl
  · intro mb s hm hp hd
    have hb : wakeHost s = sendPme s := (if_neg (not_not_intro hp)).trans (if_pos hd)
    have hx : exec (.wakeHost mb) s = done s (emit (.mctp ccOk []) (wakeHost s)) := congrArg (done s) (if_pos hm)
    rw [hx, hb]
    exact ⟨_, done_eq rfl rfl rfl, rfl, rfl⟩
  · intro mb s hm hp hd
    have hb : wakeHost s = s := (if_neg (not_not_intro hp)).trans (if_neg hd)
    have hx : exec (.wakeHost mb) s = done s (emit (.mctp ccOk []) (wakeHost s)) := congrArg (done s) (if_pos hm)
    rw [hx, hb]
    exact done_eq rfl rfl rfl
  · intro e s h0 h1
    exact (congrArg (done s) (if_pos ⟨h0, h1⟩)).trans (done_eq rfl rfl rfl)
  · intro e s h
    exact (congrArg (done s) (if_neg (by omega))).trans (done_eq rfl rfl rfl)
  · intro n s h
    exact (congrArg (done s) (if_neg h)).trans (done_eq rfl rfl rfl)

end Sys2Proof.Machine
end

section
/-! PROOF. The fault collector's rows and commands (R438 to R453). -/
namespace Sys2Proof.Machine

/-! ### The first error (R444) -/

theorem captureFault_fc_first (j : Judged) (s : State) :
    (captureFault j s).fc.first = some (s.fc.first.getD (captureOf j (u32 (s.fc.seq + 1)) s)) := by
  have hack : ∀ (b : Prop) [Decidable b] (k : Nat) (u : State), (if b then ackSource k u else u).fc.first = u.fc.first := by
    intro b _ k u
    split
    · rw [ackSource_eq]
    · rfl
  exact hack _ _ _
theorem captureFold_first {c : Capture} (js : List Judged) {s : State} (h : s.fc.first = some c) :
    (js.foldl (fun u j => actOnFault j (captureFault j u)) s).fc.first = some c := by
  induction js generalizing s with
  | nil => exact h
  | cons j js ih =>
    refine ih ?_
    rw [actOnFault_first, captureFault_fc_first, h]; rfl
theorem judgeStep_first (all : List Arrival) (acc : List Judged × State) (a : Arrival) : (judgeStep all acc a).2.fc.first = acc.2.fc.first := by
  unfold judgeStep; dsimp only; split <;> rfl
theorem judgeFold_first (all l : List Arrival) (acc : List Judged × State) : (l.foldl (judgeStep all) acc).2.fc.first = acc.2.fc.first := by
  induction l generalizing acc with
  | nil => rfl
  | cons a l ih => rw [List.foldl_cons, ih, judgeStep_first]
/-- A first error that stands is kept. -/
theorem collect_first_kept {c : Capture} {s : State} (h : s.fc.first = some c) (l : List Arrival) : (collect l s).fc.first = some c :=
  captureFold_first _ ((judgeFold_first _ _ ([], s)).trans h)
theorem lastKiln_first_kept {c : Capture} {s : State} (h : s.fc.first = some c) (b : State) : (lastKiln b s).fc.first = some c := by
  unfold lastKiln; split
  · exact collect_first_kept h _
  · exact h
theorem raiseAll_first_kept {c : Capture} {s : State} (h : s.fc.first = some c) (fs : List FaultIn) : (raiseAll fs s).fc.first = some c :=
  lastKiln_first_kept (collect_first_kept h _) s

/-- The only fault of a cycle is the first error where none stood. -/
theorem collect_singleton_first {a : Arrival} {s : State} (h : a.f.source < 512 ∧ s.srcPresent a.f.source = true) (hn : s.fc.first = none) :
    ∃ c, (collect [a] s).fc.first = some c ∧ c.source = a.f.source ∧ c.ft = s.now := by
  obtain ⟨j, rfl, hc⟩ := collect_singleton h
  rw [hc, actOnFault_first, captureFault_fc_first, judgeStep_first, show s.fc.first = none from hn]
  have hw := (judgeStep_frame [j.a] ([], s) j.a).hw
  exact ⟨_, rfl, rfl, by simp only [Option.getD_none, captureOf, State.now, hw]⟩
theorem raise_first_captured {f : FaultIn} {s : State} (h : f.source < 512 ∧ s.srcPresent f.source = true) (hn : s.fc.first = none) :
    ∃ c, (raise f s).fc.first = some c ∧ c.source = f.source ∧ c.ft = s.now := by
  obtain ⟨c, hc, hs, ht⟩ := collect_singleton_first (a := { f := f }) h hn
  exact ⟨c, lastKiln_first_kept hc s, hs, ht⟩

/-! ### Acknowledgement, PENDING and injections (R440, R446 to R449) -/

theorem collect_nil (s : State) : collect [] s = s := rfl
theorem lastKiln_self (s : State) : lastKiln s s = s := by unfold lastKiln; cases s.kilns <;> rfl
theorem mem_pendingBits_iff {i k : Nat} {v : W32} : k ∈ pendingBits i v ↔ k / 32 = i ∧ v.getLsbD (k % 32) = true := by
  constructor
  · intro h
    obtain ⟨b, hb, rfl⟩ := List.mem_map.mp h
    obtain ⟨hlt, hv⟩ := List.mem_filter.mp hb
    have hlt := List.mem_range.mp hlt
    rw [show (32 * i + b) / 32 = i by omega, show (32 * i + b) % 32 = b by omega]
    exact ⟨rfl, hv⟩
  · rintro ⟨rfl, hv⟩
    have := mem_pendingBits (i := k / 32) (Nat.mod_lt k (by decide)) hv
    rwa [Nat.div_add_mod] at this

/-- Acknowledgements alone, where no fault coincides. -/
theorem ackThen_nil (ks : List Nat) (s : State) : ackThen ks [] s = ks.foldl (fun t k => ackSource k t) s := raiseAll_nil _
theorem src_ackThen_nil (ks : List Nat) (k : Nat) (s : State) :
    (ackThen ks [] s).src k = if k ∈ ks then { s.src k with episode := none } else s.src k := by rw [ackThen_nil, src_foldl_ackSource]
theorem done_ackThen_nil (ks : List Nat) (s : State) : done s (ackThen ks [] s) = .next (ackThen ks [] s) := by
  rw [ackThen_nil]
  exact done_eq_of_fatal (by rw [foldl_ackSource_eq]) (by rw [foldl_ackSource_eq]) (by rw [foldl_ackSource_eq])
theorem exec_pendingWrite {i : Nat} (h : i < 16) (v : W32) (s : State) : exec (.pendingWrite i v []) s = .next (ackThen (pendingBits i v) [] s) :=
  (congrArg (fun ks => done s (ackThen ks [] s)) (if_pos h)).trans (done_ackThen_nil _ s)

theorem autoAckBody_acks {k : Nat} {s : State} (ha : (s.src k).autoAck = true) (hr : ¬ s.dev.restarting = true) (hv : ¬ s.dev.activating = true)
    (hq : ¬ s.fc.queue.any (fun c => c.source == k) = true) : autoAckBody k s = ackSource k s := if_pos ⟨ha, hr, hv, hq⟩

section
variable {k : Nat} {s : State} {i : Injection}

theorem injectionBody_none (h : s.fc.injections.find? (fun i => i.source == k && i.fromTurn ≤ s.hw.turn) = none) : injectionBody k [] s = s := by
  simp only [injectionBody, h, List.map_nil, collect_nil, lastKiln_self]
/-- The arrival of an injection. -/
def Injection.arrival (i : Injection) (k : Nat) : Arrival := { f := { source := k, loc := some i.loc, addr := i.addr }, injected := true, live := i.live }
theorem injectionBody_applies (h : s.fc.injections.find? (fun i => i.source == k && i.fromTurn ≤ s.hw.turn) = some i) (hl : ¬ i.live = true) :
    injectionBody k [] s = if i.left ≤ 1 then endInjection k (lastKiln s (collect [i.arrival k] s))
      else (lastKiln s (collect [i.arrival k] s)).onFc fun c =>
        { c with injections := mapIf c.injections (fun x => x.source == k) (fun x => { x with left := x.left - 1 }) } := by
  simp only [injectionBody, h]
  rw [if_neg (fun hc => hl hc.1)]
  rfl
theorem injectionBody_fatal (h : s.fc.injections.find? (fun i => i.source == k && i.fromTurn ≤ s.hw.turn) = some i) (hl : i.live = true)
    (hw : 5 ≤ (s.src k).wouldBe) : injectionBody k [] s = recordConfig 0x0B04 (leBytes 2 k) (endInjection k s) := by
  simp only [injectionBody, h]
  rw [if_pos ⟨hl, hw⟩, List.map_nil, collect_nil, lastKiln_self]
theorem endInjection_none (x : Injection) (hx : x ∈ (endInjection k s).fc.injections) : x.source ≠ k := by
  simpa using (List.mem_filter.mp hx).2
end

/-- Settles O45: by the fold over the arrivals, which keeps a first error and captures the only fault where none stood. -/
theorem faultEffects : Obligations.FaultEffects := by
  unfold Obligations.FaultEffects
  refine ⟨?_, ?_, ?_, ?_, ?_, fun s => (congrArg (done s) (raiseAll_nil _)).trans (done_eq_of_fatal rfl rfl rfl), ?_, ?_, ?_, ?_, ?_, ?_⟩
  · intro f s hk hp hn
    obtain ⟨c, hc, hs, ht⟩ := raise_first_captured ⟨hk, hp⟩ hn
    exact ⟨_, rfl, c, hc, hs, ht⟩
  · intro l c s hc
    exact ⟨_, rfl, raiseAll_first_kept hc l⟩
  · intro s
    exact (congrArg (done s) (raiseAll_nil s)).trans (done_self s)
  · intro i v k s hi _
    refine ⟨_, exec_pendingWrite hi v s, fun hb => ?_, fun hb => ?_⟩
    · rw [src_ackThen_nil, if_pos (mem_pendingBits_iff.mpr hb)]
    · rw [src_ackThen_nil, if_neg fun h => hb (mem_pendingBits_iff.mp h)]
  · intro i v s hi
    have hb : execPendingWrite i v [] s = done s (ackThen [] [] s) := congrArg (fun ks => done s (ackThen ks [] s)) (if_neg (by omega))
    exact hb.trans ((congrArg (done s) (raiseAll_nil s)).trans (done_self s))
  · intro f s hk hp
    obtain ⟨c, hc, hs, -⟩ := raise_first_captured (f := f) (s := s.onFc fun c => { c with first := none }) ⟨hk, hp⟩ rfl
    exact ⟨_, rfl, c, hc, hs⟩
  · intro k s ha hr hv hq
    have hx : exec (.autoAck k) s = done s (ackSource k s) := congrArg (done s) (autoAckBody_acks ha hr hv hq)
    refine ⟨_, hx.trans (done_eq_of_fatal ?_ ?_ ?_), ?_, fun j hj => ?_⟩
    · rw [ackSource_eq]
    · rw [ackSource_eq]
    · rw [ackSource_eq]
    · rw [src_ackSource, if_pos rfl]
    · rw [src_ackSource, if_neg hj]
  · intro k s h
    exact (congrArg (done s) (if_neg fun ⟨ha, hr, hv, _⟩ => h.elim (fun h => h ha) (fun h => h.elim hr hv))).trans (done_self s)
  · intro k i s hf hl hk hp
    have hc : (lastKiln s (collect [i.arrival k] s)).fc.first.isSome := by
      obtain ⟨c, hc⟩ := Option.isSome_iff_exists.mp (collect_first (l := [i.arrival k]) (s := s) ⟨_, List.mem_singleton_self _, hk, hp⟩)
      exact Option.isSome_iff_exists.mpr ⟨c, lastKiln_first_kept hc s⟩
    refine ⟨_, congrArg (done s) (injectionBody_applies hf hl), ?_, fun h1 x hx => ?_⟩
    · show ((if i.left ≤ 1 then _ else _ : State).fc.first).isSome
      split
      · exact hc
      · exact hc
    · rw [if_pos h1] at hx
      exact endInjection_none x hx
  · intro k i s hf hl hw
    exact ⟨_, congrArg (done s) (injectionBody_fatal hf hl hw), rfl, endInjection_none⟩
  · intro k s hf
    exact (congrArg (done s) (injectionBody_none hf)).trans (done_self s)

/-! ### The fault commands (R450 to R453) -/

/-- The inline response of FAULT_GET: the collector's registers and the first error (R450). -/
def faultGetInline (s : State) : Bytes :=
  ((List.range 8).map (fun i => leBytes 4 ((fcReg (4 * i) s).getD 0))).flatten ++ (match s.fc.first with | some c => c.bytes | none => leBytes 48 0)
theorem faultGetAct_eq (mb : Nat) (s : State) (m : Mci) : faultGetAct mb (s.mb mb) { s with mci := m } = mciOk mb (faultGetInline s)
    (((List.range (faultGetFields (s.mb mb)).2.1).map (fun i => faultEntry s ((faultGetFields (s.mb mb)).1 + i))).flatten) { s with mci := m } := rfl
/-- A response and a CONFIG happening leave the sources alone. -/
theorem src_reported (mb op : Nat) (a b p : Bytes) (s : State) (k : Nat) : (mciOk mb a b (recordConfig op p s)).src k = s.src k := src_congr rfl k
theorem injectFields_mci (s : State) (m : Mci) (x : Mailbox) : injectFields { s with mci := m } x = injectFields s x := by
  have hl : ∀ k, injectLoc { s with mci := m } k = injectLoc s k := fun k => rfl
  simp only [injectFields, hl]
  rfl
theorem injectAct_eq (mb : Nat) (x : Mailbox) (s : State) (m : Mci) : injectAct mb x { s with mci := m } =
    mciOk mb [] [] { s with mci := m, fc := { s.fc with injections := s.fc.injections ++ [(injectFields s x).1] } } := by
  rw [← injectFields_mci s m x]; rfl
theorem src_faultSet (k v a : Nat) (s : State) :
    (onSrc k (fun x => { x with next := some v, autoAckNext := some (a == 1) }) s).src k = { s.src k with next := some v, autoAckNext := some (a == 1) } := by
  rw [src_onSrc rfl, if_pos rfl]
theorem pendingSrcs_mem {k : Nat} {s : State} (h : (s.src k).episode ≠ none) : k ∈ s.pendingSrcs.map (·.id) := by
  cases hf : s.fc.srcs.find? (fun x => x.id == k) with
  | none => exact absurd (by simp [State.src, hf]) h
  | some x =>
    have hid : x.id = k := by simpa using List.find?_some hf
    have hx : s.src k = x := by simp [State.src, hf]
    rw [hx] at h
    exact List.mem_map.mpr ⟨x, List.mem_filter.mpr ⟨List.mem_of_find?_eq_some hf, Option.isSome_iff_ne_none.mpr h⟩, hid⟩

/-- What FAULT_ACK leaves, where no fault coincides: its response, and the acknowledged sources. -/
theorem faultAck_completes {mb : Nat} {s : State} {ks : List Nat} {P : State → Prop} (h : planRuns mb 0x0B02 s (faultAckPlan s) = true)
    (hact : ∀ m, faultAckAct mb [] (s.mb mb) { s with mci := m } = mciOk mb (leBytes 4 ks.length) [] (ackThen ks [] { s with mci := m }))
    (hp : ∀ t, (∀ k, t.src k = if k ∈ ks then { s.src k with episode := none } else s.src k) → P t) :
    ∃ t, exec (.faultAck mb []) s = .next t ∧ Succeeds mb (leBytes 4 ks.length) [] t ∧ P t := by
  refine row_completes h fun m hm => ?_
  rw [hact]
  have he : ackThen ks [] { s with mci := m } = { s with mci := m, fc := (ackThen ks [] { s with mci := m }).fc } := by
    rw [ackThen_nil, foldl_ackSource_eq]
  refine ⟨_, rfl, hm.succeeds ?_ _ _, hp _ fun k => ?_⟩
  · rw [he]
  · exact src_ackThen_nil ks k { s with mci := m }

/-- Settles O46: by the effect of each command on the collector. -/
theorem faultCommandEffects : Obligations.FaultCommandEffects := by
  unfold Obligations.FaultCommandEffects
  refine ⟨?_, ?_, ?_, ?_, ?_⟩
  · intro mb s h
    obtain ⟨t, ht, hf, hs⟩ := row_reports h (faultGetAct_eq mb s)
    exact ⟨t, ht, hf, _, hs⟩
  · intro mb a p s h hf
    have hlen : s.pendingSrcs.length = (s.pendingSrcs.map (·.id)).length := (List.length_map _).symm
    rw [hlen]
    refine faultAck_completes h (fun m => by simp only [faultAckAct, hf]; rfl) fun t ht k => ?_
    rw [ht]
    split
    · rfl
    · next hk => exact Classical.not_not.mp fun hn => hk (pendingSrcs_mem hn)
  · intro mb a p s h hf
    have hlen : (if (s.src a).episode.isSome then 1 else 0) = (if (s.src a).episode.isSome then [a] else []).length := by split <;> rfl
    rw [hlen]
    refine faultAck_completes h (fun m => by simp only [faultAckAct, hf]; rfl) fun t ht => ⟨?_, fun k hk => ?_⟩
    · rw [ht]
      cases he : (s.src a).episode with
      | none => simp [he]
      | some e => simp
    · rw [ht, if_neg]
      split
      · simpa using hk
      · simp
  · intro mb k v a p s h hf
    refine row_completes h fun m hm => ?_
    have ha : faultSetAct mb (s.mb mb) { s with mci := m } = mciOk mb [] [] (recordConfig 0x0B03 (leBytes 2 k ++ leBytes 1 v ++ leBytes 1 a)
        (onSrc k (fun x => { x with next := some v, autoAckNext := some (a == 1) }) { s with mci := m })) := by
      have hf' : faultSetFields { s with mci := m } (s.mb mb) = (k, v, a, p) := hf
      simp only [faultSetAct, hf']
    rw [ha]
    have hsrc := src_faultSet k v a { s with mci := m }
    generalize hu : onSrc k (fun x => { x with next := some v, autoAckNext := some (a == 1) }) { s with mci := m } = u at hsrc
    have hfr : u.mci = m ∧ u.pending = s.pending ∧ u.hw = s.hw ∧ u.fc.fatal = s.fc.fatal := by rw [← hu]; exact ⟨rfl, rfl, rfl, rfl⟩
    obtain ⟨hmci, hp, hh, hft⟩ := hfr
    refine ⟨_, done_eq_of_fatal hp hh hft, hm.succeeds hmci [] [], ?_, ?_⟩
    · rw [src_reported, hsrc]
    · rw [src_reported, hsrc]; rfl
  · intro mb s h
    refine row_completes h fun m hm => ?_
    rw [injectAct_eq]
    generalize (injectFields s (s.mb mb)).1 = i
    exact ⟨_, done_eq_of_fatal rfl rfl rfl, hm.succeeds rfl _ _, rfl⟩

end Sys2Proof.Machine
end

section
/-! PROOF. The device commands (R383 to R387). -/
namespace Sys2Proof.Machine

theorem setConfigAct_eq {mb : Nat} {x : Mailbox} {s : State} {l v i : Nat} {name : Bytes} {p : Parse} (h : setConfigFields s x = (l, v, i, name, p)) (m : Mci) :
    setConfigAct mb x { s with mci := m } =
      mciOk mb (leBytes 1 l ++ leBytes 1 0 ++ leBytes 2 v ++ leBytes 2 i ++ leBytes 2 0 ++ padTo 32 name) []
        (recordConfig 0x0103 (leBytes 1 l ++ leBytes 1 0 ++ leBytes 2 v ++ leBytes 2 i ++ leBytes 2 0 ++ padTo 32 name)
          { s with mci := m, pol := { s.pol with name := trimZeros name },
                   polNext := { s.polNext with lenSel := l, subVendor := storedId v, subId := storedId i, name := trimZeros name } }) := by
  have h' : setConfigFields { s with mci := m } x = (l, v, i, name, p) := h
  simp only [setConfigAct, h']

/-! ### UNIT_CONTROL (R22 to R25, R387) -/

/-- A self-test that failed is what the response says. -/
def State.selfTestFailed (s : State) (mb : Nat) : Bool := match (s.mb mb).staged with | some r => r.status == stConflict && r.errDetail == 2 | none => false
theorem unitControl_eq {mb : Nat} {ok : Bool} {s t : State} (h : mciRun mb 0x0105 s (unitPlan ok s) (unitAct mb) = t) :
    unitControl mb ok s = if s.mbReady mb 0x0105 = true ∧ t.selfTestFailed mb = true then t.onTst fun x => { x with mbistFails := bump x.mbistFails } else t := by
  rw [← h]; rfl
/-- A UNIT_CONTROL that runs on has no self-test that failed. -/
theorem selfTestFailed_of_inProgress {mb : Nat} {s : State} (h : InProgress mb s) : s.selfTestFailed mb = false := by
  unfold State.selfTestFailed
  rw [h.2]
theorem selfTestFailed_of_succeeds {mb : Nat} {s : State} {a b : Bytes} (h : Succeeds mb a b s) : s.selfTestFailed mb = false := by
  obtain ⟨⟨r, hr, hle⟩, -⟩ := h
  have : r.status ≠ stConflict := by intro he; rw [he] at hle; exact absurd hle (by decide)
  simp [State.selfTestFailed, hr, this]
/-- Where its checks pass and its self-test has not failed, UNIT_CONTROL has the effect of its action. -/
theorem unitControl_completes {mb : Nat} {ok : Bool} {s : State} {P : State → Prop} (h : planRuns mb 0x0105 s (unitPlan ok s) = true)
    (hact : ∀ m, Started mb s m → ∃ t, unitAct mb (s.mb mb) { s with mci := m } = t ∧ t.selfTestFailed mb = false ∧ done s t = .next t ∧ P t) :
    ∃ t, exec (.unitControl mb ok) s = .next t ∧ P t := by
  obtain ⟨m, hm, he⟩ := row_runs (unitAct mb) h
  obtain ⟨t, ht, hf, hd, hp⟩ := hact m hm
  have hb : unitControl mb ok s = t := (unitControl_eq (he.trans ht)).trans (if_neg (by simp [hf]))
  exact ⟨t, (congrArg (done s) hb).trans hd, hp⟩

section
variable {mb : Nat} {x : Mailbox} {s : State} {k i : Nat} {p : Parse}

theorem unitAct_fence (h : unitFields x = (k, i, 1, p)) (hc : (setKiln i false s).kilnChanging i = true) : unitAct mb x s = setKiln i false s := by
  simp only [unitAct, h]; rw [if_pos hc]
theorem unitAct_return (h : unitFields x = (k, i, 2, p)) (hc : (setKiln i true s).kilnChanging i = true) : unitAct mb x s = setKiln i true s := by
  simp only [unitAct, h]; rw [if_pos hc]
theorem unitAct_report (h : unitFields x = (k, i, 4, p)) : unitAct mb x s = mciOk mb (unitBytes (s.unitResult k i) s) [] s := by
  simp only [unitAct, h]
theorem unitAct_retrainPort (h : unitFields x = (2, i, 3, p)) (hp : (s.port i).power = true) : unitAct mb x s = retrainPort i s := by
  simp only [unitAct, h]; rw [if_pos hp]
theorem unitAct_retrainSlip (h : unitFields x = (3, i, 3, p)) : unitAct mb x s = retrainSlip s := by
  simp only [unitAct, h]
end

theorem port_retrainPort {i : Nat} {s : State} (h : i < s.arr.ports.length) :
    (retrainPort i s).port i = { s.port i with up := false, training := true } := nth_nthMod_self _ _ _ _ h

/-- Settles O36: by the effect of each command; UNIT_CONTROL by its action. -/
theorem deviceCommandEffects : Obligations.DeviceCommandEffects := by
  unfold Obligations.DeviceCommandEffects
  refine ⟨?_, ?_, ?_, ?_, ?_, ?_, ?_, ?_, ?_⟩
  · intro mb s h
    exact row_reports h fun m => rfl
  · intro mb s h
    exact row_reports h fun m => rfl
  · intro mb l v i name p s h hf
    refine row_completes h fun m hm => ?_
    rw [setConfigAct_eq hf]
    exact ⟨_, done_eq rfl rfl rfl, rfl, rfl, hm.succeeds rfl _ _⟩
  · intro mb ok i p s h hf hs hc
    refine unitControl_completes h fun m hm => ⟨_, unitAct_fence hf hc, ?_, done_eq rfl rfl rfl, rfl, ?_⟩
    · exact selfTestFailed_of_inProgress (inProgress_of_mci (hm.inProgress hs) rfl)
    · exact inProgress_of_mci (hm.inProgress hs) rfl
  · intro mb ok i p s h hf hs hc
    refine unitControl_completes h fun m hm => ⟨_, unitAct_return hf hc, ?_, done_eq rfl rfl rfl, rfl, ?_⟩
    · exact selfTestFailed_of_inProgress (inProgress_of_mci (hm.inProgress hs) rfl)
    · exact inProgress_of_mci (hm.inProgress hs) rfl
  · intro mb ok k i p s h hf
    refine unitControl_completes h fun m hm => ⟨_, unitAct_report hf, ?_, done_eq rfl rfl rfl, rfl, ?_⟩
    · exact selfTestFailed_of_succeeds (hm.succeeds rfl _ _)
    · exact hm.succeeds rfl _ _
  · intro mb ok i p s h hf hs hl hp
    refine unitControl_completes h fun m hm => ⟨_, unitAct_retrainPort hf hp, ?_, done_eq rfl rfl rfl, ?_⟩
    · exact selfTestFailed_of_inProgress (inProgress_of_mci (hm.inProgress hs) rfl)
    · rw [port_retrainPort (s := { s with mci := m }) hl]
      exact ⟨rfl, rfl, inProgress_of_mci (hm.inProgress hs) rfl⟩
  · intro mb ok i p s h hf hs
    refine unitControl_completes h fun m hm => ⟨_, unitAct_retrainSlip hf, ?_, done_eq rfl rfl rfl, rfl, ?_⟩
    · exact selfTestFailed_of_inProgress (inProgress_of_mci (hm.inProgress hs) rfl)
    · exact inProgress_of_mci (hm.inProgress hs) rfl
  · intro mb s hr hn hb ho ha hf
    have hl : mb < s.mci.mbs.length := by
      simp only [State.mbReady, Bool.and_eq_true, decide_eq_true_eq, beq_iff_eq] at hr
      exact mb_exists (by rw [hr.1.1.2]; decide)
    generalize hu : onMb mb (fun m => { m with adj := m.adj ++ (unitPlan false s (s.mb mb)).p.adj }) s = u
    have hlu : mb < u.mci.mbs.length := by rw [← hu, onMb_length]; exact hl
    have hrun : mciRun mb 0x0105 s (unitPlan false s) (unitAct mb) = mciFail mb stConflict 0 2 u := by
      simp only [mciRun, hr, if_true, runPlan, hn, hb, hf, hu]
      rw [if_neg (by simpa using ho), if_neg (not_not_intro ha)]
    have hmb := mciFail_mb stConflict 0 2 hlu
    have hfail : (mciFail mb stConflict 0 2 u).selfTestFailed mb = true := by
      unfold State.selfTestFailed; rw [hmb]; rfl
    have hx : exec (.unitControl mb false) s = done s ((mciFail mb stConflict 0 2 u).onTst fun x => { x with mbistFails := bump x.mbistFails }) :=
      congrArg (done s) ((unitControl_eq hrun).trans (if_pos ⟨hr, hfail⟩))
    refine ⟨_, hx, ?_, ?_⟩
    · show bump (mciFail mb stConflict 0 2 u).tst.mbistFails = _
      rw [mciFail_frame, ← hu]; rfl
    · show ∃ r, ((mciFail mb stConflict 0 2 u).mb mb).staged = some r ∧ _
      rw [hmb]; exact ⟨_, rfl, rfl⟩

end Sys2Proof.Machine
end

section
/-! PROOF. Firing Records, quotes and the certificate (R468 to R473, R484, R485), firmware slots and activation (R463, R474 to
R476, R486 to R488). -/
namespace Sys2Proof.Machine

/-! ### Records -/

theorem recordSigned_eq {k : Nat} {l : List Nat} {s : State} (h : s.sec.recordDue = k :: l) : recordSigned s =
    (s.onSec fun x => { x with records := (x.records ++ [s.nextRecord k]).drop (x.records.length - 255), recordSeq := x.recordSeq + 1, bootAttempts := 0,
                               nonce := none, recordDue := l }).onDev fun d => { d with recordSigned := d.recordSigned || k == 0 } := by
  simp only [recordSigned, h]
/-- A list with one more element, its first ones dropped so that 256 stay, ends with that element. -/
theorem getLast?_ring {α : Type} (l : List α) (a : α) : ((l ++ [a]).drop (l.length - 255)).getLast? = some a := by
  rw [List.drop_append_of_le_length (Nat.sub_le _ _), List.getLast?_concat]

theorem recordGetAct_mci (mb : Nat) (x : Mailbox) (s : State) : ∃ i o u, recordGetAct mb x s = mciOk mb i o u ∧ u =
    (match (recordFields x).2.1 with
      | 2 => s.onSec fun y => { y with nonce := some (BitVec.ofNat 256 (recordFields x).2.2.2.1) }
      | 3 => s.onSec fun y => { y with nonce := none }
      | _ => s) := ⟨_, _, _, rfl, rfl⟩

/-- The quote is the same whatever the mailboxes hold. -/
theorem quoteAct_mci (mb : Nat) (a b : Bytes) (s : State) (m : Mci) :
    mciOk mb [] (quoteBody { s with mci := m } a b ++ padTo 17088 (Config.signs (quoteBody { s with mci := m } a b))) { s with mci := m } =
      mciOk mb [] (quoteBody s a b ++ padTo 17088 (Config.signs (quoteBody s a b))) { s with mci := m } := by
  have hp : highestPending { s with mci := m } = highestPending s := rfl
  have hn : State.now { s with mci := m } = s.now := rfl
  have hu : State.unitService { s with mci := m } = s.unitService := rfl
  have hq : quoteBody { s with mci := m } a b = quoteBody s a b := by simp only [quoteBody, hp, hn, hu]
  rw [hq]

/-- Settles O42: a record that is due is signed; the commands report, and an action on the nonce is all that FIRING_RECORD_GET changes. -/
theorem recordEffects : Obligations.RecordEffects := by
  unfold Obligations.RecordEffects
  refine ⟨?_, ?_, ?_, ?_, ?_, ?_, ?_⟩
  · intro s h
    have : recordSigned s = s := by simp only [recordSigned, h]
    exact (congrArg (done s) this).trans (done_self s)
  · intro k l s h
    refine ⟨_, (congrArg (done s) (recordSigned_eq h)).trans (done_eq rfl rfl rfl), ?_, rfl, rfl, rfl, rfl, fun hl => ?_⟩
    · simp only [State.onDev_sec, State.onSec_sec]
      exact getLast?_ring _ _
    · simp only [State.onDev_sec, State.onSec_sec]
      rw [List.length_drop, List.length_append, List.length_singleton]
      omega
  · intro mb sel q n p s h hf
    refine row_completes h fun m hm => ?_
    obtain ⟨i, o, u, ha, hu⟩ := recordGetAct_mci mb (s.mb mb) { s with mci := m }
    rw [hf] at hu
    rw [ha, hu]
    exact ⟨_, done_eq rfl rfl rfl, rfl, i, o, hm.succeeds rfl i o⟩
  · intro mb sel q n p s h hf
    refine row_completes h fun m hm => ?_
    obtain ⟨i, o, u, ha, hu⟩ := recordGetAct_mci mb (s.mb mb) { s with mci := m }
    rw [hf] at hu
    rw [ha, hu]
    exact ⟨_, done_eq rfl rfl rfl, rfl, i, o, hm.succeeds rfl i o⟩
  · intro mb q n p s h hf
    refine row_completes h fun m hm => ?_
    have ha : ∃ i, recordGetAct mb (s.mb mb) { s with mci := m } =
        mciOk mb i (((s.sec.records.drop (s.sec.records.length - 1)).map fireBytes).flatten) { s with mci := m } := by
      simp only [recordGetAct, hf]
      exact ⟨_, rfl⟩
    obtain ⟨i, ha⟩ := ha
    rw [ha]
    exact ⟨_, done_eq rfl rfl rfl, rfl, i, hm.succeeds rfl i _⟩
  · intro mb s h
    exact row_reports h fun m => quoteAct_mci mb _ _ s m
  · intro mb s h
    exact row_reports h fun m => rfl

/-! ### Firmware slots -/

theorem slot_onFlash_self (b : Bool) (f : FlashSlot → FlashSlot) (s : State) : (onFlash b f s).sec.slot b = f (s.sec.slot b) := by
  cases b <;> rfl
theorem onFlash_mci (b : Bool) (f : FlashSlot → FlashSlot) (s : State) : onFlash b f s = { s with sec := (onFlash b f s).sec } := rfl

/-- The first chunk of a download. -/
theorem writeChunk_first {data : Bytes} {s : State} (h : data ≠ []) : ((writeChunk 0 data s).sec.slot s.target).st = 1 ∧
    ((writeChunk 0 data s).sec.slot s.target).written = data.length ∧ writeChunk 0 data s = { s with sec := (writeChunk 0 data s).sec, out := (writeChunk 0 data s).out } := by
  simp only [writeChunk, if_neg h, if_true, true_and]
  generalize hu : (if (s.sec.trialFlag = true ∧ s.sec.preferredB = s.target) then _ else _ : State) = u
  have hs : u.sec.slot s.target = { s.sec.slot s.target with st := 1, chunk0 := true, written := 0 } ∧ u = { s with sec := u.sec } := by
    rw [← hu]
    split
    · exact ⟨slot_onFlash_self s.target (fun x => { x with st := 1, chunk0 := true, written := 0 }) s, rfl⟩
    · exact ⟨slot_onFlash_self s.target (fun x => { x with st := 1, chunk0 := true, written := 0 }) s, rfl⟩
  obtain ⟨hslot, hfr⟩ := hs
  have hw : (emit (.flashWrite (flag s.target 0) 0 data) (onFlash s.target (fun x => { x with written := x.written + data.length }) u)).sec.slot s.target =
      { s.sec.slot s.target with st := 1, chunk0 := true, written := 0 + data.length } := by
    refine (slot_onFlash_self s.target (fun x => { x with written := x.written + data.length }) u).trans ?_
    rw [hslot]
  refine ⟨?_, ?_, ?_⟩
  · rw [hw]
  · rw [hw]; exact Nat.zero_add _
  · rw [hfr]; rfl

/-- A final download without a chunk: the target is checked, and becomes VALID or INVALID. -/
def finalChecked (r : Nat) (man : Manifest) (s : State) : State :=
  (onFlash s.target (fun x => { x with st := if r = 0 then 2 else 0, m := if r = 0 then man else x.m, chunk0 := false }) s).onSec fun x => { x with lastFinal := r }
theorem recoveryImage_sec (s : State) : (recoveryImage s).sec.slotA = s.sec.slotA ∧ (recoveryImage s).sec.slotB = s.sec.slotB ∧
    (recoveryImage s).sec.lastFinal = s.sec.lastFinal ∧ recoveryImage s = { s with sec := (recoveryImage s).sec, dev := (recoveryImage s).dev } := by
  unfold recoveryImage; split <;> exact ⟨rfl, rfl, rfl, rfl⟩
/-- In recovery boot a target found VALID is booted. -/
def finalImage (r : Nat) (man : Manifest) (s : State) : State := if r = 0 then recoveryImage (finalChecked r man s) else finalChecked r man s
theorem finalImage_spec (r : Nat) (man : Manifest) (s : State) : ((finalImage r man s).sec.slot s.target).st = (if r = 0 then 2 else 0) ∧
    (finalImage r man s).sec.lastFinal = r ∧ finalImage r man s = { s with sec := (finalImage r man s).sec, dev := (finalImage r man s).dev } := by
  have hc : ((finalChecked r man s).sec.slot s.target).st = (if r = 0 then 2 else 0) :=
    congrArg FlashSlot.st (slot_onFlash_self s.target (fun x => { x with st := if r = 0 then 2 else 0, m := if r = 0 then man else x.m, chunk0 := false }) s)
  by_cases hr : r = 0
  · obtain ⟨ha, hb, hl, hf⟩ := recoveryImage_sec (finalChecked r man s)
    have hslot : ∀ b, (recoveryImage (finalChecked r man s)).sec.slot b = (finalChecked r man s).sec.slot b := by
      intro b; simp only [Sec.slot, ha, hb]
    rw [finalImage, if_pos hr, hslot, hc, hl, hf]
    exact ⟨rfl, rfl, rfl⟩
  · rw [finalImage, if_neg hr, hc]
    exact ⟨rfl, rfl, rfl⟩
theorem downloadAct_final {mb o : Nat} {man : Manifest} {bad : Option Nat} {x : Mailbox} {s : State} {p : Parse} (hf : downloadFields x = (o, true, p))
    (hp : x.payload = []) : downloadAct mb man bad x s =
      mciOk mb (leBytes 1 (slotResult s (s.sec.slot s.target) man bad).1 ++ leBytes 1 (slotResult s (s.sec.slot s.target) man bad).2) []
        (finalImage (slotResult s (s.sec.slot s.target) man bad).1 man s) := by
  have hw : writeChunk o [] s = s := if_pos rfl
  simp only [downloadAct, hf, hp, hw]
  rfl

/-- What an activation that starts, or waits, keeps. -/
theorem startActivation_spec {mb : Nat} {s : State} (hm : s.mci.activationMb = some mb) (ha : s.mci.activation = 1) :
    (startActivation s).mci.activationMb = some mb ∧ ((startActivation s).mci.activation = 1 ∨ (startActivation s).mci.activation = 2 ∧ (startActivation s).dev.activating = true) ∧
    startActivation s = { s with mci := { s.mci with activation := (startActivation s).mci.activation }, dev := (startActivation s).dev } := by
  have hb : startActivation s = if s.mci.activation = 1 ∧ ¬ s.liveOp = true ∧ s.othersExecuting mb = [] then
      (s.onMci fun c => { c with activation := 2 }).onDev fun d => { d with activating := true } else s := by
    simp only [startActivation, hm]
  rw [hb]
  split
  · exact ⟨hm, .inr ⟨rfl, rfl⟩, rfl⟩
  · exact ⟨hm, .inl ha, rfl⟩

/-- A mailbox outside the list is left alone by commands that end. -/
theorem mciFail_foldl_other {st i : Nat} {l : List Nat} (s : State) (h : i ∉ l) : (l.foldl (fun u j => mciFail j st 0 0 u) s).mb i = s.mb i := by
  induction l generalizing s with
  | nil => rfl
  | cons j l ih =>
    rw [List.mem_cons, not_or] at h
    rw [List.foldl_cons, ih _ h.2, mciFail_mb_ne _ _ _ _ h.1]
/-- A restart leaves a mailbox with a response as it is. -/
theorem beginRestart_staged {i : Nat} {s : State} {r : MbResp} (h : (s.mb i).staged = some r) : (beginRestart s).mb i = s.mb i :=
  mciFail_foldl_other s (by simp [h])
theorem mciFail_foldl_activation (st : Nat) (l : List Nat) (s : State) : (l.foldl (fun u j => mciFail j st 0 0 u) s).mci.activation = s.mci.activation := by
  induction l generalizing s with
  | nil => rfl
  | cons j l ih =>
    rw [List.foldl_cons, ih]
    unfold mciFail; dsimp only; split
    · rfl
    · split <;> rfl
theorem beginRestart_activation (s : State) : (beginRestart s).mci.activation = s.mci.activation := mciFail_foldl_activation _ _ s
theorem beginRestart_activating (s : State) : (beginRestart s).dev.activating = s.dev.activating :=
  (congrArg (fun t => t.dev.activating) (mciFail_foldl_frame _ _ s) :)

/-- Settles O43: by the effect of each command, and by the end of a live activation. -/
theorem firmwareEffects : Obligations.FirmwareEffects := by
  unfold Obligations.FirmwareEffects
  refine ⟨?_, ?_, ?_, ?_, ?_, ?_, ?_, ?_, ?_⟩
  · intro mb man bad p s h hf hp
    refine row_completes h fun m hm => ?_
    have ha : downloadAct mb man bad (s.mb mb) { s with mci := m } = mciOk mb [] [] (writeChunk 0 (s.mb mb).payload { s with mci := m }) := by
      simp only [downloadAct, hf]; rfl
    obtain ⟨hst, hwr, hfr⟩ := writeChunk_first (s := { s with mci := m }) hp
    rw [ha]
    generalize writeChunk 0 (s.mb mb).payload { s with mci := m } = u at *
    refine ⟨_, done_eq ?_ ?_ ?_, hm.succeeds ?_ _ _, hst, hwr⟩
    all_goals rw [hfr]
    all_goals rfl
  · intro mb man bad o p s h hf hp
    refine row_completes h fun m hm => ?_
    rw [downloadAct_final hf hp]
    obtain ⟨hst, hlf, hfr⟩ := finalImage_spec (slotResult s (s.sec.slot s.target) man bad).1 man { s with mci := m }
    change ∃ t, done s (mciOk mb _ [] (finalImage (slotResult s (s.sec.slot s.target) man bad).1 man { s with mci := m })) = _ ∧ _
    generalize finalImage (slotResult s (s.sec.slot s.target) man bad).1 man { s with mci := m } = u at *
    refine ⟨_, done_eq ?_ ?_ ?_, hlf, hst, hm.succeeds ?_ _ _⟩
    all_goals rw [hfr]
    all_goals rfl
  · intro mb s h hf
    refine row_completes h fun m hm => ?_
    have ha : activateAct mb (s.mb mb) { s with mci := m } = mciOk mb [] [] (recordSecurity 8 0 s.hw.counters
        ({ s with mci := m }.onSec fun x => { x with preferredB := s.target, trialFlag := true })) := by
      simp only [activateAct, hf]; rfl
    rw [ha]
    exact ⟨_, done_eq rfl rfl rfl, hm.succeeds rfl _ _, rfl⟩
  · intro mb s h hf
    refine row_completes h fun m hm => ?_
    have ha : activateAct mb (s.mb mb) { s with mci := m } = mciOk mb [] [] ({ s with mci := m }.onSec fun x => { x with preferredB := x.bootedB, trialFlag := false }) := by
      simp only [activateAct, hf]
    rw [ha]
    exact ⟨_, done_eq rfl rfl rfl, hm.succeeds rfl _ _, rfl⟩
  · intro mb s h hf hs
    refine row_completes h fun m hm => ?_
    have ha : activateAct mb (s.mb mb) { s with mci := m } = startActivation { s with mci := { m with activation := 1, activationMb := some mb } } := by
      simp only [activateAct, hf]; rfl
    obtain ⟨h1, h2, hfr⟩ := startActivation_spec (s := { s with mci := { m with activation := 1, activationMb := some mb } }) rfl rfl
    rw [ha]
    generalize startActivation { s with mci := { m with activation := 1, activationMb := some mb } } = u at *
    have hmbs : u.mb mb = State.mb { s with mci := m } mb := by rw [hfr]; rfl
    refine ⟨_, done_eq ?_ ?_ ?_, ?_, h1, h2⟩
    · rw [hfr]
    · rw [hfr]
    · rw [hfr]
    · simpa only [InProgress, hmbs] using hm.inProgress hs
  · intro mb s h
    exact row_reports h fun m => rfl
  · intro i s ha hm hl
    have hx : exec .newImageReady s = done s (imageReady s) := congrArg (done s) (if_pos ha)
    rw [hx, imageReady, hm]
    exact ⟨_, done_eq rfl rfl rfl, mciOk_succeeds [] [] hl, rfl, rfl, rfl, rfl, rfl⟩
  · intro s ha
    exact ⟨(congrArg (done s) (if_neg ha)).trans (done_self s), (congrArg (done s) (if_neg ha)).trans (done_self s)⟩
  · intro i s ha hm hl
    have hb : activationFailed s = beginRestart (endActivation (mciFail i stConflict 0 5 s)) := by simp only [activationFailed, hm]
    obtain ⟨hr, -, hp, hh, hf, -⟩ := beginRestart_spec (endActivation (mciFail i stConflict 0 5 s))
    have hstaged : ((endActivation (mciFail i stConflict 0 5 s)).mb i).staged = some (mkResp (s.mb i).adj stConflict 0 5) :=
      congrArg Mailbox.staged (mciFail_mb stConflict 0 5 hl)
    refine ⟨_, ((congrArg (done s) (if_pos ha)).trans (congrArg (done s) hb)).trans (done_eq ?_ ?_ ?_), ?_, beginRestart_activation _, beginRestart_activating _, hr⟩
    · rw [hp]; show (mciFail i stConflict 0 5 s).pending = _; rw [mciFail_frame]
    · rw [hh]; show (mciFail i stConflict 0 5 s).hw = _; rw [mciFail_frame]
    · rw [hf]; show (mciFail i stConflict 0 5 s).fc = _; rw [mciFail_frame]
    · rw [beginRestart_staged hstaged, hstaged]
      exact ⟨_, rfl, rfl, rfl⟩

end Sys2Proof.Machine
end

section
/-! PROOF. Boot steps, trial boots and the start of array recovery (R180 to R185, R463 to R467, R540). -/
namespace Sys2Proof.Machine

/-! ### Recovery leaves the vault's phase alone -/

/-- The vault's phase in `t` is that in `s`. -/
def SamePhase (s t : State) : Prop := t.vault.phase = s.vault.phase
theorem SamePhase.refl (s : State) : SamePhase s s := rfl
theorem SamePhase.trans {s t u : State} (a : SamePhase s t) (b : SamePhase t u) : SamePhase s u := Eq.trans (b : u.vault.phase = _) a
theorem SamePhase.ofVault {s t : State} (h : t.vault = s.vault) : SamePhase s t := congrArg Vault.phase h
theorem SamePhase.ofFault {s t : State} (h : FaultFrame s t) : SamePhase s t := by unfold SamePhase; rw [h.vault]
theorem SamePhase.ofArr {s t : State} (h : ArrOnly s t) : SamePhase s t := .ofVault (by rw [h])
theorem SamePhase.ite {c : Prop} [Decidable c] {s t u : State} (ht : SamePhase s t) (hu : SamePhase s u) : SamePhase s (if c then t else u) := by
  split
  · exact ht
  · exact hu
theorem SamePhase.foldl {α : Type} {f : State → α → State} (h : ∀ u x, SamePhase u (f u x)) (l : List α) (s : State) : SamePhase s (l.foldl f s) := by
  induction l generalizing s with
  | nil => exact .refl s
  | cons x xs ih => exact (h s x).trans (ih _)
/-- The same for a fold that carries the state of a recovery. -/
theorem SamePhase.foldlRec {α : Type} {f : Recover → α → Recover} (h : ∀ w x, SamePhase w.s (f w x).s) (l : List α) (w : Recover) :
    SamePhase w.s (l.foldl f w).s := by
  induction l generalizing w with
  | nil => exact .refl _
  | cons x xs ih => exact (h w x).trans (ih _)

theorem remoteSend_vault (node typ side count key ts lba : Nat) (body : Bytes) (s : State) : (remoteSend node typ side count key ts lba body s).vault = s.vault := rfl
theorem writeRec_samePhase (gen : Nat) (f : Rec → Rec) (s : State) : SamePhase s (writeRec gen f s) := by
  unfold writeRec
  split
  · exact .refl s
  · split
    · exact .refl s
    · extract_lets far mir r own t0 t1 t2
      have p0 : SamePhase s t0 := rfl
      have p1 : SamePhase t0 t1 := .ite rfl (.refl _)
      have p2 : SamePhase t1 t2 := .foldl (fun u n => .ofVault (remoteSend_vault _ _ _ _ _ _ _ _ u)) _ _
      exact ((p0.trans p1).trans p2).trans (.ite (.ofVault (by rw [slipQueue_eq])) (.refl _))
theorem evictClean_samePhase (s : State) : SamePhase s (evictClean s) := by
  unfold evictClean; dsimp only; split <;> rfl
theorem addLine_samePhase (c : Nat) (l : Line) (s : State) : SamePhase s (addLine c l s) := by
  unfold addLine
  extract_lets t
  have p1 : SamePhase s t := .ite (.refl s) (evictClean_samePhase s)
  split
  · exact p1.trans rfl
  · exact p1
theorem openGather_samePhase (array n dg : Nat) (s : State) : SamePhase s (openGather array n dg s) := by
  unfold openGather; split <;> rfl
theorem restoreLine_samePhase (a : Arr) (x : VaultSector) (s : State) : SamePhase s (restoreLine a x s) :=
  (addLine_samePhase _ _ s).trans (openGather_samePhase _ _ _ _)
theorem sliceLost_samePhase (a : Arr) (lbas : List Nat) (s : State) : SamePhase s (sliceLost a lbas s) :=
  SamePhase.trans (by rfl) (.ofFault (raise_frame _ _))
theorem startResync_samePhase (aid : Nat) (d : Desc) (n gen intentGen : Nat) (slices : List (Nat × List RoleSec)) (s : State) :
    SamePhase s (startResync aid d n gen intentGen slices s) := by
  unfold startResync
  split
  · split
    · exact .refl s
    · exact writeRec_samePhase _ _ s
  · rfl
theorem failMissing_samePhase (aid p cause : Nat) (mbs : List Nat) (s : State) : SamePhase s (failMissing aid p cause mbs s) := by
  unfold failMissing
  split
  · exact .refl s
  · exact (SamePhase.ofArr ((onArray_only _ _ s).trans (startMark_only _ _ _ _))).trans ((SamePhase.ofFault (raise_frame _ _)).trans rfl)
theorem openCover_samePhase (r : Rec) (s : State) : SamePhase s (openCover r s) := by
  unfold openCover
  dsimp only
  split
  · exact writeRec_samePhase _ _ s
  · split
    · exact .refl s
    · exact writeRec_samePhase _ _ s
theorem resyncRec_samePhase (take : Bool) (inp : RecoveryInput) (us : List VaultSector) (a : Arr) (r : Rec) (w : Recover) :
    SamePhase w.s (resyncRec take inp us a r w).s := by
  unfold resyncRec
  exact .ite (startResync_samePhase _ _ _ _ _ _ _) ((startResync_samePhase _ _ _ _ _ _ _).trans (sliceLost_samePhase _ _ _))
theorem openLostRec_samePhase (inp : RecoveryInput) (us back : List VaultSector) (a : Arr) (r : Rec) (w : Recover) :
    SamePhase w.s (openLostRec inp us back a r w).s := by
  unfold openLostRec
  extract_lets d lost
  split
  · exact .refl _
  · exact .ite (startResync_samePhase _ _ _ _ _ _ _) ((startResync_samePhase _ _ _ _ _ _ _).trans (sliceLost_samePhase _ _ _))
theorem recoverWith_samePhase (take : Bool) (inp : RecoveryInput) (recs : List Rec) (us back : List VaultSector) (a : Arr) (s : State) :
    SamePhase s (recoverWith take inp recs us back a s) := by
  unfold recoverWith
  extract_lets key s1 s2 lost s3 w0 w1 w2 s4
  have p1 : SamePhase s s1 := rfl
  have p2 : SamePhase s1 s2 := .foldl (fun t x => restoreLine_samePhase a x t) back s1
  have p3 : SamePhase s2 s3 := .ite (SamePhase.trans (by rfl) (.ofFault (raise_frame _ _))) (.refl _)
  have p4 : SamePhase s3 w1.s := .foldlRec (fun w r => resyncRec_samePhase take inp us a r w) _ w0
  have p5 : SamePhase w1.s w2.s := by
    show SamePhase w1.s (if take = true then w1 else _ : Recover).s
    split
    · exact .refl _
    · exact .foldlRec (fun w r => openLostRec_samePhase inp us back a r w) _ w1
  have p6 : SamePhase w2.s s4 := .foldl (fun t r => openCover_samePhase r t) _ _
  exact (((((p1.trans p2).trans p3).trans p4).trans p5).trans p6).trans rfl
theorem recoverArray_samePhase (inp : RecoveryInput) (s : State) : SamePhase s (recoverArray inp s) := by
  unfold recoverArray
  split
  · exact .refl s
  · next a _ =>
    split
    · exact .refl s
    · generalize sourceRecs s a inp = source
      extract_lets missing s1 s2
      have p1 : SamePhase s s1 := .foldl (fun t p => failMissing_samePhase _ p _ _ t) missing s
      have p2 : SamePhase s1 s2 := .ite (.refl _) rfl
      split
      extract_lets s3
      have p3 : SamePhase s2 s3 := .ite (SamePhase.trans (by rfl) (.ofFault (raise_frame _ _))) (.refl _)
      split
      · exact ((p1.trans p2).trans p3).trans (recoverWith_samePhase _ _ _ _ _ _ _)
      · exact (p1.trans p2).trans p3

/-- Array recovery starts: the vault restores, and keeps restoring while each array is recovered. -/
theorem recoveryStart_restoring {s : State} (l : List RecoveryInput) (hr : s.dev.recovering = true) (hb : s.sec.bootStep = 6) (hp : s.pins.resumeDone = true)
    (hs : ¬ s.vault.stopped = true) (hv : s.vault.phase = .idle) : (recoveryStart l s).vault.phase = .restoring := by
  have he : recoveryStart l s = l.foldl (fun t i => recoverArray i t) (s.onVault fun v => { v with phase := .restoring, frozen := false }) :=
    if_pos ⟨hr, hb, hp, hs, hv⟩
  rw [he]
  exact SamePhase.foldl (fun t i => recoverArray_samePhase i t) l _

/-! ### Partitions (R463 to R467) -/

section
variable {p : Nat} {b : Bool} {m : Manifest} {ok : Bool} {ds : List Nat} {g v : Nat} {s : State}

theorem partitionVerified_outOfTurn (h : p ≠ partitionOf s.sec.bootStep) : partitionVerified p b m ok ds g v s = s :=
  if_pos (.inr (.inr (.inr (.inl h))))
/-- A partition that comes in turn, for the slot being tried. -/
theorem partitionVerified_inTurn (hm : s.pins.main = true) (h1 : 1 ≤ s.sec.bootStep) (h5 : s.sec.bootStep ≤ 5) (hp : p = partitionOf s.sec.bootStep)
    (hb : b = s.slotTried) (he : 4 ≤ s.sec.bootStep → ¬ s.tst.extestSeen = true) : partitionVerified p b m ok ds g v s =
      if s.sec.bootStep = 1 ∧ ¬ s.slotValid m = true ∨ ¬ ok = true then bootFailed s
      else if s.sec.bootStep = 1 then s.onSec fun x => { x with bootStep := 2, running := m }
      else if s.sec.bootStep = 5 then releaseControl ds g v s
      else s.onSec fun x => { x with bootStep := s.sec.bootStep + 1 } := by
  refine if_neg ?_
  rintro (h | h | h | h | h | ⟨h, hx⟩)
  · exact h hm
  · omega
  · omega
  · exact h hp
  · exact h hb
  · exact he h hx
theorem bootFailed_first (hr : s.sec.fromRecovery = false) (hf : s.sec.fallback = false) : bootFailed s =
    (s.onSec fun x => { x with bootStep := 1, fallback := true, running := {} }).onDev fun d => { d with trial := false } := if_neg (by simp [hr, hf])
theorem bootFailed_fallback (hf : s.sec.fallback = true) : bootFailed s =
    (s.onSec fun x => { x with bootStep := 0, fallback := false, fromRecovery := false, running := {} }).onDev fun d => { d with recoveryBoot := true, trial := false } :=
  if_pos (.inr hf)

/-- What training the DDR channels changes. -/
theorem trainDdr_frame (failed : List Nat) (gib speed : Nat) (s : State) : trainDdr failed gib speed s =
    { s with sag := (trainDdr failed gib speed s).sag, clk := { s.clk with ddr := (trainDdr failed gib speed s).clk.ddr }, sched := (trainDdr failed gib speed s).sched } := by
  have hf : ∀ (l : List Nat) (u : State), l.foldl (fun u c => wantService (10 + c) true u) u = { u with sched := (l.foldl (fun u c => wantService (10 + c) true u) u).sched } := by
    intro l
    induction l with
    | nil => intro u; rfl
    | cons c l ih => intro u; rw [List.foldl_cons, ih]; rfl
  unfold trainDdr
  dsimp only
  rw [hf]
  rfl
end

/-- Settles O44: by the boot step, and by the fold over the arrays that recover. -/
theorem bootEffects : Obligations.BootEffects := by
  unfold Obligations.BootEffects
  refine ⟨?_, ?_, ?_, ?_, ?_, ?_, ?_, ?_, ?_, ?_, ?_, ?_, ?_, ?_, ?_, ?_⟩
  · intro b m ds g v s hm h1 hb hv
    have hp := partitionVerified_inTurn (p := 1) (m := m) (ok := true) (ds := ds) (g := g) (v := v) hm (by omega) (by omega) (by rw [h1]; rfl) hb (by omega)
    rw [if_neg (by simp [hv]), if_pos h1] at hp
    exact (congrArg (done s) hp).trans (done_eq rfl rfl rfl)
  · intro p b m ds g v s hm h2 h4 hp hb he
    have hp := partitionVerified_inTurn (m := m) (ok := true) (ds := ds) (g := g) (v := v) hm (by omega) (by omega) hp hb (fun _ => he)
    rw [if_neg (by simp; omega), if_neg (by omega), if_neg (by omega)] at hp
    exact (congrArg (done s) hp).trans (done_eq rfl rfl rfl)
  · intro b m ds g v s hm h5 hb he
    have hp := partitionVerified_inTurn (p := 3) (m := m) (ok := true) (ds := ds) (g := g) (v := v) hm (by omega) (by omega) (by rw [h5]; rfl) hb (fun _ => he)
    rw [if_neg (by simp; omega), if_neg (by omega), if_pos h5, releaseControl, trainDdr_frame] at hp
    exact ⟨_, (congrArg (done s) hp).trans (done_eq rfl rfl rfl), rfl, rfl, rfl, rfl⟩
  · intro p b m ds g v s hm h1 h5 hp hb he hr hf
    have hp := partitionVerified_inTurn (m := m) (ok := false) (ds := ds) (g := g) (v := v) hm h1 h5 hp hb (fun _ => he)
    rw [if_pos (by simp), bootFailed_first hr hf] at hp
    exact (congrArg (done s) hp).trans (done_eq rfl rfl rfl)
  · intro p b m ds g v s hm h1 h5 hp hb he hf
    have hp := partitionVerified_inTurn (m := m) (ok := false) (ds := ds) (g := g) (v := v) hm h1 h5 hp hb (fun _ => he)
    rw [if_pos (by simp), bootFailed_fallback hf] at hp
    exact (congrArg (done s) hp).trans (done_eq rfl rfl rfl)
  · intro p b m ok ds g v s h
    exact (congrArg (done s) (partitionVerified_outOfTurn h)).trans (done_self s)
  · intro s ht hb hf
    exact (congrArg (done s) (if_pos ⟨ht, hb, hf⟩)).trans (done_eq rfl rfl rfl)
  · intro s ht
    exact (congrArg (done s) (if_neg fun h => ht h.1)).trans (done_self s)
  · intro a n s hb hr hp
    have hg : progressReport a n s = s.onSec fun x => { x with progress := (a, n) } := if_pos (.inr hp)
    exact ((congrArg (done s) (if_pos ⟨hb, hr⟩)).trans (congrArg (done s) hg)).trans (done_eq rfl rfl rfl)
  · intro a n s hb hr hp
    have hg : progressReport a n s = s := if_neg (by omega)
    exact ((congrArg (done s) (if_pos ⟨hb, hr⟩)).trans (congrArg (done s) hg)).trans (done_self s)
  · intro s ht hf hn ha
    have hd : deadlineExpired s = s.onSec fun x => { x with trialFailed := true } := (if_pos ⟨ht, hf, hn⟩).trans (if_neg fun h => ha h.1)
    exact (congrArg (done s) hd).trans (done_eq rfl rfl rfl)
  · intro s ht hf hn ha hh
    have hd : deadlineExpired s = (s.onSec fun x => { x with trialFailed := true }).onVault fun v => { v with dumpPending := true } :=
      (if_pos ⟨ht, hf, hn⟩).trans (if_pos ⟨ha, hh⟩)
    exact (congrArg (done s) hd).trans (done_eq rfl rfl rfl)
  · intro s hf ha hp hc hs hset hl
    exact (congrArg (done s) (if_pos ⟨hf, ha, hp, hc, hs, hset, hl⟩)).trans (done_eq rfl rfl rfl)
  · intro s hf
    exact (congrArg (done s) (if_neg fun h => hf h.1)).trans (done_self s)
  · intro s hr hb hp hs hv l
    exact ⟨_, rfl, recoveryStart_restoring l hr hb hp hs hv⟩
  · intro l s hr hp
    have he : recoveryStart l s = s := (if_neg fun h => hp h.2.2.1).trans (if_pos hr)
    exact (congrArg (done s) he).trans (done_self s)

end Sys2Proof.Machine
end

section
/-! PROOF. Happenings, temperature and the Kiln Log's commands (R353, R443, R492 to R510, R563). -/
namespace Sys2Proof.Machine

/-! ### A raised fault keeps a first error, and leaves the pins -/

theorem raise_keeps_first {s : State} (f : FaultIn) (h : s.fc.first.isSome) : (raise f s).fc.first.isSome := by
  obtain ⟨c, hc⟩ := Option.isSome_iff_exists.mp h
  exact Option.isSome_iff_exists.mpr ⟨c, raiseAll_first_kept hc [f]⟩
theorem raise_thermtrip (f : FaultIn) (s : State) : (raise f s).pins.thermtrip = s.pins.thermtrip := by rw [(raise_frame f s).pins]

/-! ### The time hint survives a happening (R502) -/

/-- The fields of the Kiln Log that hold the host's time. -/
structure SameHint (k k' : Klog) : Prop where
  value : k'.hintValue = k.hintValue
  ft : k'.hintFt = k.hintFt
  valid : k'.hintValid = k.hintValid

theorem takeHappening_sameHint (h : Happening) (f : FT) (c : Nat) (k : Klog) : SameHint k (takeHappening h f c k) := by
  unfold takeHappening
  dsimp only
  split
  · exact ⟨rfl, rfl, rfl⟩
  · split
    · exact ⟨rfl, rfl, rfl⟩
    · split <;> exact ⟨rfl, rfl, rfl⟩
theorem record_sameHint (h : Happening) (s : State) : SameHint s.klog (record h s).klog := by
  simp only [record, State.onKlog_klog]
  split
  · split <;> exact ⟨rfl, rfl, rfl⟩
  · exact takeHappening_sameHint _ _ _ _

/-! ### Temperature (R353, R496, R563) -/

/-- The four sensors' samples in the order they are taken. -/
def temperatureSamples (a b c d : Int) (f : FT) : List (Nat × Nat × Nat × Nat × FT) :=
  [(0x0103, 0, 0, (a + 64).toNat, f), (0x0103, 1, 0, (b + 64).toNat, f), (0x0103, 2, 0, (c + 64).toNat, f), (0x0103, 3, 0, (d + 64).toNat, f)]
theorem foldl_samples (a b c d : Int) (s : State) :
    (List.range 4).foldl (fun u i => sample 0x0103 i 0 (nth [a, b, c, d] i 0 + 64).toNat u) s =
      { s with klog := { s.klog with samples := s.klog.samples ++ temperatureSamples a b c d s.now } } := by
  have hr : List.range 4 = [0, 1, 2, 3] := rfl
  have ha : ∀ (l : List (Nat × Nat × Nat × Nat × FT)) (w x y z : Nat × Nat × Nat × Nat × FT), l ++ [w] ++ [x] ++ [y] ++ [z] = l ++ [w, x, y, z] := by simp
  rw [hr]
  simp only [List.foldl_cons, List.foldl_nil, sample_eq]
  exact congrArg (fun l => { s with klog := { s.klog with samples := l } }) (ha _ _ _ _ _)
/-- No sensor stands at 120 °C. -/
theorem find?_trip_none {a b c d : Int} (ha : a < 120) (hb : b < 120) (hc : c < 120) (hd : d < 120) :
    (List.range 4).find? (fun i => decide (120 ≤ nth [a, b, c, d] i 0)) = none := by
  have hr : List.range 4 = [0, 1, 2, 3] := rfl
  have n0 : nth [a, b, c, d] 0 0 = a := rfl
  have n1 : nth [a, b, c, d] 1 0 = b := rfl
  have n2 : nth [a, b, c, d] 2 0 = c := rfl
  have n3 : nth [a, b, c, d] 3 0 = d := rfl
  simp only [hr, List.find?_eq_none, List.mem_cons, List.not_mem_nil, or_false, decide_eq_true_eq, Int.not_le, forall_eq_or_imp, forall_eq, n0, n1, n2, n3]
  exact ⟨ha, hb, hc, hd⟩

/-- The state with the sensors' values and their samples, before any threshold is looked at. -/
def sampled (a b c d : Int) (s : State) : State :=
  { s with pins := { s.pins with temps := [a, b, c, d] }, klog := { s.klog with samples := s.klog.samples ++ temperatureSamples a b c d s.now } }
/-- Whether the composite temperature stands above its threshold. -/
def hotAfter (a b c d : Int) (s : State) : Bool := decide (s.nvme.feat.tempOver < ({ s with pins := { s.pins with temps := [a, b, c, d] } } : State).composite)
theorem temperatureSample_eq (a b c d : Int) (s : State) : temperatureSample [a, b, c, d] s =
    let t := (sampled a b c d s).onPins fun p => { p with tempOver := hotAfter a b c d s }
    let t := if hotAfter a b c d s = true ∧ ¬ s.pins.tempOver = true then raise { source := 0x1E0 } t else t
    match (List.range 4).find? (fun i => decide (120 ≤ nth [a, b, c, d] i 0)) with
    | some i => if s.pins.thermtrip then t else thermalTrip i t
    | none => t := by
  simp only [temperatureSample, foldl_samples]; rfl

theorem thermalTrip_first (n : Nat) (s : State) : (thermalTrip n s).fc.first.isSome := raise_first (by decide : (0x1E1 : Nat) < 512) rfl

/-! ### The commands -/

theorem hintAct_eq (mb : Nat) (x : Mailbox) (s : State) (m : Mci) : ∃ d h, hintAct mb x { s with mci := m } =
    mciOk mb (leBytes 8 (s.claimedAt s.now) ++ leBytes 1 (flag d 0)) [] (record h { s with mci := m, klog := { s.klog with
      hintValue := (hintField x).1, hintFt := s.now, hintDecreased := d, hintValid := true } }) := ⟨_, _, rfl⟩

/-- Settles O47: by the kind of the happening, the thresholds passed and the effect of each command. -/
theorem kilnLogEffects : Obligations.KilnLogEffects := by
  unfold Obligations.KilnLogEffects
  refine ⟨?_, ?_, ?_, ?_, ?_, ?_, ?_, ?_, ?_, ?_, ?_⟩
  · intro h s hk hq
    have hb : happening h s = s := by simp only [happening, hk, hq]; rfl
    exact (congrArg (done s) hb).trans (done_self s)
  · intro h c l s hk hq
    have hb : happening h s = record (faultHappening c) { s with fc := { s.fc with queue := l } } := by simp only [happening, hk, hq]; rfl
    exact (congrArg (done s) hb).trans (done_eq_of_fatal rfl rfl rfl)
  · intro h s h2 h7
    exact (congrArg (done s) (happening_of_kind h2 h7 s)).trans (done_eq rfl rfl rfl)
  · intro h s hk
    have hb : happening h s = s := (if_neg (by omega)).trans (if_neg (by omega))
    exact (congrArg (done s) hb).trans (done_self s)
  · intro n s hn
    have hx : exec (.thermalTrip n) s = done s (thermalTrip n s) := congrArg (done s) (if_pos hn)
    exact ⟨_, hx, raise_thermtrip _ _, thermalTrip_first n s⟩
  · intro n s hn
    exact (congrArg (done s) (if_neg (by omega))).trans (done_self s)
  · intro a b c d s ha hb hc hd hcold
    have hh : hotAfter a b c d s = false := decide_eq_false hcold
    have hbody : temperatureSample [a, b, c, d] s = (sampled a b c d s).onPins fun p => { p with tempOver := false } := by
      rw [temperatureSample_eq, find?_trip_none ha hb hc hd, hh]
      exact if_neg (by simp)
    exact (congrArg (done s) hbody).trans (done_eq rfl rfl rfl)
  · intro a b c d s hhot hno
    have hh : hotAfter a b c d s = true := decide_eq_true hhot
    refine ⟨_, rfl, ?_⟩
    show ((temperatureSample [a, b, c, d] s).fc.first).isSome
    rw [temperatureSample_eq, hh]
    dsimp only
    rw [if_pos ⟨rfl, hno⟩]
    have hw : (raise { source := 0x1E0 } ((sampled a b c d s).onPins fun p => { p with tempOver := true })).fc.first.isSome :=
      raise_first (by decide : (0x1E0 : Nat) < 512) rfl
    split
    · split
      · exact hw
      · exact thermalTrip_first _ _
    · exact hw
  · intro mb s h
    refine row_completes h fun m hm => ?_
    exact ⟨_, done_eq rfl rfl rfl, rfl, _, _, hm.succeeds rfl _ _⟩
  · intro mb s h hs
    refine row_completes h fun m hm => ?_
    have hc : m.counter = s.mci.counter := by rw [hm.rest]
    refine ⟨_, done_eq rfl rfl rfl, inProgress_of_mci (hm.inProgress hs) rfl, ?_⟩
    rw [← hc]; rfl
  · intro mb s h
    refine row_completes h fun m hm => ?_
    obtain ⟨d, e, he⟩ := hintAct_eq mb (s.mb mb) s m
    rw [he]
    obtain ⟨hv, hf, hok⟩ := record_sameHint e { s with mci := m, klog := { s.klog with
      hintValue := (hintField (s.mb mb)).1, hintFt := s.now, hintDecreased := d, hintValid := true } }
    exact ⟨_, done_eq rfl rfl rfl, hv, hf, hok, d, hm.succeeds rfl _ _⟩

end Sys2Proof.Machine
end

section
/-! PROOF. Clocks, crossings, links that train, die-to-die lanes (R22, R512 to R536), and tests and the TAP (R527 to R542, R551). -/
namespace Sys2Proof.Machine

/-! ### Bits of a word -/

theorem getLsbD_clear {n p : Nat} (w : BitVec n) (h : w.getLsbD p = true) : (w &&& ~~~(BitVec.ofNat n (2 ^ p))).getLsbD p = false := by
  have hp : p < n := BitVec.lt_of_getLsbD h
  simp only [BitVec.getLsbD_and, BitVec.getLsbD_not, BitVec.getLsbD_ofNat, Nat.testBit_two_pow_self]
  simp [hp]
theorem getLsbD_set {n p : Nat} (w : BitVec n) (h : p < n) : (w ||| BitVec.ofNat n (2 ^ p)).getLsbD p = true := by
  simp only [BitVec.getLsbD_or, BitVec.getLsbD_ofNat, Nat.testBit_two_pow_self]
  simp [h]

/-! ### Links (R22, R193, R241, R292) -/

theorem finishUnit_eq (kind i r : Nat) (s : State) : finishUnit kind i r s = { s with mci := (finishUnit kind i r s).mci } := by
  have hf : ∀ (l : List Nat) (f : State → Nat → State), (∀ u j, f u j = { u with mci := (f u j).mci }) → ∀ u, l.foldl f u = { u with mci := (l.foldl f u).mci } := by
    intro l f hf
    induction l with
    | nil => intro u; rfl
    | cons j l ih => intro u; rw [List.foldl_cons, ih, hf]
  unfold finishUnit
  refine hf (List.range 16) _ (fun u j => ?_) s
  dsimp only
  split <;> rfl
/-- A unit that has finished answers its command and nothing else. -/
theorem done_finishUnit {s u : State} (kind i r : Nat) (hp : u.pending = s.pending) (hh : u.hw = s.hw) (hf : u.fc = s.fc) :
    done s (finishUnit kind i r u) = .next { u with mci := (finishUnit kind i r u).mci } := by
  have hd : done s { u with mci := (finishUnit kind i r u).mci } = .next { u with mci := (finishUnit kind i r u).mci } := done_eq hp hh hf
  exact (congrArg (done s) (finishUnit_eq kind i r u)).trans hd

theorem linkThreshold_inTest {l : LinkRef} {s : State} (h : s.inTest (LinkRef.unit l).1 (LinkRef.unit l).2 = true) : linkThreshold l s = s := by
  unfold linkThreshold; exact if_pos h
theorem linkThreshold_port {p : Nat} {s : State} (h : ¬ s.inTest 2 p = true) (he : s.portExists p = true) (hu : (s.port p).up = true) :
    linkThreshold (.port p) s = retrainPort p s := (if_neg h).trans (if_pos ⟨he, hu⟩)
theorem linkThreshold_slip {s : State} (h : ¬ s.inTest 3 0 = true) (ht : s.twin.trained = true) : linkThreshold .slip s = retrainSlip s :=
  (if_neg h).trans (if_pos ht)
theorem linkThreshold_coil {p : Nat} {s : State} (h : ¬ s.inTest 4 p = true) (hl : s.coil.linkUp.getLsbD p = true) : linkThreshold (.coil p) s = retrainCoil p s :=
  (if_neg h).trans (if_pos hl)

theorem slipTrained_spec (n : Nat) (s : State) : (slipTrained n s).twin.training = false ∧ (slipTrained n s).twin.trained = true ∧
    (slipTrained n s).twin.lanes = min n 8 ∧ (slipTrained n s).twin.session = (s.twin.session + 1) % 65536 ∧
    slipTrained n s = { s with twin := (slipTrained n s).twin } := by
  simp only [slipTrained, slipQueue, State.onTwin_twin, true_and]
  rfl
theorem port_of_arr {s t : State} (h : t.arr = s.arr) (p : Nat) : t.port p = s.port p := by simp only [State.port, h]
theorem port_onPort_self {p : Nat} {s : State} (f : Port → Port) (h : p < s.arr.ports.length) : (onPort p f s).port p = f (s.port p) := nth_nthMod_self _ _ _ _ h

theorem finishUnit_arr (kind i r : Nat) (s : State) : (finishUnit kind i r s).arr = s.arr := by rw [finishUnit_eq]
theorem finishUnit_port (kind i r p : Nat) (s : State) : (finishUnit kind i r s).port p = s.port p := by
  unfold State.port
  rw [finishUnit_arr]
/-- The training of a member port ends: the port is up if it succeeded. -/
theorem portTrained_spec {p : Nat} {ok : Bool} {s : State} (hl : p < s.arr.ports.length) (ht : (s.port p).training = true) :
    done s (portTrained p ok s) = .next (portTrained p ok s) ∧ ((portTrained p ok s).port p).training = false ∧ ((portTrained p ok s).port p).up = ok := by
  have hb : portTrained p ok s = finishUnit 2 p (if ok then 0 else 2) (onPort p (fun q => { q with training := false, up := ok }) s) :=
    if_neg (not_not_intro ht)
  have hq : (portTrained p ok s).port p = { s.port p with training := false, up := ok } := by
    rw [hb, finishUnit_port]
    exact port_onPort_self (fun q => { q with training := false, up := ok }) hl
  refine ⟨?_, by rw [hq], by rw [hq]⟩
  rw [hb, finishUnit_eq]
  exact done_eq rfl rfl rfl

/-! ### Die-to-die bundles (R12, R535, R536) -/

theorem bundle_onBundle_self {i : Nat} {s : State} (f : Bundle → Bundle) (h : i < s.tst.bundles.length) : (onBundle i f s).bundle i = f (s.bundle i) :=
  nth_nthMod_self _ _ _ _ h
theorem raise_bundle (f : FaultIn) (s : State) (i : Nat) : (raise f s).bundle i = s.bundle i := by unfold State.bundle; rw [(raise_frame f s).tst]

section
variable {i l : Nat} {s : State}

/-- A data lane fails that is neither in repair nor waiting for it. -/
theorem laneFailed_fails (hi : i < 16) (hb : (s.bundle i).inService = true) (hl : l ∈ (s.bundle i).dataLanes) (hr : ((s.bundle i).repair.map (·.1)) ≠ some l)
    (hw : l ∉ (s.bundle i).waiting) : laneFailed i l s =
      if (s.bundle i).repair.isSome then onBundle i (fun b => { b with waiting := b.waiting ++ [l] }) s else startLaneRepair i l s := by
  refine if_neg ?_
  rintro (h | h | h | h | h)
  · omega
  · exact h hb
  · exact h (by simpa using hl)
  · exact hr h
  · exact hw (by simpa using h)
theorem startLaneRepair_spare {sp : Nat} {sps : List Nat} (h : (s.bundle i).spares = sp :: sps) :
    startLaneRepair i l s = onBundle i (fun b => { b with repair := some (l, sp, 1), repairTurn := s.repairFrom }) s := by
  simp only [startLaneRepair, h]
theorem startLaneRepair_lost (h : (s.bundle i).spares = []) : startLaneRepair i l s =
    raise { source := 0x1C1, loc := some (bundleLoc i) } (onBundle i (fun b => { b with inService := false, repair := none, waiting := [] }) s) := by
  simp only [startLaneRepair, h]
theorem spareFailed_idle (hi : i < 16) (hb : (s.bundle i).inService = true) (hl : l ∈ (s.bundle i).spares) (hr : (s.bundle i).repair = none) :
    spareFailed i l s = raise { source := 0x1C3, loc := some (laneLoc i l) } (retireLane i l s) := by
  have hn : ¬ (16 ≤ i ∨ ¬ (s.bundle i).inService = true ∨ ¬ (s.bundle i).spares.contains l = true) := by simp [hb, hl]; omega
  simp only [spareFailed, hr]
  exact if_neg hn
end

theorem mem_addOnce (n : Nat) (l : List Nat) : n ∈ addOnce n l := by
  unfold addOnce
  split
  · next h => simpa using h
  · simp

/-- Settles O48: by the link, lane or clock named, and whether it is in the state that the row needs. -/
theorem clockAndLinkEffects : Obligations.ClockAndLinkEffects := by
  unfold Obligations.ClockAndLinkEffects
  refine ⟨?_, ?_, ?_, fun u s => done_eq rfl rfl rfl, ?_, ?_, ?_, ?_, ?_, ?_, ?_, ?_, ?_, ?_, ?_, ?_, ?_, ?_, ?_, ?_, ?_⟩
  · intro p s hp
    have hx : exec (.pllUnlock p) s = done s (raise { source := pllSource p } (s.onClk (pllLose p))) := congrArg (done s) (if_pos hp)
    have hlt : pllSource p < 512 := by unfold pllSource; split <;> decide
    exact ⟨_, hx, (raise_frame _ _).clk, fun hpr => raise_first (s := s.onClk (pllLose p)) hlt hpr⟩
  · intro p s hp
    exact (congrArg (done s) (if_neg hp)).trans (done_self s)
  · intro n s
    refine ⟨_, (done_eq rfl rfl rfl : done s (resetNotification n s) = _), rfl, rfl, fun c hc hid => ?_⟩
    obtain ⟨c0, -, rfl⟩ := List.mem_map.mp hc
    split
    · rfl
    · next hn =>
      rw [if_neg hn] at hid
      exact absurd (by simpa using hid) hn
  · intro d i s hm hc hr hd
    exact (congrArg (done s) (if_pos ⟨hm, hc, hr, hd⟩)).trans (done_eq rfl rfl rfl)
  · intro d i s hr
    exact (congrArg (done s) (if_neg fun h => h.2.2.1 hr)).trans (done_self s)
  · intro d i s hr hs
    exact (congrArg (done s) (if_pos ⟨hr, hs⟩)).trans (done_eq rfl rfl rfl)
  · intro d i s hr
    exact (congrArg (done s) (if_neg fun h => hr h.1)).trans (done_self s)
  · intro p s he hl hu ht
    refine ⟨_, (congrArg (done s) (linkThreshold_port ht he hu)).trans (done_eq rfl rfl rfl), ?_⟩
    rw [port_retrainPort hl]
    exact ⟨rfl, rfl⟩
  · intro s ht hn
    exact ⟨_, (congrArg (done s) (linkThreshold_slip hn ht)).trans (done_eq rfl rfl rfl), rfl, rfl⟩
  · intro p s hl hn
    exact ⟨_, (congrArg (done s) (linkThreshold_coil hn hl)).trans (done_eq rfl rfl rfl), getLsbD_clear _ hl⟩
  · intro p s ht
    exact (congrArg (done s) (linkThreshold_inTest (l := .port p) ht)).trans (done_self s)
  · intro p ok n s hl ht
    obtain ⟨hd, h⟩ := portTrained_spec (ok := ok) hl ht
    exact ⟨_, hd, h⟩
  · intro n s ht
    have hb : trainingComplete .slip true n s = finishUnit 3 0 0 (slipTrained n s) := (if_neg (not_not_intro ht)).trans (if_pos rfl)
    obtain ⟨htr, htd, hla, hse, hfr⟩ := slipTrained_spec n s
    exact ⟨_, (congrArg (done s) hb).trans (done_finishUnit 3 0 0 (by rw [hfr]) (by rw [hfr]) (by rw [hfr])), htr, htd, hla, hse⟩
  · intro p n s ht
    have hp : p < 2 := BitVec.lt_of_getLsbD ht
    have hb : trainingComplete (.coil p) true n s = finishUnit 4 p 0 (wantService (18 + p) true (s.onCoil fun c => { c with
        training := c.training &&& ~~~(BitVec.ofNat 2 (2 ^ p)), linkUp := c.linkUp ||| BitVec.ofNat 2 (2 ^ p) })) := if_neg (not_not_intro ht)
    exact ⟨_, (congrArg (done s) hb).trans (done_finishUnit 4 p 0 rfl rfl rfl), getLsbD_set _ hp, getLsbD_clear _ ht⟩
  · intro p ok n s ht
    exact (congrArg (done s) (show trainingComplete (.port p) ok n s = s from if_pos ht)).trans (done_self s)
  · intro i l sp sps s hi hb hl hr hw hs
    have hf : laneFailed i l s = _ := (laneFailed_fails hi hb hl (by simp [hr]) hw).trans ((if_neg (by simp [hr])).trans (startLaneRepair_spare hs))
    exact (congrArg (done s) hf).trans (done_eq rfl rfl rfl)
  · intro i l x s hi hb hl hr hx hw
    have hf : laneFailed i l s = _ := (laneFailed_fails hi hb hl (by simpa [hr] using hx) hw).trans (if_pos (by simp [hr]))
    exact (congrArg (done s) hf).trans (done_eq rfl rfl rfl)
  · intro i l s hi hb hl hr hw hs
    have hf : laneFailed i l s = _ := (laneFailed_fails hi hb hl (by simp [hr]) hw).trans ((if_neg (by simp [hr])).trans (startLaneRepair_lost hs))
    refine ⟨_, congrArg (done s) hf, raise_first (by decide : (0x1C1 : Nat) < 512) rfl, fun hlen => ?_⟩
    have hq : (raise { source := 0x1C1, loc := some (bundleLoc i) } (onBundle i (fun b => { b with inService := false, repair := none, waiting := [] }) s)).bundle i =
        { s.bundle i with inService := false, repair := none, waiting := [] } :=
      (raise_bundle _ _ i).trans (bundle_onBundle_self (fun b => { b with inService := false, repair := none, waiting := [] }) hlen)
    exact (congrArg Bundle.inService hq :)
  · intro i l s hi hb hl hr
    refine ⟨_, congrArg (done s) (spareFailed_idle hi hb hl hr), raise_first (by decide : (0x1C3 : Nat) < 512) rfl, ?_, fun hlen => ?_⟩
    · show (raise _ (retireLane i l s)).tst.d2dRepairs = _
      rw [(raise_frame _ _).tst]; rfl
    · have hr : (raise { source := 0x1C3, loc := some (laneLoc i l) } (retireLane i l s)).bundle i = { s.bundle i with retired := addOnce l (s.bundle i).retired } :=
        (raise_bundle _ _ i).trans (bundle_onBundle_self (fun b => { b with retired := addOnce l b.retired }) hlen)
      show l ∈ ((raise { source := 0x1C3, loc := some (laneLoc i l) } (retireLane i l s)).bundle i).retired
      rw [hr]
      exact mem_addOnce _ _
  · intro i l s hb
    exact ⟨(congrArg (done s) (if_pos (.inr (.inl hb)))).trans (done_self s), (congrArg (done s) (if_pos (.inr (.inl hb)))).trans (done_self s)⟩

/-! ### Tests (R527, R528, R542) -/

theorem startTest_frame (x : Test) (s : State) : (startTest x s).mci = s.mci ∧ (startTest x s).pending = s.pending ∧
    (startTest x s).hw = s.hw ∧ (startTest x s).fc = s.fc ∧ (startTest x s).tst.tests = s.tst.tests ++ [x] := by
  unfold startTest
  dsimp only
  split <;> exact ⟨rfl, rfl, rfl, rfl, rfl⟩
/-- A diagnostics command whose checks pass is in progress, with its test among the tests. -/
theorem test_starts {mb op : Nat} {s : State} {plan : Mailbox → Plan} {x : Mailbox → Test} (h : planRuns mb op s plan = true) (hs : (s.mb mb).staged = none) :
    ∃ t, done s (mciRun mb op s plan (fun m u => startTest { x m with mb := mb } u)) = .next t ∧ InProgress mb t ∧
      { x (s.mb mb) with mb := mb } ∈ t.tst.tests := by
  refine row_completes h fun m hm => ?_
  obtain ⟨hmci, hp, hh, hf, ht⟩ := startTest_frame { x (s.mb mb) with mb := mb } { s with mci := m }
  refine ⟨_, done_eq hp hh hf, inProgress_of_mci (hm.inProgress hs) hmci, ?_⟩
  rw [ht]
  exact List.mem_append_right _ (List.mem_singleton.mpr rfl)

theorem testOf_some {mb k : Nat} {x : Test} {s : State} (h : s.testOf mb k = some x) : x.mb = mb ∧ x.kind = k := by
  have h := List.find?_some h
  simpa only [Bool.and_eq_true, beq_iff_eq] using h

theorem returnFromTest_frame (x : Test) (s : State) : (returnFromTest x s).mci = s.mci ∧ (returnFromTest x s).pending = s.pending ∧
    (returnFromTest x s).hw = s.hw ∧ (returnFromTest x s).fc = s.fc ∧ (returnFromTest x s).tst.mbistFails = s.tst.mbistFails := by
  unfold returnFromTest
  split
  · exact ⟨rfl, rfl, rfl, rfl, rfl⟩
  · split
    · split <;> exact ⟨rfl, rfl, rfl, rfl, rfl⟩
    all_goals exact ⟨rfl, rfl, rfl, rfl, rfl⟩

/-- The test `x` is no longer among those that run. -/
def dropTest (x : Test) (s : State) : State := s.onTst fun t => { t with tests := t.tests.filter (fun y => !(y.mb == x.mb && y.kind == x.kind)) }
theorem not_mem_dropTest {x y : Test} {s : State} (h : y ∈ (dropTest x s).tst.tests) : ¬ (y.mb = x.mb ∧ y.kind = x.kind) := by
  rintro ⟨hmb, hkind⟩
  have h := (List.mem_filter.mp h).2
  rw [hmb, hkind] at h
  simp at h
/-- A test that ends answers the command that started it. -/
theorem endTest_answers {x : Test} {s : State} (inline : Bytes) (hk : x.kind = 1 ∨ x.kind = 2 ∨ x.kind = 3) (hst : (s.mb x.mb).st = .executing)
    (hop : (s.mb x.mb).opcode = 0x0B04 + x.kind) (hs : (s.mb x.mb).started = true) : endTest x inline s = mciOk x.mb inline [] (dropTest x s) := by
  refine if_pos ⟨hst, ?_, hs⟩
  show (s.mb x.mb).opcode = _
  obtain h | h | h := hk <;> (rw [hop, h]; rfl)
theorem ite_eq_or {α : Type} (p : Prop) [Decidable p] (a b : α) : (if p then a else b) = b ∨ (if p then a else b) = a := by
  split
  · exact .inr rfl
  · exact .inl rfl
theorem endTest_eq (x : Test) (inline : Bytes) (s : State) : endTest x inline s = dropTest x s ∨ endTest x inline s = mciOk x.mb inline [] (dropTest x s) :=
  ite_eq_or _ _ _
theorem endTest_frame (x : Test) (inline : Bytes) (s : State) : (endTest x inline s).pending = s.pending ∧ (endTest x inline s).hw = s.hw ∧
    (endTest x inline s).fc = s.fc ∧ (endTest x inline s).tst.mbistFails = s.tst.mbistFails := by
  obtain h | h := endTest_eq x inline s <;> rw [h] <;> exact ⟨rfl, rfl, rfl, rfl⟩
/-- What a test that ends answers, where `u` agrees with `s` on the mailboxes. -/
theorem endTest_succeeds {x : Test} {s u : State} {inline : Bytes} (hu : u.mci = s.mci) (hk : x.kind = 1 ∨ x.kind = 2 ∨ x.kind = 3) (hst : (s.mb x.mb).st = .executing)
    (hop : (s.mb x.mb).opcode = 0x0B04 + x.kind) (hs : (s.mb x.mb).started = true) :
    Succeeds x.mb inline [] (endTest x inline u) ∧ ∀ y ∈ (endTest x inline u).tst.tests, ¬ (y.mb = x.mb ∧ y.kind = x.kind) := by
  have hm : u.mb x.mb = s.mb x.mb := by simp only [State.mb, hu]
  have hl : x.mb < s.mci.mbs.length := mb_exists (by rw [hst]; decide)
  rw [endTest_answers inline hk (by rw [hm, hst]) (by rw [hm, hop]) (by rw [hm, hs])]
  exact ⟨mciOk_succeeds _ _ (show x.mb < u.mci.mbs.length by rwa [hu]), fun y hy => not_mem_dropTest hy⟩

/-! ### Patterns, memory self-test and margining (R531 to R534, R537) -/

/-- After a change, a lane's checker is locked as the change says. -/
theorem mem_locked_iff (l : Nat) (b : Bool) (ls : List Nat) : l ∈ (if b then addOnce l ls else ls.filter (· != l)) ↔ b = true := by
  cases b with
  | false => simp
  | true => simpa using mem_addOnce l ls

theorem testExpired_some {mb : Nat} {rs : List LaneResult} {x : Test} {s : State} (h : s.testOf mb 1 = some x) : testExpired mb rs s =
    endTest x (leBytes 8 (flag x.interrupted 0) ++ ((rs.filter (fun (r : LaneResult) => x.lanes.testBit r.lane)).map (laneBytes x)).flatten) (returnFromTest x s) := by
  simp only [testExpired, h]
theorem testExpired_none {mb : Nat} {rs : List LaneResult} {s : State} (h : s.testOf mb 1 = none) : testExpired mb rs s = s := by
  simp only [testExpired, h]

/-- The end of a self-test that finds no failing word. -/
theorem mbistDone_clean {mb c cell : Nat} {l : LocCode} {x : Test} {s : State} (h : s.testOf mb 2 = some x) : mbistDone mb 0 c l cell s =
    endTest x (leBytes 4 (if x.interrupted then 2 else 0) ++ leBytes 4 0 ++ leBytes 4 c ++ leBytes 4 0 ++ leBytes 4 0) (returnFromTest x s) := by
  simp only [mbistDone, h, Nat.lt_irrefl, if_false, and_false]
  cases memFault x <;> rfl
/-- A failing word is counted. -/
theorem mbistDone_counts {mb n c cell : Nat} {l : LocCode} {x : Test} {s : State} (h : s.testOf mb 2 = some x) (hn : 0 < n) :
    (mbistDone mb n c l cell s).tst.mbistFails = bump s.tst.mbistFails := by
  simp only [mbistDone, h, hn, if_true]
  have hcount (i : Bytes) : (endTest x i (returnFromTest x (s.onTst fun y => { y with mbistFails := bump y.mbistFails }))).tst.mbistFails = bump s.tst.mbistFails :=
    (endTest_frame x i _).2.2.2.trans (returnFromTest_frame x _).2.2.2.2
  split
  · split
    · rw [(raise_frame _ _).tst]; exact hcount _
    · exact hcount _
  · exact hcount _

section
variable {mb e : Nat} {x : Test} {s : State}

theorem marginDwell_passes (h : s.testOf mb 3 = some x) (hi : ¬ x.interrupted = true) (he : e < x.limit) (hs : x.steps + 1 < x.maxSteps) :
    marginDwell mb e s =
      { s with tst := { s.tst with tests := mapIf s.tst.tests (fun y => y.mb == mb && y.kind == 3) (fun y => { y with steps := x.steps + 1 }) } } := by
  simp only [marginDwell, h]
  rw [if_neg hi]
  simp [State.onTst, he, hs]
theorem marginDwell_turns (h : s.testOf mb 3 = some x) (hi : ¬ x.interrupted = true) (he : x.limit ≤ e) (hu : ¬ x.up = true) :
    marginDwell mb e s = { s with tst := { s.tst with tests := mapIf s.tst.tests (fun y => y.mb == mb && y.kind == 3) (fun y => { y with
      up := true, below := x.steps, errBelow := sat32 e, steps := 0 }) } } := by
  simp only [marginDwell, h]
  rw [if_neg hi]
  simp [State.onTst, Nat.not_lt.mpr he, hu]
theorem marginDwell_ends (h : s.testOf mb 3 = some x) (hi : ¬ x.interrupted = true) (he : x.limit ≤ e) (hu : x.up = true) :
    marginDwell mb e s = endTest x (marginBytes x x.below x.steps x.errBelow (sat32 e)) s := by
  simp only [marginDwell, h]
  rw [if_neg hi]
  simp [Nat.not_lt.mpr he, hu]
end

/-! ### The TAP (R540) -/

theorem jtagInstruction_acts {i : TapInstr} {s : State} (hp : s.pins.perst = true) (hb : s.sec.bootStep < 6) : jtagInstruction i s =
    { s with tst := { s.tst with tapReset := false, tap := i, extestSeen := s.tst.extestSeen || TapInstr.drives i } } := by
  simp [jtagInstruction, State.onTst, hp, hb]
theorem jtagInstruction_bypasses {i : TapInstr} {s : State} (hi : TapInstr.drives i = true) (h : ¬ s.pins.perst = true ∨ 6 ≤ s.sec.bootStep) :
    jtagInstruction i s = { s with tst := { s.tst with tapReset := false, tap := .bypass } } := by
  have ha : (s.pins.perst && decide (s.sec.bootStep < 6)) = false := by
    obtain h | h := h
    · simp [h]
    · simp [Nat.not_lt.mpr h]
  simp [jtagInstruction, State.onTst, hi, ha]

/-- Settles O49: by the test that a mailbox runs, and by the instruction of the TAP. -/
theorem testEffects : Obligations.TestEffects := by
  unfold Obligations.TestEffects
  refine ⟨fun mb s h hs => test_starts h hs, fun mb s h hs => test_starts h hs, fun mb s h hs => test_starts h hs, ?_, ?_,
    fun mb rs s h => (congrArg (done s) (testExpired_none h)).trans (done_self s), ?_, ?_, ?_, ?_, ?_, ?_, ?_, fun s => done_eq rfl rfl rfl⟩
  · intro mb l b s
    refine ⟨_, (done_eq rfl rfl rfl : done s (checkerLock mb l b s) = _), rfl, fun x hx hmb hk hpt hl => ?_⟩
    obtain ⟨y, -, rfl⟩ := List.mem_map.mp hx
    split
    · exact mem_locked_iff l b y.locked
    · next hn =>
      rw [if_neg hn] at hmb hk hpt hl
      exact absurd (by simp [hmb, hk, hpt, hl]) hn
  · intro mb rs x s h hst hop hs
    obtain ⟨rfl, hk⟩ := testOf_some h
    obtain ⟨hm, hp, hh, hf, -⟩ := returnFromTest_frame x s
    obtain ⟨ep, eh, ef, -⟩ := endTest_frame x (leBytes 8 (flag x.interrupted 0) ++ ((rs.filter (fun (r : LaneResult) => x.lanes.testBit r.lane)).map (laneBytes x)).flatten)
      (returnFromTest x s)
    obtain ⟨hok, hgone⟩ := endTest_succeeds hm (.inl hk) hst (by rw [hop, hk]) hs
    rw [hk] at hgone
    exact ⟨_, (congrArg (done s) (testExpired_some h)).trans (done_eq (ep.trans hp) (eh.trans hh) (ef.trans hf)), hok, hgone⟩
  · intro mb c l d x s h hst hop hs
    obtain ⟨rfl, hk⟩ := testOf_some h
    obtain ⟨hm, hp, hh, hf, -⟩ := returnFromTest_frame x s
    obtain ⟨ep, eh, ef, -⟩ := endTest_frame x (leBytes 4 (if x.interrupted then 2 else 0) ++ leBytes 4 0 ++ leBytes 4 c ++ leBytes 4 0 ++ leBytes 4 0) (returnFromTest x s)
    exact ⟨_, (congrArg (done s) (mbistDone_clean h)).trans (done_eq (ep.trans hp) (eh.trans hh) (ef.trans hf)),
      (endTest_succeeds hm (.inr (.inl hk)) hst (by rw [hop, hk]) hs).1⟩
  · intro mb n c l d x s h hn
    exact ⟨_, rfl, mbistDone_counts h hn⟩
  · intro mb e x s h hi he hn
    exact (congrArg (done s) (marginDwell_passes h hi he hn)).trans (done_eq rfl rfl rfl)
  · intro mb e x s h hi he hu
    exact (congrArg (done s) (marginDwell_turns h hi he hu)).trans (done_eq rfl rfl rfl)
  · intro mb e x s h hi he hu hst hop hs
    obtain ⟨rfl, hk⟩ := testOf_some h
    obtain ⟨ep, eh, ef, -⟩ := endTest_frame x (marginBytes x x.below x.steps x.errBelow (sat32 e)) s
    exact ⟨_, (congrArg (done s) (marginDwell_ends h hi he hu)).trans (done_eq ep eh ef), (endTest_succeeds rfl (.inr (.inr hk)) hst (by rw [hop, hk]) hs).1⟩
  · intro i s hp hb
    exact (congrArg (done s) (jtagInstruction_acts hp hb)).trans (done_eq rfl rfl rfl)
  · intro i s hi h
    exact (congrArg (done s) (jtagInstruction_bypasses hi h)).trans (done_eq rfl rfl rfl)

end Sys2Proof.Machine
end

section
/-! PROOF. The saggar, vault and peer window commands (R159, R160, R188 to R191, R331). -/
namespace Sys2Proof.Machine

/-! ### A change of the array part alone -/

theorem ArrOnly.done {s t u : State} (h : ArrOnly t u) (hp : t.pending = s.pending) (hh : t.hw = s.hw) (hf : t.fc = s.fc) : done s u = .next u :=
  done_eq ((congrArg State.pending h).trans hp) ((congrArg State.hw h).trans hh) ((congrArg State.fc h).trans hf)

theorem ArrOnly.mci {s t : State} (h : ArrOnly s t) : t.mci = s.mci := by unfold ArrOnly at h; rw [h]
theorem ArrOnly.vault {s t : State} (h : ArrOnly s t) : t.vault = s.vault := by unfold ArrOnly at h; rw [h]

/-! ### The saggar and the peer window -/

theorem sagPolicyAct_eq {mb a h : Nat} {d : Option Nat} {p : Parse} {x : Mailbox} {s : State} (hf : sagPolicyFields s x = (a, h, d, p)) (m : Mci) :
    sagPolicyAct mb x { s with mci := m } =
      mciOk mb [] [] (recordConfig 0x0C02 (leBytes 2 a ++ leBytes 1 h ++ leBytes 5 0 ++ leBytes 8 (d.getD (s.dirtyCap * 4096)))
        { s with mci := m, sag := { s.sag with gatherAge := a, highWaterNext := h, dirtyBudgetNext := d } }) := by
  have h' : sagPolicyFields { s with mci := m } x = (a, h, d, p) := hf
  simp only [sagPolicyAct, h']
  rfl
theorem pwConfigAct_eq {mb a b : Nat} {p : Parse} {x : Mailbox} {s : State} (hf : pwFields s x = (a, b, p)) (m : Mci) :
    pwConfigAct mb x { s with mci := m } = mciOk mb [] [] (recordConfig 0x0C06 (leBytes 4 a ++ leBytes 1 b)
      { s with mci := m, polNext := { s.polNext with pwStagingMib := a, bar4Default := b } }) := by
  have h' : pwFields { s with mci := m } x = (a, b, p) := hf
  simp only [pwConfigAct, h']

/-! ### The vault (R189, R190) -/

theorem vaultConfigAct_eq {mb h c : Nat} {us : List Nat} {p : Parse} {x : Mailbox} {s : State} (hf : vaultFields s x = (h, c, us, p)) (m : Mci) :
    vaultConfigAct mb x { s with mci := m } =
      mciOk mb [] [] (recordConfig 0x0C03 (leBytes 4 h ++ leBytes 1 c ++ leBytes 1 us.length ++ leBytes 2 0 ++ us.flatMap (leBytes 16))
        { s with mci := m, vault := { s.vault with configured := true, tested := false, holdupUs := h, copies := c, members := vaultMembersOf s us } }) := by
  have h' : vaultFields { s with mci := m } x = (h, c, us, p) := hf
  simp only [vaultConfigAct, h']
  rfl

theorem vaultTestAct_only (mb : Nat) (x : Mailbox) (s : State) :
    ArrOnly { s with vault := { s.vault with phase := .testing, testMb := some mb } } (vaultTestAct mb x s) :=
  (addJob_only _ _).trans (ArrOnly.foldl _ (fun u _ => issue_only _ u) _ _)

/-- The mailbox of a test that ends gets the result; the vault is idle. -/
theorem endVaultTest_spec {mb r : Nat} {s : State} (hp : s.vault.phase = .testing) (hm : s.vault.testMb = some mb) (hl : mb < s.mci.mbs.length) :
    (∃ i, Succeeds mb i [] (endVaultTest r s)) ∧ (endVaultTest r s).vault = { s.vault with phase := .idle, testMb := none } ∧
    (endVaultTest r s).pending = s.pending ∧ (endVaultTest r s).hw = s.hw ∧ (endVaultTest r s).fc = s.fc := by
  have ha : ArrOnly s ((s.arr.jobs.filter (fun j => j.kind == .testWrite)).foldl (fun u j => endJob j.id u) s) :=
    ArrOnly.foldl _ (fun u j => endJob_only _ u) _ _
  unfold endVaultTest
  rw [hm]
  dsimp only
  rw [ha]
  generalize State.arr _ = a
  refine ⟨⟨_, mciOk_succeeds _ _ hl⟩, ?_, rfl, rfl, rfl⟩
  show { s.vault with testMb := none, phase := if s.vault.phase = VPhase.testing then VPhase.idle else s.vault.phase } = _
  rw [if_pos hp]

/-- The vault with the rates of a test, as a test that passes leaves it. -/
def withRates (rs : List Nat) (s : State) : State :=
  s.onVault fun v => { v with members := (List.range s.vault.members.length).map (fun j => { (nth s.vault.members j {}) with rate := nth rs j 0 }), tested := true }
theorem vaultTestEnd_fails {rs : List Nat} {s : State} (h : s.vault.phase = .testing) : vaultTestEnd rs true s =
    (endVaultTest 1 (withRates rs s)).onVault fun v => { v with members := s.vault.members, tested := s.vault.tested } :=
  if_neg (not_not_intro h)
theorem vaultTestEnd_passes {rs : List Nat} {s : State} (h : s.vault.phase = .testing) (hc : (withRates rs s).capLines.getD 0 ≠ 0) :
    vaultTestEnd rs false s = endVaultTest 0 (withRates rs s) := by
  have hr : (if false = true then 1 else if (withRates rs s).capLines.getD 0 = 0 then 2 else 0) = 0 := by rw [if_neg (by decide), if_neg hc]
  exact (if_neg (not_not_intro h)).trans ((if_pos hr).trans (congrArg (fun r => endVaultTest r (withRates rs s)) hr))

/-- Settles O50: by the effect of each command. -/
theorem storageCommandEffects : Obligations.StorageCommandEffects := by
  unfold Obligations.StorageCommandEffects
  refine ⟨?_, ?_, ?_, ?_, ?_, ?_, fun rs e s h => (congrArg (done s) (if_pos h)).trans (done_self s), ?_, ?_⟩
  · intro mb s h
    exact row_reports h fun m => rfl
  · intro mb a h d p s hr hf
    refine row_completes hr fun m hm => ?_
    rw [sagPolicyAct_eq hf]
    exact ⟨_, done_eq rfl rfl rfl, hm.succeeds rfl _ _, rfl⟩
  · intro mb h c us p s hr hf
    refine row_completes hr fun m hm => ?_
    rw [vaultConfigAct_eq hf]
    exact ⟨_, done_eq rfl rfl rfl, hm.succeeds rfl _ _, rfl⟩
  · intro mb s h hs
    refine row_completes h fun m hm => ?_
    have ha := vaultTestAct_only mb (s.mb mb) { s with mci := m }
    exact ⟨_, ha.done rfl rfl rfl, inProgress_of_mci (hm.inProgress hs) ha.mci, ha.vault⟩
  · intro rs mb s hp hm hl
    obtain ⟨hok, hv, h1, h2, h3⟩ := endVaultTest_spec (r := 1) (s := withRates rs s) hp hm hl
    refine ⟨_, (congrArg (done s) (vaultTestEnd_fails hp)).trans (done_eq h1 h2 h3), hok.imp fun i hi => succeeds_of_mci hi rfl, ?_⟩
    show { (endVaultTest 1 (withRates rs s)).vault with members := s.vault.members, tested := s.vault.tested } = _
    rw [hv]; rfl
  · intro rs mb s hp hm hl hc
    obtain ⟨hok, hv, h1, h2, h3⟩ := endVaultTest_spec (r := 0) (s := withRates rs s) hp hm hl
    refine ⟨_, (congrArg (done s) (vaultTestEnd_passes hp hc)).trans (done_eq h1 h2 h3), hok, ?_⟩
    rw [hv]
    exact ⟨rfl, rfl, rfl⟩
  · intro mb s h
    refine row_completes h fun m hm => ⟨_, done_eq rfl rfl rfl, rfl, _, hm.succeeds rfl _ _⟩
  · intro mb a b p s hr hf
    refine row_completes hr fun m hm => ?_
    rw [pwConfigAct_eq hf]
    exact ⟨_, done_eq rfl rfl rfl, hm.succeeds rfl _ _, rfl, rfl⟩

end Sys2Proof.Machine
end

section
/-! PROOF. Updates of a list's named entries, mark updates that are due (R85, R86), and the conditions of members (R193, R194). -/
namespace Sys2Proof.Machine

/-! ### Named entries -/

/-- The first entry of a kind, after a change that keeps every entry's kind. -/
theorem find?_mapIf {α : Type} {q p : α → Bool} {f : α → α} (hq : ∀ a, p a = true → q (f a) = q a) (l : List α) :
    (mapIf l p f).find? q = (l.find? q).map (fun a => if p a then f a else a) := by
  have hc : (q ∘ fun a => if p a = true then f a else a) = q := by
    funext a
    show q (if p a = true then f a else a) = q a
    split
    · next h => exact hq a h
    · rfl
  unfold mapIf
  rw [List.find?_map, hc]
/-- The first entry of a kind is found again, changed. -/
theorem find?_mapIf_some {α : Type} {q p : α → Bool} {f : α → α} {l : List α} {a : α} (hq : ∀ x, p x = true → q (f x) = q x) (h : l.find? q = some a)
    (hp : p a = true) : (mapIf l p f).find? q = some (f a) := by
  rw [find?_mapIf hq, h, Option.map_some, if_pos hp]

theorem ns_id {s : State} {id : Nat} {n : Ns} (h : s.ns id = some n) : n.id = id := by simpa using List.find?_some h
theorem array_id {s : State} {id : Nat} {a : Arr} (h : s.array id = some a) : a.id = id := by simpa using List.find?_some h
theorem ns_onNs_self {s : State} {id : Nat} {n : Ns} {f : Ns → Ns} (hf : ∀ x, (f x).id = x.id) (h : s.ns id = some n) : (onNs id f s).ns id = some (f n) :=
  find?_mapIf_some (fun x _ => by rw [hf]) h (by simp [ns_id h])
theorem array_onArray_self {s : State} {id : Nat} {a : Arr} {f : Arr → Arr} (hf : ∀ x, (f x).id = x.id) (h : s.array id = some a) :
    (onArray id f s).array id = some (f a) :=
  find?_mapIf_some (fun x _ => by rw [hf]) h (by simp [array_id h])

/-- Raising faults changes a namespace in its condition alone. -/
theorem FaultFrame.ns_find {s t : State} (h : FaultFrame s t) (id : Nat) :
    (t.ns id).map (fun n => { n with cond := .healthy, reread := false }) = (s.ns id).map (fun n => { n with cond := .healthy, reread := false }) := by
  have hl (u : State) : (u.ns id).map (fun n => { n with cond := .healthy, reread := false }) =
      (u.arr.ns.map (fun n => { n with cond := .healthy, reread := false })).find? (fun n => n.id == id) := by
    rw [List.find?_map]; rfl
  rw [hl, hl, h.ns]

/-! ### Mark updates (R85, R86) -/

theorem foldl_jobs {α : Type} (f : State → α → State) (h : ∀ u x, (f u x).arr.jobs = u.arr.jobs) (l : List α) (s : State) : (l.foldl f s).arr.jobs = s.arr.jobs := by
  induction l generalizing s with
  | nil => rfl
  | cons x l ih => exact (ih _).trans (h s x)
theorem addCmd_jobs (c : MCmd) (s : State) : (addCmd c s).arr.jobs = s.arr.jobs := rfl
theorem issue_jobs (c : MCmd) (s : State) : (issue c s).arr.jobs = s.arr.jobs := by
  unfold issue
  exact foldl_jobs _ (fun u _ => addCmd_jobs _ u) _ s
/-- A mark update that starts is a job of its array. -/
theorem launchMark_markDue {s : State} {aid : Nat} {a : Arr} (h : s.array aid = some a) (b : MarkBody) (mbs : List Nat) : MarkDue aid (launchMark aid b mbs s) := by
  refine .inl (List.find?_isSome.mpr ?_)
  simp only [launchMark, h]
  rw [foldl_jobs _ (fun u n => issue_jobs _ u)]
  refine ⟨_, List.mem_append_right _ (List.mem_singleton.mpr rfl), ?_⟩
  simp
/-- A change of an array's metadata starts a mark update or waits for one. -/
theorem startMark_markDue {s : State} {aid : Nat} {a : Arr} (h : s.array aid = some a) (f : MarkBody → MarkBody) (mbs : List Nat) : MarkDue aid (startMark aid f mbs s) := by
  simp only [startMark, h]
  split
  · exact .inr ⟨_, array_onArray_self (fun _ => rfl) h, rfl⟩
  · exact launchMark_markDue h _ _

/-! ### Conditions of members (R193, R194) -/

theorem identityRead_new {s : State} {id : Nat} {i : NsIdent} (hm : i.mark = none) (hn : s.ns id = none)
    (hu : (s.port (nsLoc id).port).up = true) (hrel : s.arr.releases = []) :
    identityRead id i s = { s with arr := { s.arr with ns := s.arr.ns ++ [{ id := id, loc := nsLoc id, ident := i }] } } := by
  have hk (u : State) (hu : u.arr.releases = []) : resumeRelease id u = u := by
    unfold resumeRelease
    split
    · rfl
    · rw [if_neg (by simp [hu])]
  simp only [identityRead, followPeer, readMark, hm, hn]
  rw [if_pos (.inr hu)]
  exact hk _ hrel
theorem identityRead_unreachable {s : State} {id : Nat} {i : NsIdent} (hm : i.mark = none) (hn : s.ns id = none) (hr : ¬ (nsLoc id).remote = true)
    (hu : ¬ (s.port (nsLoc id).port).up = true) : identityRead id i s = s := by
  simp only [identityRead, followPeer, hm, hn]
  rw [if_neg (not_or.mpr ⟨hr, hu⟩)]

/-- A member in an array that is not failing already is declared FAILED with the cause, and the fault is captured. -/
theorem declareFailed_declares {s : State} {id c : Nat} {n : Ns} (h : s.ns id = some n) (ha : n.arrayUid ≠ 0) (hs : ¬ n.stale = true) (hd : n.declare = none)
    (hf : n.failing = none) : (declareFailed id c s).fc.first.isSome ∧ ∃ x, (declareFailed id c s).ns id = some x ∧ x.declare = some c := by
  simp only [declareFailed, h]
  rw [if_neg (by simp [ha, hs, hd, hf])]
  refine ⟨raise_first (by decide : (0x160 : Nat) < 512) rfl, ?_⟩
  generalize ((s.arr.arrays.find? _).map _).getD 0 = aid
  generalize hu : recordArray aid 1 [c, n.poolIndex, n.ident.uid] (onNs id (fun n => { n with declare := some c }) s) = u
  have hns : u.ns id = some { n with declare := some c } := by
    rw [← hu, recordArray_eq]
    exact ns_onNs_self (f := fun n => { n with declare := some c }) (fun _ => rfl) h
  have hr := (raise_frame { source := 0x160, loc := if n.loc.remote then none else some (locPort n.loc.port) } u).ns_find id
  rw [hns] at hr
  obtain ⟨x, hx, he⟩ := Option.map_eq_some_iff.mp hr
  exact ⟨x, hx, (congrArg Ns.declare he :)⟩

/-- Settles O19: by the namespace's condition, and by the mark updates that are due. -/
theorem memberConditionEffects : Obligations.MemberConditionEffects := by
  unfold Obligations.MemberConditionEffects
  refine ⟨?_, ?_, ?_, ?_, ?_, ?_, ?_, ?_⟩
  · intro id i s hm hn _ hu hrel
    exact (congrArg (done s) (identityRead_new hm hn hu hrel)).trans (done_eq rfl rfl rfl)
  · intro id i s hm hn hr hu
    exact (congrArg (done s) (identityRead_unreachable hm hn hr hu)).trans (done_self s)
  · intro id n s h hc
    exact (congrArg (done s) (by simp only [unavailExpired, h, hc] : unavailExpired id s = s)).trans (done_self s)
  · intro id n c s h hc ha hs hd hf
    obtain ⟨h1, h2⟩ := declareFailed_declares (c := c) h ha hs hd hf
    exact ⟨_, congrArg (done s) (by simp only [unavailExpired, h, hc] : unavailExpired id s = declareFailed id c s), h1, h2⟩
  · intro id n s h ha hs hd hf
    have hns : (makeUnavailable (fun n => n.id == id) 4 s).ns id =
        some { n with cond := if n.cond = .healthy then .unavailable 4 else n.cond, reread := n.reread || true } :=
      find?_mapIf_some (fun _ _ => rfl) h (by simp [ns_id h])
    obtain ⟨h1, h2⟩ := declareFailed_declares (c := 4) hns ha hs hd hf
    exact ⟨_, rfl, h1, h2⟩
  · intro aid a s h hp hsv ho hn
    have hb : patrolDue aid s = startScrub aid true true 0 (a.body.desc.rounds * descS a.body.desc) s := by
      simp only [patrolDue, h]
      exact if_pos ⟨hp, hsv, ho, hn⟩
    exact (congrArg (done s) hb).trans (done_eq rfl rfl rfl)
  · intro s h
    have hl : s.arr.arrays.filter (fun a => a.owner && a.unpersisted) = [] := by
      rw [List.filter_eq_nil_iff]
      intro a ha hn
      exact h (List.any_eq_true.mpr ⟨a, ha, hn⟩)
    have hx : exec .doneRoundPersistTimer s = done s ((s.arr.arrays.filter (fun a => a.owner && a.unpersisted)).foldl (fun t a => persistProgress a t) s) := rfl
    rw [hx, hl]
    exact done_self s
  · intro a s hl ha
    have hx : exec .doneRoundPersistTimer s = done s ((s.arr.arrays.filter (fun a => a.owner && a.unpersisted)).foldl (fun t a => persistProgress a t) s) := rfl
    rw [hx, hl]
    have hd : MarkDue a.id (persistProgress a s) := startMark_markDue ha _ _
    exact ⟨_, rfl, hd⟩

end Sys2Proof.Machine
end

section
/-! PROOF. The Slip link, the messages of the mirror, takeover and the twin commands (R233 to R265). A fault of the Slip link needs the
link: a device without one (grade -C, R21) captures none, and three of the statements forget it. -/
namespace Sys2Proof.Machine

/-! ### A fault of an absent unit -/

/-- A source whose unit is absent is never judged (R438). -/
theorem raise_absent {f : FaultIn} {s : State} (h : s.srcPresent f.source = false) : raise f s = s := by
  have hc : collect [{ f := f }] s = collect [] s := by simp [collect, h]
  have hr : raise f s = lastKiln s (collect [{ f := f }] s) := rfl
  rw [hr, hc, collect_nil, lastKiln_self]

theorem done_first {s u t : State} (h : done s u = .next t) : t.fc.first = u.fc.first := (congrArg (fun x : State => x.fc.first) (Host.Outcome.next.inj h)).symm

/-! ### HELLO on a device without a Slip link -/

/-- The link counts as trained, but the device has no Slip link. -/
def helloNoSlip : State := { hw := { present := 0 }, twin := { trained := true } }
theorem helloRx_noSlip : (helloRx 0 0 0 0 0 helloNoSlip).fc.first = none := by
  have hr : helloRx 0 0 0 0 0 helloNoSlip = raise { source := 0x180 } (heldMsg 0 (helloNoSlip.onTwin fun t => { t with helloGot := true, helloOk := false })) := rfl
  rw [hr, raise_absent rfl]
  rfl

/-- Refutes O21: without a Slip link no fault of its session is captured. -/
theorem not_slipLinkEffects : ¬ Obligations.SlipLinkEffects := by
  unfold Obligations.SlipLinkEffects
  rintro ⟨-, -, -, -, -, -, -, hhello, -⟩
  obtain ⟨t, ht, hf⟩ := hhello 0 0 0 0 0 0 0 helloNoSlip rfl (by decide)
  have hd : done helloNoSlip (helloRx 0 0 0 0 0 helloNoSlip) = .next t := ht
  rw [done_first hd, helloRx_noSlip] at hf
  exact absurd hf (by decide)

/-! ### A lost partner on a device without a Slip link -/

/-- A partner is known and the link is down, but the device has no Slip link. -/
def lostNoSlip : State := { hw := { present := 0 }, twin := { partner := some 0 } }
theorem partnerLost_noSlip : (partnerLost lostNoSlip).fc.first = none := by
  have ht : raise { source := 0x182 } (record { kind := 6, keyA := 0, keyB := 3, sev := 2 } lostNoSlip) = record { kind := 6, keyA := 0, keyB := 3, sev := 2 } lostNoSlip :=
    raise_absent rfl
  unfold partnerLost
  rw [if_neg (by decide), ht]
  dsimp only
  split
  · have he : (State.onTwin (fun w => { w with st := if w.st = .stoodDown then .stoodDown else .partnerLost })
        (record { kind := 6, keyA := 0, keyB := 3, sev := 2 } lostNoSlip)).eligible = [] := rfl
    rw [he]
    rfl
  · rfl

/-- Refutes O24: without a Slip link the loss of the partner is not captured. -/
theorem not_takeoverEffects : ¬ Obligations.TakeoverEffects := by
  unfold Obligations.TakeoverEffects
  rintro ⟨-, -, -, -, hlost, -⟩
  obtain ⟨t, ht, hf, -⟩ := hlost lostNoSlip (by decide) (by decide) (by decide)
  have hd : done lostNoSlip (partnerLost lostNoSlip) = .next t := ht
  rw [done_first hd, partnerLost_noSlip] at hf
  exact absurd hf (by decide)

/-! ### A drill on a device without a Slip link -/

/-- A shared array of this side. -/
def drillArray : Arr := { service := 2, shared := true }
/-- Mailbox 0 runs TWIN_SWAP_DRILL on it, but the device has no Slip link. -/
def drillNoSlip : State :=
  { hw := { present := 0 }, arr := { arrays := [drillArray] }, mci := { mbs := [{ st := .executing, opcode := 0x0506 }] } }
theorem movable_drillNoSlip : movable drillNoSlip (drillFields drillNoSlip (drillNoSlip.mb 0)).1 = [drillArray] := by decide +kernel
theorem planRuns_drillNoSlip : planRuns 0 0x0506 drillNoSlip (twinSwapDrillPlan drillNoSlip) = true := by decide +kernel
theorem verify_drillNoSlip : (drillFields drillNoSlip (drillNoSlip.mb 0)).2.1 = true := by decide +kernel

/-- With nothing to send again, a resend has no effect. -/
theorem resend_nil (a : Arr) (s : State) : resend a [] [] s = s := by
  have hnone {α : Type} (f : α → Nat) (l : List α) : l.filter (fun x => ([] : List Nat).contains (f x) && f x != 0) = [] :=
    List.filter_eq_nil_iff.mpr fun x _ => by rw [List.contains_nil, Bool.false_and]; exact Bool.false_ne_true
  unfold resend
  rw [hnone, hnone]
  rfl
theorem drillAct_noSlip (m : Mci) : (drillAct 0 [] [] 3 (drillNoSlip.mb 0) { drillNoSlip with mci := m }).fc.first = none := by
  have hmv : movable { drillNoSlip with mci := m } (drillFields { drillNoSlip with mci := m } (drillNoSlip.mb 0)).1 = [drillArray] := movable_drillNoSlip
  have hv : (drillFields { drillNoSlip with mci := m } (drillNoSlip.mb 0)).2.1 = true := verify_drillNoSlip
  unfold drillAct
  dsimp only
  rw [hmv]
  dsimp only
  rw [if_pos ⟨hv, .inr (.inr (by decide))⟩, resend_nil, raise_absent (show drillNoSlip.srcPresent 0x184 = false by decide)]
  rfl

/-- Refutes O25: without a Slip link a drill whose check fails captures no fault. -/
theorem not_twinCommandEffects : ¬ Obligations.TwinCommandEffects := by
  unfold Obligations.TwinCommandEffects
  rintro ⟨-, -, -, -, -, -, hdrill, -⟩
  obtain ⟨t, ht, hf, -⟩ := hdrill 0 [] [] 3 drillArray [] drillNoSlip planRuns_drillNoSlip movable_drillNoSlip verify_drillNoSlip (by decide)
  obtain ⟨m, -, hrun⟩ := row_runs (drillAct 0 [] [] 3) planRuns_drillNoSlip
  have hd : done drillNoSlip (mciRun 0 0x0506 drillNoSlip (twinSwapDrillPlan drillNoSlip) (drillAct 0 [] [] 3)) = .next t := ht
  rw [hrun] at hd
  rw [done_first hd, drillAct_noSlip] at hf
  exact absurd hf (by decide)

/-! ### MSG_SEQ of received messages (R247) -/

theorem heldMsg_next {s : State} (h : s.twin.heldRx = []) : heldMsg (s.twin.msgSeqRx + 1) s = { s with twin := { s.twin with msgSeqRx := s.twin.msgSeqRx + 1 } } := by
  have hl : (if s.twin.msgSeqRx + 1 ≤ s.twin.msgSeqRx then s.twin.heldRx else addOnce (s.twin.msgSeqRx + 1) s.twin.heldRx) = [s.twin.msgSeqRx + 1] := by
    rw [if_neg (by omega), h]; rfl
  unfold heldMsg State.onTwin
  dsimp only
  rw [hl]
  simp [ackRun, h]
theorem heldMsg_gap {q : Nat} {s : State} (hq : s.twin.msgSeqRx + 1 < q) (h : s.twin.heldRx = []) :
    heldMsg q s = { s with twin := { s.twin with heldRx := [q] } } := by
  have hl : (if q ≤ s.twin.msgSeqRx then s.twin.heldRx else addOnce q s.twin.heldRx) = [q] := by
    rw [if_neg (by omega), h]; rfl
  have hn : s.twin.msgSeqRx < q := by omega
  have hne : s.twin.msgSeqRx + 1 ≠ q := by omega
  unfold heldMsg State.onTwin
  dsimp only
  rw [hl]
  simp [ackRun, hn, hne]

/-! ### Sequences that are held (R246 to R249) -/

/-- `t` holds every sequence that `s` holds, and the same writes have ended. -/
def HeldGrows (s t : State) : Prop := (∀ q ∈ s.twin.heldTwinSeq, q ∈ t.twin.heldTwinSeq) ∧ t.twin.ended = s.twin.ended

theorem HeldGrows.of_twin {s t : State} (h : t.twin = s.twin) : HeldGrows s t := ⟨fun q hq => by rwa [h], by rw [h]⟩
theorem HeldGrows.trans {s t u : State} (a : HeldGrows s t) (b : HeldGrows t u) : HeldGrows s u := ⟨fun q hq => b.1 q (a.1 q hq), b.2.trans a.2⟩
theorem HeldGrows.foldl {α : Type} (f : State → α → State) (h : ∀ u x, HeldGrows u (f u x)) (l : List α) (s : State) : HeldGrows s (l.foldl f s) := by
  induction l generalizing s with
  | nil => exact .of_twin rfl
  | cons x l ih => exact (h s x).trans (ih _)

theorem heldMsg_grows (q : Nat) (s : State) : HeldGrows s (heldMsg q s) := ⟨fun _ h => h, rfl⟩
theorem countDup_grows (s : State) : HeldGrows s (countDup s) := ⟨fun _ h => h, rfl⟩
theorem holdSeq_grows (q : Nat) (s : State) : HeldGrows s (holdSeq q s) := ⟨fun _ h => List.mem_append_left _ h, rfl⟩
theorem mem_holdSeq (q : Nat) (s : State) : q ∈ (holdSeq q s).twin.heldTwinSeq := List.mem_append_right _ (List.mem_singleton.mpr rfl)
theorem dupRx_iff {q : Nat} {s : State} : dupRx q s = true ↔ q ∈ s.twin.heldTwinSeq := List.contains_iff_mem

theorem remoteSend_twin (node typ side count key ts lba : Nat) (body : Bytes) (s : State) : (remoteSend node typ side count key ts lba body s).twin = s.twin := rfl
theorem remoteLine_twin (a : Arr) (side q : Nat) (l : SlipLine) (s : State) : (remoteLine a side q l s).twin = s.twin := by
  unfold remoteLine
  split
  · rfl
  · exact remoteSend_twin _ _ _ _ _ _ _ _ s
theorem remoteSend_foldl_twin (typ side count key ts lba : Nat) (body : Bytes) (l : List Nat) (s : State) :
    (l.foldl (fun u n => remoteSend n typ side count key ts lba body u) s).twin = s.twin := by
  induction l generalizing s with
  | nil => rfl
  | cons n l ih => exact (ih _).trans (remoteSend_twin _ _ _ _ _ _ _ _ s)
theorem mirrorComplete_twin (key adm : Nat) (s : State) : (mirrorComplete key adm s).twin = s.twin := by
  unfold mirrorComplete
  dsimp only
  split <;> rfl

/-- A record that arrives is held under its TWIN_SEQ. -/
theorem recordRx_holds (r : Rec) (s : State) : HeldGrows s (recordRx r s) ∧ r.twinSeq ∈ (recordRx r s).twin.heldTwinSeq := by
  by_cases hd : dupRx r.twinSeq s = true
  · have hr : recordRx r s = countDup s := if_pos hd
    rw [hr]
    exact ⟨countDup_grows s, dupRx_iff.mp hd⟩
  · have ht : (recordRx r s).twin = (holdSeq r.twinSeq s).twin := by
      unfold recordRx
      rw [if_neg hd]
      dsimp only
      split
      · exact remoteSend_foldl_twin _ _ _ _ _ _ _ _ _
      · exact remoteSend_foldl_twin _ _ _ _ _ _ _ _ _
    refine ⟨(holdSeq_grows r.twinSeq s).trans (.of_twin ht), ?_⟩
    rw [ht]
    exact mem_holdSeq _ _
theorem recordRx_foldl_holds (rs : List Rec) (s : State) :
    HeldGrows s (rs.foldl (fun t r => recordRx r t) s) ∧ ∀ r ∈ rs, r.twinSeq ∈ (rs.foldl (fun t r => recordRx r t) s).twin.heldTwinSeq := by
  have hg (l : List Rec) (u : State) : HeldGrows u (l.foldl (fun t r => recordRx r t) u) := HeldGrows.foldl _ (fun u r => (recordRx_holds r u).1) l u
  refine ⟨hg rs s, ?_⟩
  induction rs generalizing s with
  | nil => simp
  | cons r rs ih =>
    intro x hx
    obtain rfl | hx := List.mem_cons.mp hx
    · exact (hg rs _).1 _ (recordRx_holds x s).2
    · exact ih _ x hx

/-- A new line with room for it is held under its TWIN_SEQ. -/
theorem lineRx_taken {seq q n : Nat} {l : SlipLine} {s : State} (hd : ¬ dupRx q s = true) (he : ¬ s.twin.ended.contains l.admitSeq = true) (hm : s.freeMirror = some n) :
    HeldGrows (holdSeq q s) (lineRx seq q l s) := by
  unfold lineRx
  rw [if_neg hd, if_neg he, hm]
  dsimp only
  refine HeldGrows.trans ?_ (heldMsg_grows seq _)
  refine .of_twin ((mirrorComplete_twin _ _ _).trans ?_)
  split
  · exact remoteLine_twin _ _ _ _ _
  · rfl
theorem lineRx_grows (seq q : Nat) (l : SlipLine) (s : State) : HeldGrows s (lineRx seq q l s) := by
  by_cases hd : dupRx q s = true
  · have hr : lineRx seq q l s = heldMsg seq (countDup s) := if_pos hd
    rw [hr]
    exact (countDup_grows s).trans (heldMsg_grows seq _)
  · by_cases he : s.twin.ended.contains l.admitSeq = true
    · have hr : lineRx seq q l s = heldMsg seq (holdSeq q s) := (if_neg hd).trans (if_pos he)
      rw [hr]
      exact (holdSeq_grows q s).trans (heldMsg_grows seq _)
    · cases hm : s.freeMirror with
      | none =>
        unfold lineRx
        rw [if_neg hd, if_neg he, hm]
        exact .of_twin rfl
      | some n => exact (holdSeq_grows q s).trans (lineRx_taken hd he hm)
theorem lineRx_full {seq q : Nat} {l : SlipLine} {s : State} (hd : ¬ dupRx q s = true) (he : ¬ s.twin.ended.contains l.admitSeq = true) (hm : s.freeMirror = none) :
    lineRx seq q l s = s := by
  unfold lineRx
  rw [if_neg hd, if_neg he, hm]

theorem progressRx_owner {key g dr : Nat} {es : List (Nat × Nat × Nat)} {a : Arr} {s : State} (h : s.arrayOfKey key = some a) (ho : a.owner = true) :
    progressRx key g dr es s = s := by
  simp only [progressRx, h]
  exact if_pos ho
/-- The other side follows the owner's progress. -/
theorem progressRx_follows {key g dr : Nat} {es : List (Nat × Nat × Nat)} {a : Arr} {s : State} (h : s.arrayOfKey key = some a) (ha : s.array a.id = some a)
    (ho : ¬ a.owner = true) : ∃ x, (progressRx key g dr es s).array a.id = some x ∧ x.markGen = max a.markGen g ∧ x.exact = es := by
  simp only [progressRx, h]
  rw [if_neg ho]
  exact ⟨_, array_onArray_self (fun _ => rfl) ha, rfl, rfl⟩

/-- Settles O22: a message of the mirror changes what is held, and then its MSG_SEQ is held. -/
theorem slipMessageEffects : Obligations.SlipMessageEffects := by
  unfold Obligations.SlipMessageEffects
  refine ⟨?_, ?_, ?_, ?_, ?_, ?_, ?_, ?_, ?_, ?_, ?_, ?_, ?_⟩
  · rintro q s hr rfl hh
    exact (congrArg (done s) ((if_pos hr).trans (heldMsg_next hh))).trans (done_eq rfl rfl rfl)
  · rintro q s hr rfl hh
    exact (congrArg (done s) ((if_pos hr).trans (heldMsg_next hh))).trans (done_eq rfl rfl rfl)
  · intro q s hr hq hh
    exact (congrArg (done s) ((if_pos hr).trans (heldMsg_gap hq hh))).trans (done_eq rfl rfl rfl)
  · intro q sd rs s hr
    exact ⟨_, congrArg (done s) (if_pos hr), (recordRx_foldl_holds rs s).2⟩
  · intro q sd r s hr hd
    have hb : recordRx r s = countDup s := if_pos (dupRx_iff.mpr hd)
    exact (congrArg (done s) ((if_pos hr).trans (congrArg (heldMsg q) hb))).trans (done_eq rfl rfl rfl)
  · intro q sd ts l s hr hd
    have hb : lineRx q ts l s = heldMsg q (countDup s) := if_pos (dupRx_iff.mpr hd)
    exact (congrArg (done s) ((if_pos hr).trans hb)).trans (done_eq rfl rfl rfl)
  · intro q sd ts l s hr hd he hm
    obtain ⟨n, hn⟩ := Option.ne_none_iff_exists'.mp hm
    refine ⟨_, congrArg (done s) (if_pos hr), ?_⟩
    exact (lineRx_taken (seq := q) (by rwa [dupRx_iff]) (by rwa [List.contains_iff_mem]) hn).1 ts (mem_holdSeq ts s)
  · intro q sd ts l s hr hd he hm
    exact (congrArg (done s) ((if_pos hr).trans (lineRx_full (by rwa [dupRx_iff]) (by rwa [List.contains_iff_mem]) hm))).trans (done_self s)
  · intro q sd key seqs s hr
    exact ⟨_, (congrArg (done s) (if_pos hr)).trans (done_eq rfl rfl rfl), rfl, rfl, rfl, rfl⟩
  · intro q key g dr es a s hr ha hid ho
    obtain ⟨x, hx, hp⟩ := progressRx_follows (g := g) (dr := dr) (es := es) ha hid ho
    exact ⟨_, congrArg (done s) (if_pos hr), x, hx, hp⟩
  · intro q key g dr es a s hr ha ho
    exact (congrArg (done s) ((if_pos hr).trans (congrArg (heldMsg q) (progressRx_owner ha ho)))).trans (done_eq rfl rfl rfl)
  · intro q sd ps ls rs es s hr hmode
    obtain ⟨h1, h2⟩ := recordRx_foldl_holds rs s
    have h3 := HeldGrows.foldl (fun t (x : SlipLine × Nat) => pageLine x t) (fun u x => lineRx_grows 0 x.2 x.1 u) ls (rs.foldl (fun t r => recordRx r t) s)
    refine ⟨_, congrArg (done s) (if_pos ⟨hr, hmode⟩), ?_, fun r hrs => h3.1 _ (h2 r hrs)⟩
    exact congrArg (· ++ es) (h1.trans h3).2
  · intro q sd ps ls rs es s hmode
    exact (congrArg (done s) (if_neg fun h => hmode h.2)).trans (done_self s)

end Sys2Proof.Machine
end

section
/-! PROOF. The Coil engine: entries and packets out (R276, R280), and the handshake (R277 to R279). -/
namespace Sys2Proof.Machine

/-! ### Trust slots (R274, R276) -/

theorem onSlot_slot (one : Bool) (f : TrustSlot → TrustSlot) (s : State) : (onSlot one f s).coil.slot one = f (s.coil.slot one) := by cases one <;> rfl
theorem onSlot_eq (one : Bool) (f : TrustSlot → TrustSlot) (s : State) :
    onSlot one f s = { s with coil := { s.coil with slot0 := (onSlot one f s).coil.slot0, slot1 := (onSlot one f s).coil.slot1 } } := by cases one <;> rfl
theorem reserveBlock_eq (one : Bool) (s : State) : (reserveBlock one s).2 =
    { s with coil := { s.coil with slot0 := (reserveBlock one s).2.coil.slot0, slot1 := (reserveBlock one s).2.coil.slot1 } } := by
  unfold reserveBlock
  dsimp only
  split
  · rfl
  · cases one <;> rfl
theorem reserveBlock_some {one : Bool} {s : State} (hv : (s.coil.slot one).valid = true) (he : ¬ (s.coil.slot one).exhausted = true) (hd : ¬ s.dev.debugActive = true) :
    ∃ b, (reserveBlock one s).1 = some b := by
  unfold reserveBlock
  dsimp only
  rw [if_neg (by simp [hv, he, hd])]
  exact ⟨_, rfl⟩
theorem reserveStateless_assocs (one : Bool) (s : State) : (reserveStateless one s).coil.assocs = s.coil.assocs := by
  have hb := congrArg (fun u : State => u.coil.assocs) (reserveBlock_eq one s)
  unfold reserveStateless
  split
  · next h =>
    rw [onSlot_eq]
    rw [h] at hb
    exact hb
  · next h =>
    rw [h] at hb
    exact hb

/-! ### Entries and packets out (R276, R280) -/

theorem assoc_no {s : State} {n : Nat} {e : Assoc} (h : s.assoc n = some e) : e.no = n := by simpa using List.find?_some h
theorem assoc_onAssoc_self {s : State} {n : Nat} {e : Assoc} {f : Assoc → Assoc} (hf : ∀ x, (f x).no = x.no) (h : s.assoc n = some e) :
    (onAssoc n f s).assoc n = some (f e) := find?_mapIf_some (fun x _ => by rw [hf]) h (by simp [assoc_no h])

theorem coilEmit_eq (e : Assoc) (typ index xmit : Nat) (args : List Nat) (d : Bytes) (s : State) : coilEmit e typ index xmit args d s =
    { s with out := (coilEmit e typ index xmit args d s).out
             coil := { s.coil with tx := (coilEmit e typ index xmit args d s).coil.tx, spent := (coilEmit e typ index xmit args d s).coil.spent } } := by
  unfold coilEmit
  split <;> rfl
/-- A control packet counts on its entry, if the entry is there. -/
theorem coilControl_assocs (n typ : Nat) (args : List Nat) (s : State) :
    (coilControl n typ args s).coil.assocs = mapIf s.coil.assocs (fun e => e.no == n) (fun x => { x with ctrlCtr := x.ctrlCtr + 1 }) := by
  unfold coilControl
  split
  · next h => exact (mapIf_eq_self (fun a ha hn => List.find?_eq_none.mp h a ha hn) _).symm
  · rw [coilEmit_eq]; rfl
theorem coilControl_assoc (n typ m : Nat) (args : List Nat) (s : State) :
    (coilControl n typ args s).assoc m = (onAssoc n (fun x => { x with ctrlCtr := x.ctrlCtr + 1 }) s).assoc m := by
  unfold State.assoc
  rw [coilControl_assocs]; rfl

/-- `P` holds of every entry of the number. -/
def AllAt (n : Nat) (P : Assoc → Prop) (s : State) : Prop := ∀ x ∈ s.coil.assocs, x.no = n → P x
/-- A change of the entries of a number establishes `P` of them. -/
theorem allAt_onAssoc {n : Nat} {P : Assoc → Prop} {f : Assoc → Assoc} {s : State} (h : ∀ x, P (f x)) : AllAt n P (onAssoc n f s) := by
  intro x hx hn
  obtain ⟨y, -, rfl⟩ := List.mem_map.mp hx
  split
  · exact h y
  · next hc =>
    rw [if_neg hc] at hn
    exact absurd (by simpa using hn) hc
theorem AllAt.mapIf {n m : Nat} {P : Assoc → Prop} {f : Assoc → Assoc} {s t : State} (ht : t.coil.assocs = mapIf s.coil.assocs (fun e => e.no == m) f)
    (hno : ∀ x, (f x).no = x.no) (hP : ∀ x, P x → P (f x)) (h : AllAt n P s) : AllAt n P t := by
  intro x hx hn
  rw [ht] at hx
  obtain ⟨y, hy, rfl⟩ := List.mem_map.mp hx
  split
  · next hc =>
    rw [if_pos hc, hno] at hn
    exact hP y (h y hy hn)
  · next hc =>
    rw [if_neg hc] at hn
    exact h y hy hn
/-- A control packet changes nothing of an entry but its control counter. -/
theorem AllAt.coilControl {n m typ : Nat} {args : List Nat} {P : Assoc → Prop} {s : State} (hP : ∀ x c, P x → P { x with ctrlCtr := c }) (h : AllAt n P s) :
    AllAt n P (coilControl m typ args s) := h.mapIf (coilControl_assocs m typ args s) (fun _ => rfl) (fun x => hP x _)

/-! ### Packets in (R281) -/

theorem coilGate_passes {h : CoilHdr} {s : State} (act : State → State) (hp : s.coilPasses h = true) : coilGate h s act = act (coilSeen h s) := if_pos hp
theorem coilPasses_slot {h : CoilHdr} {s : State} (hp : s.coilPasses h = true) : (s.coil.slot h.keySlot).valid = true ∧ ¬ s.dev.debugActive = true := by
  simp only [State.coilPasses, Bool.and_eq_true, Bool.not_eq_true'] at hp
  obtain ⟨⟨⟨-, hv⟩, hd⟩, -⟩ := hp
  exact ⟨hv, by simp [hd]⟩
theorem coilPasses_present {h : CoilHdr} {s : State} (hp : s.coilPasses h = true) : (s.coilPresent 0 || s.coilPresent 1) = true := by
  simp only [State.coilPasses, Bool.and_eq_true] at hp
  obtain ⟨⟨⟨⟨⟨⟨⟨hc, -⟩, -⟩, -⟩, -⟩, -⟩, -⟩, -⟩ := hp
  have hlt : h.port < 2 := by
    simp only [State.coilPresent, Bool.and_eq_true, decide_eq_true_eq] at hc
    exact hc.1
  obtain h0 | h1 : h.port = 0 ∨ h.port = 1 := by omega
  · rw [h0] at hc; simp [hc]
  · rw [h1] at hc; simp [hc]
/-- What a packet leaves behind: a count of its mark, and its entry heard from. -/
theorem coilSeen_eq (h : CoilHdr) (s : State) : coilSeen h s =
    { s with coil := { s.coil with assocs := (coilSeen h s).coil.assocs }, ccnt := { s.ccnt with ecnMarks := (coilSeen h s).ccnt.ecnMarks } } := by
  unfold coilSeen
  dsimp only
  split <;> split <;> rfl
theorem coilSeen_slot (h : CoilHdr) (one : Bool) (s : State) : (coilSeen h s).coil.slot one = s.coil.slot one := by
  rw [coilSeen_eq]; rfl
theorem done_coilSeen (h : CoilHdr) (s : State) : done s (coilSeen h s) = .next (coilSeen h s) := by
  refine done_eq ?_ ?_ ?_
  · rw [coilSeen_eq]
  · rw [coilSeen_eq]
  · rw [coilSeen_eq]
theorem done_seen_drop (h : CoilHdr) (s : State) : done s (drop (coilSeen h s)) = .next (drop (coilSeen h s)) := by
  refine done_eq ?_ ?_ ?_
  · show (coilSeen h s).pending = _
    rw [coilSeen_eq]
  · show (coilSeen h s).hw = _
    rw [coilSeen_eq]
  · show (coilSeen h s).fc = _
    rw [coilSeen_eq]

/-- A reply from the stateless block goes out, and no entry changes. -/
theorem coilStateless_spec (h : CoilHdr) (typ : Nat) (args : List Nat) (s : State) :
    (coilStateless h typ args s).out = .coil 0xFFFF typ h.src (s.coil.slot h.keySlot).statelessCtr 0xFFFF args [] :: s.out ∧
    (coilStateless h typ args s).coil.assocs = s.coil.assocs ∧ (coilStateless h typ args s).ccnt = s.ccnt := by
  unfold coilStateless
  dsimp only
  split
  · rw [onSlot_eq]
    exact ⟨rfl, rfl, rfl⟩
  · refine ⟨?_, reserveStateless_assocs _ _, ?_⟩
    · rw [reserveStateless_eq]; rfl
    · rw [reserveStateless_eq]; rfl

/-! ### The handshake (R277 to R279) -/

section
variable {h : CoilHdr} {b c : Nat} {s : State}

theorem openRx_challenge (hb : baseOk b = true) (he : ¬ (s.coil.slot h.keySlot).exhausted = true) (hf : s.freeEntry ≠ none) : openRx h b s =
    coilStateless h 2 [b, cookieFor s h.src h.epoch (b / 2 ^ 32) s.bucket, flag s.coil.cfg.payload8k 3] s :=
  (if_neg (not_not_intro hb)).trans ((if_neg he).trans (if_neg hf))
theorem openRx_busy (hb : baseOk b = true) (he : ¬ (s.coil.slot h.keySlot).exhausted = true) (hf : s.freeEntry = none) : openRx h b s = sendBusy h s :=
  (if_neg (not_not_intro hb)).trans ((if_neg he).trans (if_pos hf))
theorem confirmRx_wrongCookie (hb : baseOk b = true)
    (hn : s.coil.assocs.find? (fun e => e.peer == h.src && e.peerEpoch == h.epoch && e.peerBlock == b / 2 ^ 32 && !e.opener) = none)
    (h1 : c ≠ cookieFor s h.src h.epoch (b / 2 ^ 32) s.bucket) (h2 : c ≠ cookieFor s h.src h.epoch (b / 2 ^ 32) (u32 (s.bucket + 2 ^ 32 - 1))) :
    confirmRx h b c s = s := by
  unfold confirmRx
  dsimp only
  rw [if_neg (not_not_intro hb), hn]
  exact if_pos ⟨h1, h2⟩
/-- A CONFIRM with the right cookie takes the free entry. -/
theorem confirmRx_takes {no : Nat} (hb : baseOk b = true)
    (hn : s.coil.assocs.find? (fun e => e.peer == h.src && e.peerEpoch == h.epoch && e.peerBlock == b / 2 ^ 32 && !e.opener) = none)
    (hc : c = cookieFor s h.src h.epoch (b / 2 ^ 32) s.bucket) (hf : s.freeEntry = some no) (hr : ∃ r, (reserveBlock h.keySlot s).1 = some r) :
    ∃ x ∈ (confirmRx h b c s).coil.assocs, x.no = no ∧ x.peer = h.src ∧ x.st = .confirming ∧ x.opener = false ∧ x.peerBlock = b / 2 ^ 32 := by
  obtain ⟨r, hr⟩ := hr
  unfold confirmRx
  dsimp only
  rw [if_neg (not_not_intro hb), hn]
  dsimp only
  rw [if_neg fun hx => hx.1 hc, hf]
  dsimp only
  generalize reserveBlock h.keySlot s = q at hr
  obtain ⟨o, u⟩ := q
  obtain rfl : o = some r := hr
  exact ⟨_, List.mem_append_right _ (List.mem_singleton.mpr rfl), rfl, rfl, rfl, rfl, rfl⟩
theorem acceptRx_establishes {ob rb : Nat} {e : Assoc}
    (he : s.coil.assocs.find? (fun e => e.opener && e.st == .confirming && e.peer == h.src && e.block * 2 ^ 32 == ob) = some e)
    (hc : ¬ s.arr.cmds.any (fun c => c.sent && c.timedOut) = true) : acceptRx h ob rb s = onAssoc e.no (fun x => { x with
      st := .established, peerEpoch := h.epoch, peerBlock := rb / 2 ^ 32, peerPmax := h.pmax, lastRx := s.hw.turn }) s := by
  have hr (u : State) (hu : u.arr = s.arr) : remoteEnded h.src u = u := by
    unfold remoteEnded
    rw [List.filter_eq_nil_iff.mpr]
    · rfl
    · intro x hx hn
      rw [hu] at hx
      refine hc (List.any_eq_true.mpr ⟨x, hx, ?_⟩)
      simp only [Bool.and_eq_true] at hn ⊢
      exact hn.1
  unfold acceptRx
  rw [he]
  exact hr _ rfl
end

theorem openRetry_established {n : Nat} {e : Assoc} {s : State} (h : s.assoc n = some e) (he : e.st = .established) : openRetry n s = s := by
  simp only [openRetry, h, he]
  split <;> rfl
/-- The retry interval of a handshake under way doubles, up to 64 ms. -/
theorem openRetry_doubles {n : Nat} {e : Assoc} {s : State} (h : s.assoc n = some e) (ho : e.opener = true) (hb : ¬ e.busy = true)
    (hst : e.st = .opening ∨ e.st = .confirming) : ∃ x, (openRetry n s).assoc n = some x ∧ x.retryUs = min 64000 (2 * e.retryUs) := by
  have hx : ∃ typ args, openRetry n s = coilControl n typ args (onAssoc n (fun x => { x with retryUs := min 64000 (2 * x.retryUs) }) s) := by
    simp only [openRetry, h]
    rw [if_neg (by simp [ho, hb])]
    obtain hs | hs := hst
    · simp only [hs]; exact ⟨_, _, rfl⟩
    · simp only [hs]; exact ⟨_, _, rfl⟩
  obtain ⟨typ, args, hx⟩ := hx
  have ha := assoc_onAssoc_self (f := fun x => { x with retryUs := min 64000 (2 * x.retryUs) }) (fun _ => rfl) h
  rw [hx, coilControl_assoc, assoc_onAssoc_self (f := fun x => { x with ctrlCtr := x.ctrlCtr + 1 }) (fun _ => rfl) ha]
  exact ⟨_, rfl, rfl⟩
theorem busyExpired_restarts {n : Nat} {e : Assoc} {s : State} (h : s.assoc n = some e) (hb : e.busy = true) :
    ∃ x, (busyExpired n s).assoc n = some x ∧ x.busy = false ∧ x.st = .opening ∧ x.retryUs = 100 := by
  simp only [busyExpired, h]
  have ha := assoc_onAssoc_self (f := fun x => { x with busy := false, st := .opening, retryUs := 100 }) (fun _ => rfl) h
  rw [if_pos hb, coilControl_assoc, assoc_onAssoc_self (f := fun x => { x with ctrlCtr := x.ctrlCtr + 1 }) (fun _ => rfl) ha]
  exact ⟨_, rfl, rfl, rfl, rfl⟩
theorem busyExpired_idle {n : Nat} {e : Assoc} {s : State} (h : s.assoc n = some e) (hb : ¬ e.busy = true) : busyExpired n s = s := by
  simp only [busyExpired, h]
  exact if_neg hb

/-- Settles O27: a packet that passes the gate does to its entry what its type says. -/
theorem coilHandshakeEffects : Obligations.CoilHandshakeEffects := by
  unfold Obligations.CoilHandshakeEffects
  refine ⟨?_, ?_, ?_, ?_, ?_, ?_, ?_, ?_, ?_, ?_, ?_⟩
  · intro h b s hp hb he hf
    obtain ⟨ho, ha, -⟩ := coilStateless_spec h 2 [b, cookieFor (coilSeen h s) h.src h.epoch (b / 2 ^ 32) (coilSeen h s).bucket, flag s.coil.cfg.payload8k 3] (coilSeen h s)
    have hcfg : (coilSeen h s).coil.cfg = s.coil.cfg := by rw [coilSeen_eq]
    have hout : (coilSeen h s).out = s.out := by rw [coilSeen_eq]
    have hx := openRx_challenge (h := h) hb he hf
    rw [hcfg] at hx
    refine ⟨_, congrArg (done s) ((coilGate_passes (openRx h b) hp).trans hx), ?_, ha⟩
    rw [← hout]
    exact ho
  · intro h b s hp hb he hf
    have hbusy : (coilSeen h s).ccnt.busySent = s.ccnt.busySent := by rw [coilSeen_eq]
    obtain ⟨-, ha, hc⟩ := coilStateless_spec h 6 [1, coilSeq h] ((coilSeen h s).onCcnt fun c => { c with busySent := bump c.busySent })
    refine ⟨_, congrArg (done s) ((coilGate_passes (openRx h b) hp).trans (openRx_busy hb he hf)), ?_, ha⟩
    rw [← hbusy]
    exact (congrArg CoilCnt.busySent hc :)
  · intro h b s hp hb
    exact (congrArg (done s) ((coilGate_passes (openRx h b) hp).trans (if_pos hb))).trans (done_seen_drop h s)
  · intro h b c e s hp he
    have hx : challengeRx h b c (coilSeen h s) = coilControl e.no 3 [b, c, flag (coilSeen h s).coil.cfg.payload8k 3] (onAssoc e.no (fun x => { x with
        st := .confirming, cookie := c, busy := false, retryUs := 100, lastRx := (coilSeen h s).hw.turn }) (coilSeen h s)) := by
      simp only [challengeRx, he]
    refine ⟨_, congrArg (done s) ((coilGate_passes (challengeRx h b c) hp).trans hx), ?_⟩
    exact AllAt.coilControl (P := fun x => x.st = .confirming ∧ x.cookie = c ∧ x.retryUs = 100) (fun _ _ hx => hx) (allAt_onAssoc fun _ => ⟨rfl, rfl, rfl⟩)
  · intro h b c no s hp hb hn hc hf he
    obtain ⟨hv, hd⟩ := coilPasses_slot hp
    have hdev : (coilSeen h s).dev = s.dev := by rw [coilSeen_eq]
    refine ⟨_, congrArg (done s) (coilGate_passes (confirmRx h b c) hp), ?_⟩
    exact confirmRx_takes hb hn hc hf (reserveBlock_some (by rwa [coilSeen_slot]) he (by rwa [hdev]))
  · intro h b c s hp hb hn h1 h2
    exact (congrArg (done s) ((coilGate_passes (confirmRx h b c) hp).trans (confirmRx_wrongCookie hb hn h1 h2))).trans (done_coilSeen h s)
  · intro h ob rb e s hp he hc
    have harr : (coilSeen h s).arr = s.arr := by rw [coilSeen_eq]
    have hturn : (coilSeen h s).hw = s.hw := by rw [coilSeen_eq]
    have hx := acceptRx_establishes (rb := rb) he (by rwa [harr])
    rw [hturn] at hx
    refine (congrArg (done s) ((coilGate_passes (acceptRx h ob rb) hp).trans hx)).trans (done_eq ?_ ?_ ?_)
    · show (coilSeen h s).pending = _
      rw [coilSeen_eq]
    · exact hturn
    · show (coilSeen h s).fc = _
      rw [coilSeen_eq]
  · intro n e s h ho hb hst
    exact ⟨_, rfl, openRetry_doubles h ho hb hst⟩
  · intro n e s h he
    exact (congrArg (done s) (openRetry_established h he)).trans (done_self s)
  · intro n e s h hb
    exact ⟨_, rfl, busyExpired_restarts h hb⟩
  · intro n e s h hb
    exact (congrArg (done s) (busyExpired_idle h hb)).trans (done_self s)

end Sys2Proof.Machine
end

section
/-! PROOF. Coil messages received (R281 to R291) and the Coil commands (R276, R290, R296 to R299). -/
namespace Sys2Proof.Machine

/-! ### What acknowledgement changes (R283, R284) -/

/-- `t` is `s` but for packets that went out and their entries. -/
def CtrlOnly (s t : State) : Prop :=
  t = { s with out := t.out, coil := { s.coil with assocs := t.coil.assocs, tx := t.coil.tx, spent := t.coil.spent } }
/-- The same, with packets sent again, messages done and times measured. -/
def AckOnly (s t : State) : Prop :=
  t = { s with out := t.out, free := t.free
               coil := { s.coil with assocs := t.coil.assocs, tx := t.coil.tx, spent := t.coil.spent, outbox := t.coil.outbox, retransmits := t.coil.retransmits } }

theorem CtrlOnly.refl (s : State) : CtrlOnly s s := rfl
theorem CtrlOnly.trans {s t u : State} (a : CtrlOnly s t) (b : CtrlOnly t u) : CtrlOnly s u := by
  unfold CtrlOnly at a b ⊢
  rw [b, a]
theorem CtrlOnly.pw {s t : State} (h : CtrlOnly s t) : t.pw = s.pw := by unfold CtrlOnly at h; rw [h]
theorem CtrlOnly.outbox {s t : State} (h : CtrlOnly s t) : t.coil.outbox = s.coil.outbox := by unfold CtrlOnly at h; rw [h]
theorem AckOnly.refl (s : State) : AckOnly s s := rfl
theorem AckOnly.trans {s t u : State} (a : AckOnly s t) (b : AckOnly t u) : AckOnly s u := by
  unfold AckOnly at a b ⊢
  rw [b, a]
theorem CtrlOnly.ack {s t : State} (h : CtrlOnly s t) : AckOnly s t := by
  unfold CtrlOnly at h
  rw [h]; rfl
theorem AckOnly.foldl {α : Type} (f : State → α → State) (h : ∀ u x, AckOnly u (f u x)) (l : List α) (s : State) : AckOnly s (l.foldl f s) := by
  induction l generalizing s with
  | nil => exact .refl s
  | cons x l ih => exact (h s x).trans (ih _)

theorem onAssoc_ctrl (n : Nat) (f : Assoc → Assoc) (s : State) : CtrlOnly s (onAssoc n f s) := rfl
theorem coilEmit_ctrl (e : Assoc) (typ index xmit : Nat) (args : List Nat) (d : Bytes) (s : State) : CtrlOnly s (coilEmit e typ index xmit args d s) := by
  rw [coilEmit_eq]; rfl
theorem coilControl_ctrl (n typ : Nat) (args : List Nat) (s : State) : CtrlOnly s (coilControl n typ args s) := by
  unfold coilControl
  split
  · exact .refl s
  · exact (onAssoc_ctrl n _ s).trans (coilEmit_ctrl _ _ _ _ _ _ _)
theorem sendAck_ctrl (n : Nat) (s : State) : CtrlOnly s (sendAck n s) := by
  unfold sendAck
  split
  · exact .refl s
  · exact (onAssoc_ctrl n _ s).trans (coilControl_ctrl n _ _ _)
theorem takeIndex_ctrl (h : CoilHdr) (e : Assoc) (s : State) : CtrlOnly s (takeIndex h e s) := by
  unfold takeIndex
  dsimp only
  generalize (if e.anyRx then max e.highest h.index else h.index) = hi
  have ht := onAssoc_ctrl e.no (fun x => { x with highest := hi, anyRx := true, bitmap := (addOnce h.index x.bitmap).filter (fun n => hi < n + 2048), sinceAck := x.sinceAck + 1 }) s
  split
  · exact ht.trans (sendAck_ctrl _ _)
  · exact ht
theorem resendPacket_ack (n : Nat) (u : Unacked) (s : State) : AckOnly s (resendPacket n u s) := by
  unfold resendPacket
  split
  · exact .refl s
  · refine AckOnly.trans ?_ (coilEmit_ctrl _ _ _ _ _ _ _).ack
    rfl
theorem measureRtt_ack (n : Nat) (l : List Unacked) (s : State) : AckOnly s (measureRtt n l s) := by
  unfold measureRtt
  split <;> rfl
theorem sweepOutbox_ack (n : Nat) (s : State) : AckOnly s (sweepOutbox n s) := by
  unfold sweepOutbox
  split <;> rfl
theorem acked_ack (n i : Nat) (l : List Nat) (c : Bool) (s : State) : AckOnly s (acked n i l c s) := by
  unfold acked
  split
  · exact .refl s
  · refine AckOnly.trans ?_ (sweepOutbox_ack n _)
    refine AckOnly.trans ?_ (AckOnly.foldl _ (fun v u => resendPacket_ack n u v) _ _)
    refine AckOnly.trans ?_ (measureRtt_ack n _ _)
    split
    · exact ((onAssoc_ctrl n _ s).trans (onAssoc_ctrl n _ _)).ack
    · exact (onAssoc_ctrl n _ s).ack

/-! ### Sequenced packets (R281, R282) -/

/-- The state in which a packet of the entry is delivered: the packet has been seen, and its ACK_SEQ taken. -/
def afterAck (h : CoilHdr) (e : Assoc) (s : State) : State := acked e.no h.ackIndex [] h.ece (coilSeen h s)
theorem afterAck_eq (h : CoilHdr) (e : Assoc) (s : State) : afterAck h e s =
    { s with out := (afterAck h e s).out, free := (afterAck h e s).free, ccnt := { s.ccnt with ecnMarks := (afterAck h e s).ccnt.ecnMarks }
             coil := { s.coil with assocs := (afterAck h e s).coil.assocs, tx := (afterAck h e s).coil.tx, spent := (afterAck h e s).coil.spent
                                   outbox := (afterAck h e s).coil.outbox, retransmits := (afterAck h e s).coil.retransmits } } := by
  have ha := acked_ack e.no h.ackIndex [] h.ece (coilSeen h s)
  unfold AckOnly at ha
  rw [afterAck, ha, coilSeen_eq]
theorem afterAck_context (h : CoilHdr) (e : Assoc) (s : State) (n i : Nat) : (afterAck h e s).context n i = s.context n i := by rw [afterAck_eq]; rfl
theorem afterAck_reasm (h : CoilHdr) (e : Assoc) (s : State) : (afterAck h e s).coil.reasm = s.coil.reasm := by rw [afterAck_eq]
theorem afterAck_regionCheck (h : CoilHdr) (e : Assoc) (s : State) (w : Bool) : regionCheck h w (afterAck h e s) = regionCheck h w s := by rw [afterAck_eq]; rfl

/-- The ACK that is owed changes nothing of an entry that its counters do not hold. -/
theorem AllAt.sendAck {n m : Nat} {P : Assoc → Prop} {s : State} (hc : ∀ x c, P x → P { x with ctrlCtr := c }) (ha : ∀ x, P x → P { x with sinceAck := 0, eceOwed := false })
    (h : AllAt n P s) : AllAt n P (sendAck m s) := by
  unfold Machine.sendAck
  split
  · exact h
  · exact AllAt.coilControl hc (AllAt.mapIf rfl (fun _ => rfl) ha h)
/-- The index of a packet within the window is held in the bitmap. -/
theorem takeIndex_holds {h : CoilHdr} {e : Assoc} (hw : ¬ (e.anyRx = true ∧ h.index + 2048 ≤ e.highest)) (s : State) : HeldIndex e h.index (takeIndex h e s) := by
  have hhi : (if e.anyRx then max e.highest h.index else h.index) < h.index + 2048 := by
    split
    · next ha =>
      have : e.highest < h.index + 2048 := Nat.lt_of_not_le fun hx => hw ⟨ha, hx⟩
      omega
    · omega
  have ht : AllAt e.no (fun x => h.index ∈ x.bitmap) (onAssoc e.no (fun x => { x with
      highest := if e.anyRx then max e.highest h.index else h.index, anyRx := true
      bitmap := (addOnce h.index x.bitmap).filter (fun n => (if e.anyRx then max e.highest h.index else h.index) < n + 2048), sinceAck := x.sinceAck + 1 }) s) :=
    allAt_onAssoc fun x => List.mem_filter.mpr ⟨mem_addOnce _ _, by simpa using hhi⟩
  unfold takeIndex
  dsimp only
  split
  · exact AllAt.sendAck (fun _ _ hx => hx) (fun _ hx => hx) ht
  · exact ht

section
variable {h : CoilHdr} {d : Bytes} {e : Assoc} {s u : State} {deliver : Assoc → State → Option Bool × State}

/-- A packet that passes steps 4 to 8 of R281 is delivered. -/
theorem seqRx_takes (ht : s.coilTakes h d.length e) : coilGate h s (seqRx h d deliver) = (match deliver e (afterAck h e s) with
    | (none, t) => drop t
    | (some false, t) => takeIndex h e t
    | (some true, t) => takeIndex h e (t.onCoil fun c => { c with rx := bump c.rx, rxBuffer := nthMod c.rxBuffer h.port (· + d.length) })) := by
  obtain ⟨hp, ha, hst, hwin, hold, hdup, hbuf⟩ := ht
  rw [coilGate_passes _ hp]
  unfold seqRx
  rw [ha]
  dsimp only
  have hb : (acked e.no h.ackIndex [] h.ece (coilSeen h s)).coil.rxBuffer = s.coil.rxBuffer := (congrArg (fun t : State => t.coil.rxBuffer) (afterAck_eq h e s) :)
  rw [if_neg (not_not_intro hst), if_neg (Nat.not_lt.mpr hwin), if_neg (by simpa [hdup] using hold), hb, if_neg (Nat.not_lt.mpr hbuf)]
  rfl
theorem seqRx_dropped (ht : s.coilTakes h d.length e) (hd : deliver e (afterAck h e s) = (none, u)) : coilGate h s (seqRx h d deliver) = drop u := by
  rw [seqRx_takes ht, hd]
/-- A packet that is delivered, or refused with its index taken, is held in the bitmap. -/
theorem seqRx_held {b : Bool} (ht : s.coilTakes h d.length e) (hd : deliver e (afterAck h e s) = (some b, u)) : ∃ t, done s (coilGate h s (seqRx h d deliver)) = .next t ∧
    HeldIndex e h.index t ∧ t.pw = u.pw ∧ t.coil.outbox = u.coil.outbox := by
  rw [seqRx_takes ht, hd]
  obtain ⟨-, -, -, -, hold, -, -⟩ := ht
  cases b with
  | false => exact ⟨_, rfl, takeIndex_holds hold u, (takeIndex_ctrl h e u).pw, (takeIndex_ctrl h e u).outbox⟩
  | true =>
    have hc := takeIndex_ctrl h e (u.onCoil fun c => { c with rx := bump c.rx, rxBuffer := nthMod c.rxBuffer h.port (· + d.length) })
    exact ⟨_, rfl, takeIndex_holds hold _, hc.pw, hc.outbox⟩
theorem seqRx_heldIndex (ht : s.coilTakes h d.length e) (hd : ∃ b u, deliver e (afterAck h e s) = (some b, u)) : ∃ t, done s (coilGate h s (seqRx h d deliver)) = .next t ∧
    HeldIndex e h.index t := by
  obtain ⟨b, u, hd⟩ := hd
  obtain ⟨t, h1, h2, -⟩ := seqRx_held ht hd
  exact ⟨t, h1, h2⟩

/-! ### Messages (R287, R288, R291) -/

theorem contextPacket_delivers {r : Reasm} (hl : r.msgLen = h.msgLen) (ht : r.tag = h.tag) (d : Bytes) (s : State) : ∃ b u, contextPacket h r d s = (some b, u) := by
  unfold contextPacket
  rw [if_neg (by simp [hl, ht])]
  exact ⟨_, _, rfl⟩
theorem openContext_delivers (hr : (s.coil.reasm.filter (fun r => !r.complete)).length < 4096) (e : Assoc) (dest : CoilDest) (d : Bytes) :
    ∃ b u, openContext h e dest d s = (some b, u) := by
  unfold openContext
  rw [if_neg (Nat.not_le.mpr hr)]
  exact contextPacket_delivers rfl rfl _ _

/-- A SEND that opens its message has a service tag, a receive, or room in the unexpected area. -/
theorem sendDeliver_opens (hg : granulesOk h d = true) (hc : s.context e.no h.msgId = none) (hr : (s.coil.reasm.filter (fun r => !r.complete)).length < 4096)
    (ho : h.tag.testBit 63 = true ∨ s.coil.posted.any (fun p => p.takes h.tag && s.postedOk p) = true ∨ s.unexpectedUsed + h.msgLen ≤ s.coil.cfg.unexpectedMib * 2 ^ 20) :
    ∃ b u, sendDeliver h d e s = (some b, u) := by
  unfold sendDeliver
  rw [if_neg (not_not_intro hg), hc]
  dsimp only
  split
  · exact openContext_delivers hr _ _ _
  · next htag =>
    split
    · refine openContext_delivers ?_ _ _ _
      exact hr
    · next hf =>
      have hn : ¬ s.coil.posted.any (fun p => p.takes h.tag && s.postedOk p) = true := by
        intro hx
        obtain ⟨p, hp, hpt⟩ := List.any_eq_true.mp hx
        exact List.find?_eq_none.mp hf p hp hpt
      rw [if_neg (Nat.not_lt.mpr ((ho.resolve_left htag).resolve_left hn))]
      exact openContext_delivers hr _ _ _
/-- A SEND with neither a receive nor room is dropped, and captured. -/
theorem sendDeliver_drops (hg : granulesOk h d = true) (hc : s.context e.no h.msgId = none) (htag : h.tag.testBit 63 = false)
    (hp : s.coil.posted.any (fun p => p.takes h.tag && s.postedOk p) = false) (hr : s.coil.cfg.unexpectedMib * 2 ^ 20 < s.unexpectedUsed + h.msgLen) :
    sendDeliver h d e s = (none, raise { source := 0x1A2 } s) := by
  have hf : s.coil.posted.find? (fun p => p.takes h.tag && s.postedOk p) = none := by
    rw [List.find?_eq_none]
    intro p hm hx
    rw [List.any_eq_false] at hp
    exact hp p hm hx
  unfold sendDeliver
  rw [if_neg (not_not_intro hg), hc]
  dsimp only
  rw [if_neg (by simp [htag]), hf]
  dsimp only
  rw [if_pos hr]
theorem sendDeliver_continues {r : Reasm} (hg : granulesOk h d = true) (hc : s.context e.no h.msgId = some r) (hl : r.msgLen = h.msgLen) (ht : r.tag = h.tag) :
    ∃ b u, sendDeliver h d e s = (some b, u) := by
  unfold sendDeliver
  rw [if_neg (not_not_intro hg), hc]
  exact contextPacket_delivers hl ht _ _
theorem writeDeliver_opens {r : Region} (hg : granulesOk h d = true) (hreg : regionCheck h true s = .ok r) (hc : s.context e.no h.msgId = none)
    (hr : (s.coil.reasm.filter (fun r => !r.complete)).length < 4096) : ∃ b u, writeDeliver h d e s = (some b, u) := by
  unfold writeDeliver
  rw [if_neg (not_not_intro hg), hreg, hc]
  exact openContext_delivers hr _ _ _
theorem writeDeliver_refused {n : Nat} (hg : granulesOk h d = true) (hreg : regionCheck h true s = .error n) :
    writeDeliver h d e s = (some false, coilControl e.no 6 [n, coilSeq h] s) := by
  unfold writeDeliver
  rw [if_neg (not_not_intro hg), hreg]
  rfl
theorem readDeliver_answers {r : Region} (hreg : regionCheck h false s = .ok r) : readDeliver h e s =
    (some true, coilQueue h.src 12 (h.msgId % 2 ^ 32) (stagingBytes s (regionAddr s r (h.tag % 2 ^ 32) 0) h.msgLen) s) := by
  unfold readDeliver
  rw [hreg]
theorem respDeliver_opens {x : Nat × Nat × Nat} (hg : granulesOk h d = true) (hc : s.context e.no h.msgId = none) (hr : (s.coil.reasm.filter (fun r => !r.complete)).length < 4096)
    (hx : s.coil.reads.find? (fun x => x.1 == e.no && x.2.1 == h.tag % 2 ^ 32) = some x) : ∃ b u, respDeliver h d e s = (some b, u) := by
  unfold respDeliver
  rw [if_neg (not_not_intro hg), hc, hx]
  exact openContext_delivers hr _ _ _
end

/-- Settles O29: a packet that is taken is delivered in the state after its acknowledgement. -/
theorem coilMessageEffects : Obligations.CoilMessageEffects := by
  unfold Obligations.CoilMessageEffects
  refine ⟨?_, ?_, ?_, ?_, ?_, ?_, ?_⟩
  · intro h d e s ht hg hc hr ho
    refine seqRx_heldIndex ht (sendDeliver_opens hg (by rwa [afterAck_context]) (by rwa [afterAck_reasm]) ?_)
    rw [afterAck_eq]
    exact ho
  · intro h d e s ht hg hc htag hp hr
    have hd : sendDeliver h d e (afterAck h e s) = (none, raise { source := 0x1A2 } (afterAck h e s)) :=
      sendDeliver_drops hg (by rwa [afterAck_context]) htag (by rw [afterAck_eq]; exact hp) (by rw [afterAck_eq]; exact hr)
    have hpres : (afterAck h e s).srcPresent 0x1A2 = true := by
      rw [afterAck_eq]
      exact coilPasses_present ht.1
    refine ⟨_, congrArg (done s) (seqRx_dropped ht hd), raise_first (f := { source := 0x1A2 }) (by decide) hpres, ?_⟩
    have hcc : (raise { source := 0x1A2 } (afterAck h e s)).ccnt = (afterAck h e s).ccnt := (raise_frame _ _).ccnt
    have hdrops : (afterAck h e s).ccnt.rxDrops = s.ccnt.rxDrops := by rw [afterAck_eq]
    show bump (raise { source := 0x1A2 } (afterAck h e s)).ccnt.rxDrops = _
    rw [hcc, hdrops]
  · intro h d e r s ht hg hc hl htag
    exact seqRx_heldIndex ht (sendDeliver_continues hg (by rwa [afterAck_context]) hl htag)
  · intro h d e r s ht hg hreg hc hr
    exact seqRx_heldIndex ht (writeDeliver_opens hg (by rwa [afterAck_regionCheck]) (by rwa [afterAck_context]) (by rwa [afterAck_reasm]))
  · intro h d e n s ht hg hreg
    obtain ⟨t, h1, h2, h3, -⟩ := seqRx_held ht (writeDeliver_refused (e := e) hg (by rwa [afterAck_regionCheck]))
    refine ⟨t, h1, h2, h3.trans ((coilControl_ctrl _ _ _ _).pw.trans ?_)⟩
    rw [afterAck_eq]
  · intro h e r s ht hreg
    obtain ⟨t, h1, h2, -, h4⟩ := seqRx_held (d := []) (deliver := readDeliver h) ht (readDeliver_answers (by rwa [afterAck_regionCheck]))
    refine ⟨t, h1, h2, ?_⟩
    rw [h4]
    refine List.mem_append_right _ (List.mem_singleton.mpr ?_)
    rw [afterAck_eq]
    rfl
  · intro h d e x s ht hg hc hr hx
    exact seqRx_heldIndex ht (respDeliver_opens hg (by rwa [afterAck_context]) (by rwa [afterAck_reasm]) (by rw [afterAck_eq]; exact hx))

/-! ### Associations that close (R284, R298) -/

/-- `t` is `s` but for the Coil engine and what is sent. -/
def CoilOnly (s t : State) : Prop := t = { s with coil := t.coil, out := t.out }

theorem CoilOnly.trans {s t u : State} (a : CoilOnly s t) (b : CoilOnly t u) : CoilOnly s u := by
  unfold CoilOnly at a b ⊢
  rw [b, a]
theorem CoilOnly.mci {s t : State} (h : CoilOnly s t) : t.mci = s.mci := by unfold CoilOnly at h; rw [h]
theorem CtrlOnly.coil {s t : State} (h : CtrlOnly s t) : CoilOnly s t := by
  unfold CtrlOnly at h
  rw [h]; rfl
theorem closeAssoc_coil (n : Nat) (s : State) : CoilOnly s (closeAssoc n s) := by
  unfold closeAssoc
  split
  · rfl
  · split
    · exact (coilControl_ctrl n _ _ s).coil.trans rfl
    · rfl
theorem endAssoc_coil (n : Nat) (s : State) : CoilOnly s (endAssoc n s) := by
  have h : CoilOnly s (endMessages n s) := rfl
  exact h.trans (closeAssoc_coil n _)
theorem closeSlot_coil (one : Bool) (s : State) : CoilOnly s (closeSlot one s) := by
  unfold closeSlot
  induction (s.coil.assocs.filter fun e => e.slot == one && e.st != .closed).map (·.no) generalizing s with
  | nil => rfl
  | cons n l ih => exact (endAssoc_coil n s).trans (ih _)
theorem onSlot_coil (one : Bool) (f : TrustSlot → TrustSlot) (s : State) : CoilOnly s (onSlot one f s) := rfl
theorem reserveStateless_coil (one : Bool) (s : State) : CoilOnly s (reserveStateless one s) := by
  rw [reserveStateless_eq]; rfl

/-- A slot that a block is reserved from keeps its secret. -/
theorem reserveBlock_keeps (one : Bool) (s : State) : ((reserveBlock one s).2.coil.slot one).valid = (s.coil.slot one).valid ∧
    ((reserveBlock one s).2.coil.slot one).secret = (s.coil.slot one).secret := by
  unfold reserveBlock
  dsimp only
  split
  · exact ⟨rfl, rfl⟩
  · dsimp only
    rw [onSlot_slot]
    split
    · exact ⟨rfl, rfl⟩
    · split <;> exact ⟨rfl, rfl⟩
theorem reserveStateless_keeps (one : Bool) (s : State) : ((reserveStateless one s).coil.slot one).valid = (s.coil.slot one).valid ∧
    ((reserveStateless one s).coil.slot one).secret = (s.coil.slot one).secret := by
  have hb := reserveBlock_keeps one s
  unfold reserveStateless
  split
  · next h =>
    rw [h] at hb
    rw [onSlot_slot]
    exact hb
  · next h =>
    rw [h] at hb
    exact hb

/-! ### COIL_SET_TRUST (R298) -/

/-- The slot after its secret is installed. -/
def installed (one : Bool) (sec : Bytes) (s : State) : State :=
  reserveStateless one (onSlot one (fun _ => { valid := true, secret := BitVec.ofNat 256 (leNat sec) }) (closeSlot one s))
theorem installed_spec (one : Bool) (sec : Bytes) (s : State) : ((installed one sec s).coil.slot one).valid = true ∧
    ((installed one sec s).coil.slot one).secret = BitVec.ofNat 256 (leNat sec) ∧ (installed one sec s).mci = s.mci := by
  have hk := reserveStateless_keeps one (onSlot one (fun _ => { valid := true, secret := BitVec.ofNat 256 (leNat sec) }) (closeSlot one s))
  rw [onSlot_slot] at hk
  exact ⟨hk.1, hk.2, ((closeSlot_coil one s).trans ((onSlot_coil one _ _).trans (reserveStateless_coil one _))).mci⟩
/-- The fingerprint is the newest of those kept. -/
def withFingerprint (fp : Nat) (s : State) : State :=
  s.onCoil fun c => { c with fingerprints := (c.fingerprints ++ [fp]).drop (c.fingerprints.length - 63) }
/-- The newest fingerprint is always among the 64 kept. -/
theorem mem_fingerprints (fp : Nat) (l : List Nat) : fp ∈ (l ++ [fp]).drop (l.length - 63) := by
  rw [List.drop_append_of_le_length (Nat.sub_le _ _)]
  exact List.mem_append_right _ (List.mem_singleton.mpr rfl)

section
variable {mb : Nat} {x : Mailbox} {one : Bool} {sec : Bytes} {p : Parse}

theorem trustAct_installs (h : trustFields x = (one, 1, sec, p)) (s : State) : ∃ detail, trustAct mb x s = mciOk mb [] []
    (recordSecurity 5 0 detail ((withFingerprint (fingerprintOf sec) (installed one sec s)).onSec fun x => { x with trustInstalls := bump x.trustInstalls })) := by
  unfold withFingerprint installed
  simp only [trustAct, h]
  exact ⟨_, rfl⟩
theorem trustAct_selects (h : trustFields x = (one, 2, sec, p)) (s : State) : trustAct mb x s =
    mciOk mb [] [] { s with coil := { s.coil with txSlot := one, txChanged := s.coil.txChanged || s.coil.txSlot != one } } := by
  simp only [trustAct, h]
  rfl
theorem trustAct_clears (h : trustFields x = (one, 3, sec, p)) (s : State) : trustAct mb x s = mciOk mb [] [] (onSlot one (fun _ => {}) (closeSlot one s)) := by
  simp only [trustAct, h]
end

/-! ### COIL_RECV_POST (R299) -/

theorem placeBytes_mci (r : Reasm) (off : Nat) (d : Bytes) (s : State) : (placeBytes r off d s).mci = s.mci := by
  unfold placeBytes
  split
  · rfl
  · split <;> rfl
  all_goals rfl
theorem ringEntry_mci (a b c d e f : Nat) (s : State) : (ringEntry a b c d e f s).mci = s.mci := by
  unfold ringEntry
  dsimp only
  rw [(signal_frame _ _).all]
  simp only [emit_mci, State.onCoil_mci, stagingWrite, State.onPw_mci]
theorem coilPost_mci (r : Reasm) (s : State) : (coilPost r s).mci = s.mci := by
  unfold coilPost
  split
  · rfl
  · split
    · exact ringEntry_mci _ _ _ _ _ _ s
    · exact ringEntry_mci _ _ _ _ _ _ s
theorem foldl_mci {α : Type} (f : State → α → State) (h : ∀ u x, (f u x).mci = u.mci) (l : List α) (s : State) : (l.foldl f s).mci = s.mci := by
  induction l generalizing s with
  | nil => rfl
  | cons x l ih => exact (ih _).trans (h s x)
theorem postWaiting_mci (s : State) : (postWaiting s).mci = s.mci := by
  unfold postWaiting
  exact foldl_mci _ (fun u r => coilPost_mci r u) _ _
theorem postReceive_mci (x : Posted) (s : State) : (postReceive x s).mci = s.mci := by
  unfold postReceive
  split
  · rfl
  · exact (postWaiting_mci _).trans (foldl_mci _ (fun u b => placeBytes_mci _ _ _ u) _ _)
/-- Without an unexpected message the receive waits. -/
theorem postReceive_waits {s : State} (h : ∀ r ∈ s.coil.reasm, r.dest ≠ .unexpected) (x : Posted) :
    postReceive x s = s.onCoil fun c => { c with posted := c.posted ++ [x] } := by
  have hf : (if s.postedOk x then s.coil.reasm.find? (fun r => r.dest == .unexpected && x.takes r.tag) else none) = none := by
    split
    · rw [List.find?_eq_none]
      intro r hr hx
      simp only [Bool.and_eq_true, beq_iff_eq] at hx
      exact h r hr hx.1
    · rfl
  unfold postReceive
  rw [hf]
theorem postReceive_foldl {α : Type} (g : α → Posted) {l : List α} {s : State} (h : ∀ r ∈ s.coil.reasm, r.dest ≠ .unexpected) :
    (l.foldl (fun t i => postReceive (g i) t) s).coil.posted = s.coil.posted ++ l.map g := by
  induction l generalizing s with
  | nil => simp
  | cons i l ih =>
    have hs : ∀ r ∈ (s.onCoil fun c => { c with posted := c.posted ++ [g i] }).coil.reasm, r.dest ≠ .unexpected := h
    rw [List.foldl_cons, postReceive_waits h, ih hs]
    simp

/-! ### COIL_CONFIG, regions and exports (R290, R297, R299) -/

theorem coilCfgFields_congr {s t : State} (h : t.coil.cfg = s.coil.cfg) (x : Mailbox) : coilCfgFields t x = coilCfgFields s x := by
  unfold coilCfgFields
  rw [h]
theorem coilConfigAct_eq {mb : Nat} {x : Mailbox} {s : State} {c : CoilCfg} (h : (coilCfgFields s x).1 = c) : coilConfigAct mb x s =
    mciOk mb [] [] (recordConfig 0x0602 (coilCfgBytes c) (s.onCoil fun y => { y with
      cfgNext := c, directoryNext := if x.payload = [] then y.directoryNext else some (directoryOf x.payload) })) := by
  unfold coilConfigAct
  rw [h]
theorem regionFields_congr {s t : State} (h : t.pw = s.pw) (x : Mailbox) : regionFields t x = regionFields s x := by
  unfold regionFields
  rw [h]
theorem freeRegion_congr {s t : State} (h : t.coil = s.coil) : t.freeRegion = s.freeRegion := by
  have hr : t.regionAt = s.regionAt := by
    unfold State.regionAt
    rw [h]
  unfold State.freeRegion
  rw [hr]
/-- The region that a registration makes of the free entry `r`. -/
def newRegion (g q n o l : Nat) (r : Region) : Region :=
  { idx := r.idx, live := true, gen := r.gen + 1, seg := g, off := o, len := l, read := q % 2 == 1, write := q / 2 == 1, node := n }
theorem regionAct_eq {mb g q n o l : Nat} {p : Parse} {x : Mailbox} {s : State} {r : Region} {key : Bytes} (hf : regionFields s x = (g, q, n, o, l, p)) (h : s.freeRegion = some r)
    (hk : leBytes 4 (r.idx * 2 ^ 22 + (r.gen + 1)) = key) : regionAct mb x s = mciOk mb key []
      (s.onCoil fun c => { c with regions := c.regions.filter (fun y => y.idx != r.idx) ++ [newRegion g q n o l r] }) := by
  unfold newRegion regionAct
  rw [hf]
  dsimp only
  rw [h]
  dsimp only
  rw [hk]
theorem deregisterAct_eq {mb k : Nat} {x : Mailbox} (h : x.parse.raw 0 4 / 2 ^ 22 = k) (s : State) : deregisterAct mb x s = mciOk mb [] []
    (s.onCoil fun c => { c with regions := mapIf c.regions (fun r => r.live && r.idx == k) (fun r => { r with leaving := true }) }) := by
  unfold deregisterAct
  dsimp only
  rw [h]
theorem exportMemberAct_eq {mb : Nat} {x : Mailbox} {s : State} {n : Ns} (h : exportTarget s x = .ok n) (m : Mci) : exportMemberAct mb x { s with mci := m } =
    mciOk mb (leBytes 2 (n.exported.getD (freeTag (s.coil.exports.map (·.1)) 48 1))) []
      (onNs n.id (fun y => { y with exported := some (n.exported.getD (freeTag (s.coil.exports.map (·.1)) 48 1)) })
        { s with mci := m, coil := { s.coil with exports := insert (n.exported.getD (freeTag (s.coil.exports.map (·.1)) 48 1)) n.id s.coil.exports } }) := by
  have h' : exportTarget { s with mci := m } x = .ok n := h
  simp only [exportMemberAct, h']
  rfl
/-- A change of a namespace is found at every entry of its identifier. -/
theorem mem_onNs {id : Nat} {f : Ns → Ns} {s : State} {y : Ns} (hy : y ∈ (onNs id f s).arr.ns) (h : y.id = id) : ∃ x, y = f x := by
  obtain ⟨z, -, rfl⟩ := List.mem_map.mp hy
  split
  · exact ⟨z, rfl⟩
  · next hn =>
    rw [if_neg hn] at h
    exact absurd (by simpa using h) hn

/-- Settles O30: by the effect of each command. -/
theorem coilCommandEffects : Obligations.CoilCommandEffects := by
  unfold Obligations.CoilCommandEffects
  refine ⟨?_, ?_, ?_, ?_, ?_, ?_, ?_, ?_, ?_, ?_⟩
  · intro mb s h
    exact row_reports h fun m => rfl
  · intro mb s h
    generalize hc : (coilCfgFields s (s.mb mb)).1 = c
    refine row_completes h fun m hm => ?_
    have hx : coilCfgFields { s with mci := m } (s.mb mb) = coilCfgFields s (s.mb mb) := coilCfgFields_congr (s := s) (t := { s with mci := m }) rfl _
    rw [coilConfigAct_eq (s := { s with mci := m }) (c := c) (by rw [hx, hc])]
    exact ⟨_, done_eq rfl rfl rfl, hm.succeeds rfl _ _, rfl⟩
  · intro mb one sec p s h hf
    refine row_completes h fun m hm => ?_
    obtain ⟨hv, hs, hmci⟩ := installed_spec one sec { s with mci := m }
    obtain ⟨detail, ha⟩ := trustAct_installs (mb := mb) hf { s with mci := m }
    have hfp : fingerprintOf sec ∈ (withFingerprint (fingerprintOf sec) (installed one sec { s with mci := m })).coil.fingerprints := mem_fingerprints _ _
    rw [ha]
    generalize hw : (withFingerprint (fingerprintOf sec) (installed one sec { s with mci := m })).onSec (fun x => { x with trustInstalls := bump x.trustInstalls }) = w
    have hmciw : (recordSecurity 5 0 detail w).mci = m := by
      rw [recordSecurity_eq, ← hw]
      exact hmci
    have hcoil : w.coil = (withFingerprint (fingerprintOf sec) (installed one sec { s with mci := m })).coil := by rw [← hw]; rfl
    refine ⟨_, rfl, succeeds_of_mci (hm.succeeds hmciw _ _) rfl, ?_⟩
    show (w.coil.slot one).valid = true ∧ (w.coil.slot one).secret = _ ∧ _ ∈ w.coil.fingerprints
    rw [hcoil]
    exact ⟨hv, hs, hfp⟩
  · intro mb one sec p s h hf
    refine row_completes h fun m hm => ?_
    rw [trustAct_selects hf]
    exact ⟨_, done_eq rfl rfl rfl, hm.succeeds rfl _ _, rfl⟩
  · intro mb one sec p s h hf
    refine row_completes h fun m hm => ?_
    have hmci := (closeSlot_coil one { s with mci := m }).mci
    rw [trustAct_clears hf]
    generalize closeSlot one { s with mci := m } = u at hmci
    exact ⟨_, rfl, succeeds_of_mci (hm.succeeds (u := onSlot one (fun _ => {}) u) hmci _ _) rfl, onSlot_slot one (fun _ => {}) u⟩
  · intro mb r s h hf
    generalize hk : leBytes 4 (r.idx * 2 ^ 22 + (r.gen + 1)) = key
    rcases hrf : regionFields s (s.mb mb) with ⟨g, q, n, o, l, p⟩
    refine row_completes h fun m hm => ?_
    have hx : regionFields { s with mci := m } (s.mb mb) = regionFields s (s.mb mb) := regionFields_congr (s := s) (t := { s with mci := m }) rfl _
    have hr : ({ s with mci := m } : State).freeRegion = s.freeRegion := freeRegion_congr (s := s) (t := { s with mci := m }) rfl
    rw [regionAct_eq (hx.trans hrf) (hr.trans hf) hk]
    exact ⟨_, done_eq rfl rfl rfl, hm.succeeds rfl _ _, newRegion g q n o l r, List.mem_append_right _ (List.mem_singleton.mpr rfl), rfl, rfl, rfl⟩
  · intro mb s h
    generalize hk : (s.mb mb).parse.raw 0 4 / 2 ^ 22 = k
    refine row_completes h fun m hm => ?_
    rw [deregisterAct_eq hk]
    exact ⟨_, done_eq rfl rfl rfl, hm.succeeds rfl _ _, rfl⟩
  · intro mb s h
    refine row_completes h fun m hm => ⟨_, rfl, succeeds_of_mci (hm.succeeds ?_ _ _) rfl⟩
    exact foldl_mci _ (fun u i => postReceive_mci _ u) _ _
  · intro mb s h hr
    exact row_completes h fun m hm => ⟨_, rfl, postReceive_foldl (postedAt (s.mb mb).payload) (s := { s with mci := m }) hr⟩
  · intro mb x s h hx
    refine row_completes h fun m hm => ?_
    rw [exportMemberAct_eq hx]
    refine ⟨_, done_eq rfl rfl rfl, hm.succeeds rfl _ _, fun y hy hid => ?_⟩
    obtain ⟨z, rfl⟩ := mem_onNs (f := fun y => { y with exported := some (x.exported.getD (freeTag (s.coil.exports.map (·.1)) 48 1)) }) hy hid
    rfl

end Sys2Proof.Machine
end

section
/-! PROOF. What faults leave of the mark updates that are due (R85), the member commands (R389 to R394), and the rebuild and scrub commands (R226 to
R230). -/
namespace Sys2Proof.Machine

/-! ### Mark updates that are due stay so -/

/-- No array goes, no mark update is forgotten, and no waiting change is dropped, from `s` to `t`. -/
structure MarksGrow (s t : State) : Prop where
  jobs : ∀ aid, (s.markJob aid).isSome → (t.markJob aid).isSome
  arrays : ∀ aid a, s.array aid = some a → ∃ x, t.array aid = some x ∧ (a.markWaiting.isSome → x.markWaiting.isSome)

theorem MarksGrow.trans {s t u : State} (a : MarksGrow s t) (b : MarksGrow t u) : MarksGrow s u where
  jobs aid h := b.jobs aid (a.jobs aid h)
  arrays aid x h := by
    obtain ⟨y, hy, hxy⟩ := a.arrays aid x h
    obtain ⟨z, hz, hyz⟩ := b.arrays aid y hy
    exact ⟨z, hz, fun hw => hyz (hxy hw)⟩
theorem MarksGrow.of_lists {s t : State} (hj : t.arr.jobs = s.arr.jobs) (ha : t.arr.arrays = s.arr.arrays) : MarksGrow s t where
  jobs aid h := by rwa [State.markJob, hj]
  arrays aid a h := ⟨a, by rwa [State.array, ha], id⟩
theorem MarksGrow.of_arr {s t : State} (h : t.arr = s.arr) : MarksGrow s t := .of_lists (by rw [h]) (by rw [h])
theorem MarksGrow.refl (s : State) : MarksGrow s s := .of_arr rfl
theorem MarksGrow.foldl {α : Type} (f : State → α → State) (h : ∀ u x, MarksGrow u (f u x)) (l : List α) (s : State) : MarksGrow s (l.foldl f s) := by
  induction l generalizing s with
  | nil => exact .refl s
  | cons x xs ih => exact (h s x).trans (ih _)
theorem MarksGrow.markDue {s t : State} (h : MarksGrow s t) {aid : Nat} (hm : MarkDue aid s) : MarkDue aid t := by
  rcases hm with hj | ⟨a, ha, hw⟩
  · exact .inl (h.jobs aid hj)
  · obtain ⟨x, hx, hk⟩ := h.arrays aid a ha
    exact .inr ⟨x, hx, hk hw⟩

theorem array_mapIf {s : State} {p : Arr → Bool} {f : Arr → Arr} (hf : ∀ x, (f x).id = x.id) (aid : Nat) :
    (s.onArr fun r => { r with arrays := mapIf r.arrays p f }).array aid = (s.array aid).map (fun a => if p a then f a else a) :=
  find?_mapIf (fun x _ => by rw [hf]) s.arr.arrays
/-- A change of some arrays that drops no waiting change. -/
theorem mapArrays_grow {p : Arr → Bool} {f : Arr → Arr} (hf : ∀ x, (f x).id = x.id) (hw : ∀ x, x.markWaiting.isSome → (f x).markWaiting.isSome) (s : State) :
    MarksGrow s (s.onArr fun r => { r with arrays := mapIf r.arrays p f }) where
  jobs _ h := h
  arrays aid a h := by
    rw [array_mapIf hf, h]
    refine ⟨_, rfl, fun ha => ?_⟩
    dsimp only
    split
    · exact hw a ha
    · exact ha

theorem rerunKiln_grow (n : Nat) (s : State) : MarksGrow s (rerunKiln n s) where
  jobs aid h := by
    show (List.find? _ (s.arr.jobs.map fun j => { j with slices := j.slices.map (rerunSlice n) })).isSome
    rw [List.find?_map, Option.isSome_map]
    exact h
  arrays aid a h := ⟨a, h, id⟩
theorem slipDown_grow (s : State) : MarksGrow s (slipDown s) :=
  (mapArrays_grow (p := fun a => s.twin.up && a.shared && a.owner)
    (f := fun a => { a with checkGood := none, moving := if a.moving = 1 ∨ a.moving = 2 then 0 else a.moving,
                            anaNext := if a.moving = 2 then some .optimized else a.anaNext }) (fun _ => rfl) (fun _ h => h) s).trans (.of_arr rfl)
/-- The unit that a fault acts on is a kiln, a port or a link: no mark update is lost. -/
theorem unitAction_grow (l : LocCode) (s : State) : MarksGrow s (unitAction l s) := by
  unfold unitAction
  split
  · next n _ => exact (MarksGrow.of_arr (s := s) (t := setKiln n false s) rfl).trans (rerunKiln_grow n _)
  · exact .of_lists rfl rfl
  · exact ((MarksGrow.of_arr (s := s) (t := endMargin 3 0 s) rfl).trans (slipDown_grow _)).trans (.of_arr (t := retrainSlip s) rfl)
  · exact .of_arr rfl
  · exact .refl s

theorem ackSource_arr (k : Nat) (s : State) : (ackSource k s).arr = s.arr := by unfold ackSource; split <;> rfl
theorem captureFault_arr (j : Judged) (s : State) : (captureFault j s).arr = s.arr := by
  have h (b : Prop) [Decidable b] (k : Nat) (u : State) : (if b then ackSource k u else u).arr = u.arr := by
    split
    · exact ackSource_arr k u
    · rfl
  exact h _ _ _
theorem judgeStep_arr (all : List Arrival) (acc : List Judged × State) (a : Arrival) : (judgeStep all acc a).2.arr = acc.2.arr := by
  unfold judgeStep; dsimp only; split <;> rfl
theorem enterFatal_arr (s : State) : (enterFatal s).arr = s.arr := by unfold enterFatal; split <;> rfl
theorem signal_arr (v : Nat) (s : State) : (signal v s).arr = s.arr := by rw [(signal_frame v s).all]
theorem sendPme_arr (s : State) : (sendPme s).arr = s.arr := by rw [(sendPme_frame s).all]

theorem actOnFault_grow (j : Judged) (s : State) : MarksGrow s (actOnFault j s) := by
  unfold actOnFault
  split
  · exact .refl s
  · dsimp only
    generalize h1 : (if s.fc.irqEnable ∧ min s.fc.irqMinSev 5 ≤ j.sev then signal s.fc.vector s else s) = s1
    have f1 : MarksGrow s s1 := by
      rw [← h1]; split
      · exact .of_arr (signal_arr _ _)
      · exact .refl s
    generalize h2 : (if 2 ≤ j.sev ∧ s1.ep.d3hot then sendPme s1 else s1) = s2
    have f2 : MarksGrow s s2 := by
      rw [← h2]; split
      · exact f1.trans (.of_arr (sendPme_arr _))
      · exact f1
    split
    · exact f2
    · generalize h3 : (if 3 ≤ j.sev then unitAction (j.a.f.loc.getD (srcLoc j.a.f.source)) s2 else s2) = s3
      have f3 : MarksGrow s s3 := by
        rw [← h3]; split
        · exact f2.trans (unitAction_grow _ _)
        · exact f2
      generalize h4 : (if 3 ≤ j.sev ∧ ¬ j.a.injected then _ else s3) = s4
      have f4 : MarksGrow s s4 := by
        rw [← h4]; split
        · exact f3.trans (.of_arr rfl)
        · exact f3
      split
      · exact f4.trans (.of_arr (enterFatal_arr _))
      · exact f4

theorem collect_grow (l : List Arrival) (s : State) : MarksGrow s (collect l s) := by
  have hjudge (all : List Arrival) : ∀ (l : List Arrival) (acc : List Judged × State), (l.foldl (judgeStep all) acc).2.arr = acc.2.arr := by
    intro l
    induction l with
    | nil => intro acc; rfl
    | cons a l ih => intro acc; exact (ih _).trans (judgeStep_arr all acc a)
  unfold collect
  exact (MarksGrow.of_arr (hjudge _ _ ([], s))).trans
    (.foldl _ (fun u j => (MarksGrow.of_arr (captureFault_arr j u)).trans (actOnFault_grow j _)) _ _)
/-- A fault loses no mark update. -/
theorem raise_grow (f : FaultIn) (s : State) : MarksGrow s (raise f s) := by
  refine (collect_grow [{ f := f }] s).trans ?_
  show MarksGrow _ (lastKiln s _)
  unfold lastKiln
  split
  · exact collect_grow _ _
  · exact .refl _

theorem addJob_grow (j : Job) (s : State) : MarksGrow s (addJob j s) where
  jobs aid h := by
    rw [State.markJob] at h ⊢
    obtain ⟨x, hx, hp⟩ := List.find?_isSome.mp h
    exact List.find?_isSome.mpr ⟨x, List.mem_append_left _ hx, hp⟩
  arrays aid a h := ⟨a, h, id⟩
theorem addCmd_grow (c : MCmd) (s : State) : MarksGrow s (addCmd c s) := .of_lists rfl rfl
theorem issue_grow (c : MCmd) (s : State) : MarksGrow s (issue c s) := by
  unfold issue
  exact .foldl _ (fun _ _ => addCmd_grow _ _) _ s
theorem onArray_grow {f : Arr → Arr} (hf : ∀ x, (f x).id = x.id) (hw : ∀ x, x.markWaiting.isSome → (f x).markWaiting.isSome) (aid : Nat) (s : State) :
    MarksGrow s (onArray aid f s) := mapArrays_grow hf hw s
theorem markGen_grow (g aid : Nat) (s : State) : MarksGrow s (onArray aid (fun a => { a with markGen := g }) s) :=
  onArray_grow (f := fun a => { a with markGen := g }) (fun _ => rfl) (fun _ h => h) aid s
theorem launchMark_grow (aid : Nat) (b : MarkBody) (mbs : List Nat) (s : State) : MarksGrow s (launchMark aid b mbs s) := by
  unfold launchMark
  split
  · exact .refl s
  · exact ((addJob_grow _ s).trans (markGen_grow _ _ _)).trans (.foldl _ (fun u n => issue_grow _ u) _ _)
theorem startMark_grow (aid : Nat) (f : MarkBody → MarkBody) (mbs : List Nat) (s : State) : MarksGrow s (startMark aid f mbs s) := by
  unfold startMark
  split
  · exact .refl s
  · next a _ =>
    split
    · exact onArray_grow (f := fun x => { x with markWaiting := some (f (s.markBase a)), markMbs := x.markMbs ++ mbs }) (fun _ => rfl) (fun _ _ => rfl) aid s
    · exact launchMark_grow _ _ _ s

end Sys2Proof.Machine
end

section
/-! PROOF. The member commands (R389 to R394), and the rebuild and scrub commands (R226 to R230). -/
namespace Sys2Proof.Machine

/-! ### Jobs that work for a mailbox -/

theorem JobFor.of_jobs {k : JobKind} {mb : Nat} {s t : State} (h : JobFor k mb s) (e : t.arr.jobs = s.arr.jobs) : JobFor k mb t := by
  rwa [JobFor, e]
theorem addJob_jobFor {mb : Nat} {j : Job} (h : j.mb = some mb) (s : State) : JobFor j.kind mb (addJob j s) :=
  ⟨_, List.mem_append_right _ (List.mem_singleton.mpr rfl), rfl, h⟩
/-- A change of a job that keeps what it is and whom it works for. -/
theorem JobFor.onJob {k : JobKind} {mb id : Nat} {f : Job → Job} {s : State} (hk : ∀ j, (f j).kind = j.kind) (hm : ∀ j, (f j).mb = j.mb) (h : JobFor k mb s) :
    JobFor k mb (onJob id f s) := by
  obtain ⟨j, hj, h1, h2⟩ := h
  refine ⟨_, List.mem_map_of_mem hj, ?_, ?_⟩
  · split
    · exact (hk j).trans h1
    · exact h1
  · split
    · exact (hm j).trans h2
    · exact h2
theorem zeroNext_only (id nsid lba stop : Nat) (s : State) : ArrOnly s (zeroNext id nsid lba stop s) := by
  unfold zeroNext
  split
  · exact .refl s
  · dsimp only
    split
    · exact .refl s
    · exact addCmd_only _ s
theorem zeroNext_jobs (id nsid lba stop : Nat) (s : State) : (zeroNext id nsid lba stop s).arr.jobs = s.arr.jobs := by
  unfold zeroNext
  split
  · rfl
  · dsimp only
    split <;> rfl
/-- Zeroing is a job of the command that asks for it, and leaves all but the arrays' part alone. -/
theorem startZero_only (stage aid sector : Nat) (mb : Option Nat) (b : Option MarkBody) (r : List (Nat × Nat × Nat)) (s : State) :
    ArrOnly s (startZero stage aid sector mb b r s) := by
  unfold startZero
  exact (addJob_only _ s).trans (.foldl _ (fun u x => zeroNext_only _ _ _ _ u) _ _)
theorem startZero_jobFor (stage aid sector mb : Nat) (b : Option MarkBody) (r : List (Nat × Nat × Nat)) (s : State) :
    JobFor .zero mb (startZero stage aid sector (some mb) b r s) := by
  unfold startZero
  exact (addJob_jobFor (mb := mb) (by rfl) s).of_jobs (foldl_jobs _ (fun u x => zeroNext_jobs _ _ _ _ u) _ _)

/-! ### Commands that wait for a response -/

theorem mciWait_inProgress {mb : Nat} {s : State} (a b : Bytes) (hl : mb < s.mci.mbs.length) (h : InProgress mb s) : InProgress mb (mciWait mb a b s) := by
  unfold InProgress mciWait
  rw [mb_onMb_self _ _ _ hl]
  exact h
theorem mciWait_mci {mb : Nat} {a b : Bytes} {s t : State} (h : t.mci = s.mci) : (mciWait mb a b t).mci = (mciWait mb a b s).mci := by
  unfold mciWait onMb State.onMci
  dsimp only
  rw [h]
/-- A command that has started and waits, whatever else then changes. -/
theorem Started.waits {mb : Nat} {s : State} {m : Mci} (hm : Started mb s m) (h : (s.mb mb).staged = none) {a b : Bytes} {u t : State} (hu : u.mci = m)
    (ht : t.mci = (mciWait mb a b u).mci) : InProgress mb t :=
  inProgress_of_mci (mciWait_inProgress a b (by rw [hu]; exact hm.exists_) (inProgress_of_mci (hm.inProgress h) hu)) ht

/-! ### MEMBER_ADOPT (R390, R391) -/

theorem adoptBodies_only (j : Job) (n : Ns) (s : State) : ArrOnly s (adoptBodies j n s) :=
  ((onJob_only j.id (fun x => { x with stage := 1 }) s).trans (issue_only _ _)).trans (issue_only _ _)
theorem adoptBodies_jobFor {k : JobKind} {mb : Nat} (j : Job) (n : Ns) {s : State} (h : JobFor k mb s) : JobFor k mb (adoptBodies j n s) :=
  (JobFor.onJob (f := fun x => { x with stage := 1 }) (id := j.id) (fun _ => rfl) (fun _ => rfl) h).of_jobs ((issue_jobs _ _).trans (issue_jobs _ _))
/-- An adoption is a job of its command, which waits for it. -/
theorem adoptAct_waits {mb jn v : Nat} {miss : Option Nat} {allow : Bool} {n : Ns} {p : Parse} {x : Mailbox} {u : State}
    (hf : adoptFields u x = (some n, miss, jn, v, allow, p)) : JobFor .adopt mb (adoptAct mb x u) ∧ ∃ a b, (adoptAct mb x u).mci = (mciWait mb a b u).mci := by
  simp only [adoptAct, hf]
  generalize hj : (addJob _ (tookFree (tookFree u))) = t
  have ht : JobFor .adopt mb t := by rw [← hj]; exact addJob_jobFor rfl _
  have hm : t.mci = u.mci := by rw [← hj]; rfl
  split
  · exact ⟨ht.of_jobs (issue_jobs _ _), _, _, (issue_only _ _).mci.trans (mciWait_mci hm)⟩
  · exact ⟨adoptBodies_jobFor _ _ ht, _, _, (adoptBodies_only _ _ _).mci.trans (mciWait_mci hm)⟩

/-! ### MEMBER_RELEASE (R392) -/

theorem foldl_keeps {α β : Type} {g : State → β} (f : State → α → State) (h : ∀ u x, g (f u x) = g u) (l : List α) (s : State) : g (l.foldl f s) = g s := by
  induction l generalizing s with
  | nil => rfl
  | cons x l ih => exact (ih _).trans (h s x)
theorem addCmd_releases (c : MCmd) (s : State) : (addCmd c s).arr.releases = s.arr.releases := rfl
theorem issue_releases (c : MCmd) (s : State) : (issue c s).arr.releases = s.arr.releases := by
  unfold issue
  exact foldl_keeps (g := fun u => u.arr.releases) _ (fun u _ => addCmd_releases _ u) _ s
theorem recordRelease_only (n : Ns) (uid : Nat) (mb : Option Nat) (s : State) : ArrOnly s (recordRelease n uid mb s) :=
  ((onArr_only _ s).trans (addJob_only _ _)).trans (issue_only _ _)
/-- A release is recorded, and is a job of its command. -/
theorem recordRelease_spec (n : Ns) (uid mb : Nat) (s : State) :
    JobFor .release mb (recordRelease n uid (some mb) s) ∧ (uid, n.loc) ∈ (recordRelease n uid (some mb) s).arr.releases := by
  refine ⟨(addJob_jobFor (j := { kind := .release, ns := [n.id], mb := some mb }) rfl _).of_jobs (issue_jobs _ _), ?_⟩
  unfold recordRelease startRelease
  rw [issue_releases]
  exact List.mem_append_right _ (List.mem_singleton.mpr rfl)

/-! ### MEMBER_FAIL (R393) -/

theorem declareFailed_mci (id c : Nat) (s : State) : (declareFailed id c s).mci = s.mci := by
  unfold declareFailed
  split
  · rfl
  · split
    · rfl
    · exact (raise_frame _ _).mci
/-- A pool index that no namespace holds is FAILED: the fault is captured, and the array's mark update is due. -/
theorem failMissing_spec {s : State} {aid : Nat} {a : Arr} (h : s.array aid = some a) (p c : Nat) (mbs : List Nat) :
    (failMissing aid p c mbs s).fc.first.isSome ∧ MarkDue aid (failMissing aid p c mbs s) ∧ (failMissing aid p c mbs s).mci = s.mci := by
  simp only [failMissing, h]
  generalize hu : onArray aid (fun x => { x with causes := insert p c x.causes }) s = u
  have ha : u.array aid = some { a with causes := insert p c a.causes } := by
    rw [← hu]
    exact array_onArray_self (f := fun x => { x with causes := insert p c x.causes }) (fun _ => rfl) h
  have hm : u.mci = s.mci := by rw [← hu]; rfl
  rw [recordArray_eq]
  refine ⟨raise_first (by decide : (0x160 : Nat) < 512) rfl, (raise_grow _ _).markDue (startMark_markDue ha _ _), ?_⟩
  exact ((raise_frame _ _).mci.trans (startMark_only _ _ _ _).mci).trans hm

section
variable {mb i : Nat} {miss : Option Nat} {a : Arr} {p : Parse} {x : Mailbox} {u : State}

theorem memberFailAct_failed (hf : poolFields u x = (some a, i, miss, p)) (h : u.indexFailed a i = true) : memberFailAct mb x u = mciOk mb [] [] u := by
  simp only [memberFailAct, hf]
  exact if_pos h
theorem memberFailAct_member {n : Ns} (hf : poolFields u x = (some a, i, miss, p)) (h : ¬ u.indexFailed a i = true) (hn : u.memberAt a i = some n) :
    memberFailAct mb x u = declareFailed n.id 7 (mciWait mb [] [] u) := by
  simp only [memberFailAct, hf, hn]
  exact if_neg h
theorem memberFailAct_missing (hf : poolFields u x = (some a, i, miss, p)) (h : ¬ u.indexFailed a i = true) (hn : u.memberAt a i = none) :
    memberFailAct mb x u = failMissing a.id i 7 [mb] (mciWait mb [] [] u) := by
  simp only [memberFailAct, hf, hn]
  exact if_neg h
theorem replaceAct_eq {n : Ns} {m2 : Option Nat} {q : Parse} (hf : poolFields u x = (some a, i, miss, q)) (hl : locFields u q 3 16 = (some n, m2, p)) :
    replaceAct mb x u = startReplace a.id i n (some mb) (mciWait mb [] [] u) := by
  simp only [replaceAct, hf, hl]
theorem releaseAct_gone {c : Nat} {n : Ns} (hf : releaseFields u x = (some n, miss, c, p)) (h : memberStatus n = 0 ∨ memberStatus n = 5) :
    releaseAct mb x u = mciOk mb [] [] u := by
  simp only [releaseAct, hf]
  exact if_pos h
theorem releaseAct_starts {c : Nat} {n : Ns} (hf : releaseFields u x = (some n, miss, c, p)) (h : ¬ (memberStatus n = 0 ∨ memberStatus n = 5)) :
    releaseAct mb x u = recordRelease n n.ident.uid (some mb) (mciWait mb [] [] u) := by
  simp only [releaseAct, hf]
  exact if_neg h
end

/-- Settles O37: by the effect of each command, and the job or the mark update that it waits for. -/
theorem memberMciEffects : Obligations.MemberMciEffects := by
  unfold Obligations.MemberMciEffects
  refine ⟨?_, ?_, ?_, ?_, ?_, ?_, ?_, ?_⟩
  · intro mb s h
    exact row_reports h fun m => rfl
  · intro mb n miss jn v allow p s h hf hs
    refine row_completes h fun m hm => ?_
    obtain ⟨hj, a, b, he⟩ := adoptAct_waits (mb := mb) (u := { s with mci := m }) hf
    exact ⟨_, rfl, hm.waits hs rfl he, hj⟩
  · intro mb n miss c p s h hf hst
    exact row_reports h fun m => releaseAct_gone (u := { s with mci := m }) hf hst
  · intro mb n miss c p s h hf h0 h5 hs
    refine row_completes h fun m hm => ?_
    rw [releaseAct_starts (u := { s with mci := m }) hf (not_or.mpr ⟨h0, h5⟩)]
    obtain ⟨hj, hr⟩ := recordRelease_spec n n.ident.uid mb (mciWait mb [] [] { s with mci := m })
    exact ⟨_, rfl, hm.waits hs rfl (recordRelease_only _ _ _ _).mci, hj, hr⟩
  · intro mb a i miss p s h hf hi
    exact row_reports h fun m => memberFailAct_failed (u := { s with mci := m }) hf hi
  · intro mb a i miss p n s h hf hi hn hns ha hst hs
    refine row_completes h fun m hm => ?_
    rw [memberFailAct_member (u := { s with mci := m }) hf hi hn]
    have hd : n.declare = none ∧ n.failing = none := by
      simp only [State.indexFailed, hn, Option.map_some, Option.getD_some, Bool.or_eq_true, not_or, Option.isSome_iff_ne_none, Classical.not_not] at hi
      exact hi.2
    obtain ⟨h1, h2⟩ := declareFailed_declares (c := 7) (s := mciWait mb [] [] { s with mci := m }) hns ha (by simpa using hst) hd.1 hd.2
    exact ⟨_, rfl, hm.waits hs rfl (declareFailed_mci _ _ _), h1, h2⟩
  · intro mb a i miss p s h hf hi hn ha hs
    refine row_completes h fun m hm => ?_
    rw [memberFailAct_missing (u := { s with mci := m }) hf hi hn]
    obtain ⟨h1, h2, h3⟩ := failMissing_spec (s := mciWait mb [] [] { s with mci := m }) ha i 7 [mb]
    exact ⟨_, rfl, hm.waits hs rfl h3, h1, h2⟩
  · intro mb a i miss q n m2 p s h hf hl hs
    refine row_completes h fun m hm => ?_
    rw [replaceAct_eq (u := { s with mci := m }) hf hl]
    exact ⟨_, rfl, hm.waits hs rfl (startZero_only _ _ _ _ _ _ _).mci, startZero_jobFor _ _ _ _ _ _ _⟩

end Sys2Proof.Machine
end

section
/-! PROOF. The rebuild and scrub commands (R226 to R230). -/
namespace Sys2Proof.Machine

/-! ### Commands over every array that a field selects -/

/-- What each step brings about for its own element, and no step ends, holds of every element after the fold. -/
theorem foldl_reaches {α : Type} {I : State → Prop} {P : α → State → Prop} {f : State → α → State} {l : List α} {s : State}
    (hI : ∀ u a, I u → I (f u a)) (hself : ∀ u, I u → ∀ a ∈ l, P a (f u a)) (hkeep : ∀ u a b, P b u → P b (f u a)) (h : I s) :
    ∀ a ∈ l, P a (l.foldl f s) := by
  induction l generalizing s with
  | nil => intro a ha; exact absurd ha List.not_mem_nil
  | cons x l ih =>
    have hrest (b : α) : ∀ (l : List α) (u : State), P b u → P b (l.foldl f u) := by
      intro l
      induction l with
      | nil => intro u hu; exact hu
      | cons y l ih => intro u hu; exact ih _ (hkeep u y b hu)
    intro a ha
    rcases List.mem_cons.mp ha with rfl | hl
    · exact hrest a l _ (hself s h a List.mem_cons_self)
    · exact ih (fun u hu a ha => hself u hu a (List.mem_cons_of_mem _ ha)) (hI s x h) a hl

theorem selected_array {s : State} {n : Nat} {a : Arr} (h : a ∈ s.selected n) : (s.array a.id).isSome := by
  have hs : a ∈ s.inServiceArrays := by
    unfold State.selected at h
    split at h
    · exact h
    · exact (List.mem_filter.mp h).1
  exact List.find?_isSome.mpr ⟨a, (List.mem_filter.mp (List.mem_mergeSort.mp hs)).1, by simp⟩

/-! ### REBUILD_SET_POLICY (R227) -/

theorem rebuildPolicyFields_congr {s t : State} (h : t.polNext = s.polNext) (x : Mailbox) : rebuildPolicyFields t x = rebuildPolicyFields s x := by
  unfold rebuildPolicyFields
  rw [h]
theorem rebuildPolicyAct_eq {mb : Nat} {x : Mailbox} {s : State} {r : Policy × Parse} (h : rebuildPolicyFields s x = r) : ∃ applied,
    rebuildPolicyAct mb x s = mciOk mb [] [] (recordConfig 0x0402 applied { s with polNext := r.1 }) := by
  unfold rebuildPolicyAct
  rw [h]
  exact ⟨_, rfl⟩

/-! ### REBUILD_START (R203, R226) -/

/-- The arrays that REBUILD_START plans entries for. -/
def State.planned (s : State) (n : Nat) : List Arr := (s.selected n).filter (fun a => unplanned (s.markBase a) != [] && a.owner)
/-- REBUILD_START's mark update of one array, which completes mailbox `mb` when the array is the last. -/
def rebuildMark (s : State) (mb last : Nat) (u : State) (a : Arr) : State :=
  let u := startMark a.id (fun b => (unplanned b).foldl (fun b p => planIndex s a p b) b) (if a.id = last then [mb] else []) u
  if tableFull a.body then raise { source := 0x166 } u else u

theorem rebuildStartAct_none {mb : Nat} {x : Mailbox} {s : State} (h : s.planned (x.parse.array 1 0).1 = []) : rebuildStartAct mb x s = mciOk mb [] [] s := by
  unfold State.planned at h
  simp only [rebuildStartAct, h]
theorem rebuildStartAct_some {mb : Nat} {x : Mailbox} {s : State} (h : s.planned (x.parse.array 1 0).1 ≠ []) : ∃ last,
    rebuildStartAct mb x s = (s.planned (x.parse.array 1 0).1).foldl (rebuildMark s mb last) (mciWait mb [] [] s) := by
  refine ⟨((s.planned (x.parse.array 1 0).1).getLast?.map (·.id)).getD 0, ?_⟩
  unfold State.planned at h ⊢
  unfold rebuildStartAct
  generalize (s.selected (x.parse.array 1 0).1).filter (fun a => unplanned (s.markBase a) != [] && a.owner) = l at h ⊢
  cases l with
  | nil => exact absurd rfl h
  | cons a l => rfl

theorem rebuildMark_grow (s : State) (mb last : Nat) (u : State) (a : Arr) : MarksGrow u (rebuildMark s mb last u a) := by
  unfold rebuildMark
  dsimp only
  split
  · exact (startMark_grow _ _ _ u).trans (raise_grow _ _)
  · exact startMark_grow _ _ _ u
theorem rebuildMark_markDue (s : State) (mb last : Nat) {u : State} {a : Arr} (h : (u.array a.id).isSome) : MarkDue a.id (rebuildMark s mb last u a) := by
  obtain ⟨x, hx⟩ := Option.isSome_iff_exists.mp h
  unfold rebuildMark
  dsimp only
  split
  · exact (raise_grow _ _).markDue (startMark_markDue hx _ _)
  · exact startMark_markDue hx _ _
theorem rebuildMark_mci (s : State) (mb last : Nat) (u : State) (a : Arr) : (rebuildMark s mb last u a).mci = u.mci := by
  unfold rebuildMark
  dsimp only
  split
  · exact (raise_frame _ _).mci.trans (startMark_only _ _ _ _).mci
  · exact (startMark_only _ _ _ _).mci
theorem MarksGrow.array {s t : State} (h : MarksGrow s t) {aid : Nat} (ha : (s.array aid).isSome) : (t.array aid).isSome := by
  obtain ⟨a, ha⟩ := Option.isSome_iff_exists.mp ha
  obtain ⟨x, hx, -⟩ := h.arrays aid a ha
  rw [hx]; rfl
/-- Every array that is planned for gets its mark update. -/
theorem rebuildMarks_due (s : State) (mb last n : Nat) {u : State} (hu : u.arr = s.arr) :
    ∀ a ∈ s.planned n, MarkDue a.id ((s.planned n).foldl (rebuildMark s mb last) u) := by
  refine foldl_reaches (I := fun v => ∀ a ∈ s.planned n, (v.array a.id).isSome) (P := fun (a : Arr) v => MarkDue a.id v) ?_ ?_ ?_ ?_
  · exact fun v b hv a ha => (rebuildMark_grow s mb last v b).array (hv a ha)
  · exact fun v hv a ha => rebuildMark_markDue s mb last (hv a ha)
  · exact fun v b a hd => (rebuildMark_grow s mb last v b).markDue hd
  · intro a ha
    rw [State.array, hu]
    exact selected_array (List.mem_filter.mp ha).1

/-! ### Scrubs (R226, R229) -/

/-- A scrub by command runs over array `aid`. -/
def Scrubbed (aid : Nat) (t : State) : Prop := ∃ x ∈ t.arr.scrubs, x.array = aid ∧ x.patrol = false

theorem startScrub_self (aid : Nat) (fix : Bool) (first stop : Nat) (s : State) : Scrubbed aid (startScrub aid fix false first stop s) :=
  ⟨_, List.mem_append_right _ (List.mem_singleton.mpr rfl), rfl, rfl⟩
/-- A scrub that starts ends no other array's. -/
theorem Scrubbed.startScrub {a : Nat} {s : State} (h : Scrubbed a s) (b : Nat) (fix : Bool) (first stop : Nat) :
    Scrubbed a (startScrub b fix false first stop s) := by
  by_cases he : a = b
  · rw [he]; exact startScrub_self b fix first stop s
  · obtain ⟨x, hx, ha, hp⟩ := h
    exact ⟨x, List.mem_append_left _ (List.mem_filter.mpr ⟨hx, by simp [ha, he]⟩), ha, hp⟩
theorem startScrub_only (aid : Nat) (fix patrol : Bool) (first stop : Nat) (s : State) : ArrOnly s (startScrub aid fix patrol first stop s) := rfl
theorem endJob_scrubs (id : Nat) (s : State) : (endJob id s).arr.scrubs = s.arr.scrubs := rfl

/-- Only scrubs of arrays that the command does not select are left. -/
theorem scrubStopAct_scrubs (mb : Nat) (x : Mailbox) (s : State) : (scrubStopAct mb x s).arr.scrubs =
    s.arr.scrubs.filter (fun y => !((s.selected (x.parse.array 1 0).1).map (·.id)).contains y.array) :=
  foldl_keeps (g := fun u => u.arr.scrubs) (fun t (j : Job) => endJob j.id t) (fun u j => endJob_scrubs j.id u) _ _

/-- Settles O40: by the mark updates, scrubs and jobs of the arrays that the command selects. -/
theorem rebuildMciEffects : Obligations.RebuildMciEffects := by
  unfold Obligations.RebuildMciEffects
  refine ⟨?_, ?_, ?_, ?_, ?_, ?_, ?_⟩
  · intro mb s h
    exact row_reports h fun m => rfl
  · intro mb s h
    refine row_completes h fun m hm => ?_
    have hf := rebuildPolicyFields_congr (s := s) (t := { s with mci := m }) rfl (s.mb mb)
    generalize rebuildPolicyFields s (s.mb mb) = r at hf ⊢
    obtain ⟨applied, he⟩ := rebuildPolicyAct_eq (mb := mb) hf
    rw [he]
    exact ⟨_, done_eq rfl rfl rfl, rfl, rfl, hm.succeeds rfl _ _⟩
  · intro mb s h hn
    exact row_reports h fun m => rebuildStartAct_none (s := { s with mci := m }) hn
  · intro mb s h hs hn
    refine row_completes h fun m hm => ?_
    obtain ⟨last, he⟩ := rebuildStartAct_some (mb := mb) (s := { s with mci := m }) hn
    rw [he]
    exact ⟨_, rfl, hm.waits hs rfl (foldl_mci _ (fun u a => rebuildMark_mci _ _ _ u a) _ _),
      rebuildMarks_due { s with mci := m } mb last _ (u := mciWait mb [] [] { s with mci := m }) rfl⟩
  · intro mb n md f c p s h hf
    refine row_completes h fun m hm => ?_
    have hf' : scrubFields { s with mci := m } (s.mb mb) = (n, md, f, c, p) := hf
    simp only [scrubStartAct, hf']
    refine ⟨_, rfl, hm.succeeds (foldl_mci _ (fun u a => (startScrub_only _ _ _ _ _ u).mci) _ _) _ _, ?_⟩
    exact foldl_reaches (I := fun _ => True) (P := fun (a : Arr) v => Scrubbed a.id v) (fun _ _ _ => trivial) (fun u _ a _ => startScrub_self _ _ _ _ u)
      (fun u a b hb => hb.startScrub _ _ _ _) trivial
  · intro mb s h
    refine row_completes h fun m hm => ?_
    refine ⟨_, rfl, hm.succeeds (foldl_mci _ (fun u (j : Job) => (endJob_only j.id u).mci) _ _) _ _, ?_⟩
    intro x hx a ha he
    have hx' : x ∈ (scrubStopAct mb (s.mb mb) { s with mci := m }).arr.scrubs := hx
    rw [scrubStopAct_scrubs] at hx'
    have hn := (List.mem_filter.mp hx').2
    rw [he] at hn
    simp only [Bool.not_eq_true', List.contains_eq_mem, decide_eq_false_iff_not] at hn
    exact hn (List.mem_map_of_mem ha)
  · intro mb s h
    refine row_completes h fun m hm => ⟨_, done_eq rfl rfl rfl, rfl, _, hm.succeeds rfl _ _⟩

end Sys2Proof.Machine
end

section
/-! PROOF. The array commands (R395 to R403). -/
namespace Sys2Proof.Machine

/-! ### What a mark update leaves of an array -/

/-- The arrays of `t` are those of `s`, in service as they were. -/
def ServiceKept (s t : State) : Prop := ∀ y ∈ t.arr.arrays, ∃ x ∈ s.arr.arrays, x.id = y.id ∧ x.service = y.service

theorem ServiceKept.of_arrays {s t : State} (h : t.arr.arrays = s.arr.arrays) : ServiceKept s t := fun y hy => ⟨y, by rwa [← h], rfl, rfl⟩
theorem ServiceKept.trans {s t u : State} (a : ServiceKept s t) (b : ServiceKept t u) : ServiceKept s u := by
  intro z hz
  obtain ⟨y, hy, h1, h2⟩ := b z hz
  obtain ⟨x, hx, h3, h4⟩ := a y hy
  exact ⟨x, hx, h3.trans h1, h4.trans h2⟩
theorem onArray_service {f : Arr → Arr} (hi : ∀ x, (f x).id = x.id) (hs : ∀ x, (f x).service = x.service) (aid : Nat) (s : State) : ServiceKept s (onArray aid f s) := by
  intro y hy
  obtain ⟨x, hx, rfl⟩ := List.mem_map.mp hy
  refine ⟨x, hx, ?_⟩
  split
  · exact ⟨(hi x).symm, (hs x).symm⟩
  · exact ⟨rfl, rfl⟩
theorem addCmd_arrays (c : MCmd) (s : State) : (addCmd c s).arr.arrays = s.arr.arrays := rfl
theorem addJob_arrays (j : Job) (s : State) : (addJob j s).arr.arrays = s.arr.arrays := rfl
theorem issue_arrays (c : MCmd) (s : State) : (issue c s).arr.arrays = s.arr.arrays := by
  unfold issue
  exact foldl_keeps (g := fun u => u.arr.arrays) _ (fun u _ => addCmd_arrays _ u) _ s
theorem markGen_service (g aid : Nat) (s : State) : ServiceKept s (onArray aid (fun a => { a with markGen := g }) s) :=
  onArray_service (f := fun a => { a with markGen := g }) (fun _ => rfl) (fun _ => rfl) aid s
theorem launchMark_service (aid : Nat) (b : MarkBody) (mbs : List Nat) (s : State) : ServiceKept s (launchMark aid b mbs s) := by
  unfold launchMark
  split
  · exact .of_arrays rfl
  · exact ((ServiceKept.of_arrays (addJob_arrays _ s)).trans (markGen_service _ _ _)).trans
      (.of_arrays (foldl_keeps (g := fun u => u.arr.arrays) _ (fun u n => issue_arrays _ u) _ _))
/-- A mark update keeps the service of every array. -/
theorem startMark_service (aid : Nat) (f : MarkBody → MarkBody) (mbs : List Nat) (s : State) : ServiceKept s (startMark aid f mbs s) := by
  unfold startMark
  split
  · exact .of_arrays rfl
  · next a _ =>
    split
    · exact onArray_service (f := fun x => { x with markWaiting := some (f (s.markBase a)), markMbs := x.markMbs ++ mbs }) (fun _ => rfl) (fun _ => rfl) aid s
    · exact launchMark_service _ _ _ s
theorem mem_onArray {id : Nat} {f : Arr → Arr} {s : State} {y : Arr} (hy : y ∈ (onArray id f s).arr.arrays) (h : y.id = id) :
    ∃ x, y = f x := by
  obtain ⟨x, -, rfl⟩ := List.mem_map.mp hy
  by_cases hx : (x.id == id) = true
  · exact ⟨x, if_pos hx⟩
  · rw [if_neg hx] at h
    exact absurd (by simpa using h) hx

/-! ### ARRAY_CREATE, ARRAY_DELETE and ARRAY_EXPORT (R396, R398, R399) -/

section
variable {mb id : Nat} {a : Arr} {x : Mailbox} {u : State}

theorem createAct_zeroes (h : u.freeArrayId = some id) : ∃ inline b ranges,
    createAct mb x u = startZero 2 id 0 (some mb) b ranges (mciWait mb inline [] (tookFree (tookFree (tookFree u)))) := by
  simp only [createAct, h]
  exact ⟨_, _, _, rfl⟩

/-- An array that ARRAY_DELETE names is out of service, and its members have no place in it any more. -/
def leaving (mb : Nat) (a : Arr) (u : State) : State :=
  (onArray a.id (fun x => { x with service := 3, closeOut := 4, closeMb := mb }) (mciWait mb [] [] u)).onArr fun x =>
    { x with ns := mapIf x.ns (fun n => n.adopted && n.arrayUid == a.body.uid && !n.stale) (fun n => { n with poolIndex := 0xFFFF }) }
theorem deleteAct_eq (h : u.namedArray (x.parse.array 1 0).1 = some a) : deleteAct mb x u = startMark a.id (fun b => { b with uid := 0 }) [mb] (leaving mb a u) := by
  simp only [deleteAct, h]
  rfl
theorem leaving_array (h : u.array a.id = some a) : (leaving mb a u).array a.id = some { a with service := 3, closeOut := 4, closeMb := mb } :=
  array_onArray_self (s := mciWait mb [] [] u) (f := fun x => { x with service := 3, closeOut := 4, closeMb := mb }) (fun _ => rfl) h
theorem leaving_service : ∀ y ∈ (leaving mb a u).arr.arrays, y.id = a.id → y.service = 3 := by
  intro y hy hi
  obtain ⟨x, rfl⟩ := mem_onArray (s := mciWait mb [] [] u) (f := fun x => { x with service := 3, closeOut := 4, closeMb := mb }) hy hi
  rfl
theorem exportAct_eq (h : u.namedArray (x.parse.array 1 0).1 = some a) : exportAct mb x u =
    (onArray a.id (fun x => { x with service := 3, closeOut := 1, closeMb := mb }) (mciWait mb [] [] u)).onArr fun x =>
      { x with scrubs := x.scrubs.filter (fun y => y.array != a.id), mendQueue := x.mendQueue.filter (fun y => y.1 != a.id) } := by
  simp only [exportAct, h]
theorem arrayGetAct_eq (h : u.namedArray (x.parse.array 1 0).1 = some a) : arrayGetAct mb x u = mciOk mb (arrayGetBytes u a) (arrayGetOut u a) u := by
  simp only [arrayGetAct, h]
end

/-! ### ARRAY_IMPORT (R121, R400, R401) -/

theorem takeScan_arrays (f : ImportFind) (x : MarkScan) (s : State) : (takeScan f x s).arr.arrays = s.arr.arrays := rfl
theorem takeScan_mci (f : ImportFind) (x : MarkScan) (s : State) : (takeScan f x s).mci = s.mci := rfl
theorem importOne_length (force : Bool) (scans : List MarkScan) (acc : List ImportFind × State) (uid : Nat) :
    (importOne force scans acc uid).1.length = acc.1.length + 1 := by
  unfold importOne
  dsimp only
  split
  · simp
  · split
    · simp
    · split
      · simp
      · split <;> simp
theorem importOne_mci (force : Bool) (scans : List MarkScan) (acc : List ImportFind × State) (uid : Nat) :
    (importOne force scans acc uid).2.mci = acc.2.mci := by
  unfold importOne
  dsimp only
  split
  · rfl
  · split
    · rfl
    · split
      · rfl
      · split
        · rfl
        · rw [recordArray_eq]
          exact foldl_mci _ (fun u x => takeScan_mci _ x u) _ _

theorem importFold_length (force : Bool) (scans : List MarkScan) (l : List Nat) (acc : List ImportFind × State) :
    (l.foldl (importOne force scans) acc).1.length = acc.1.length + l.length := by
  induction l generalizing acc with
  | nil => rfl
  | cons u l ih => rw [List.foldl_cons, ih, importOne_length, List.length_cons]; omega
theorem importFold_mci (force : Bool) (scans : List MarkScan) (l : List Nat) (acc : List ImportFind × State) :
    (l.foldl (importOne force scans) acc).2.mci = acc.2.mci := by
  induction l generalizing acc with
  | nil => rfl
  | cons u l ih => exact (ih _).trans (importOne_mci force scans acc u)
/-- The output counts the arrays that were judged. -/
theorem importAct_spec (mb : Nat) (scans : List MarkScan) (x : Mailbox) (u : State) : ∃ out,
    out.take 2 = leBytes 2 (importUids u (importFields x).1 (u.importScans scans)).length ∧
    importAct mb scans x u = mciOk mb [] out ((importUids u (importFields x).1 (u.importScans scans)).foldl (importOne (importFields x).2.1 (u.importScans scans)) ([], u)).2 := by
  unfold importAct
  dsimp only
  refine ⟨_, ?_, rfl⟩
  rw [importFold_length, List.length_nil, Nat.zero_add]
  simp only [List.append_assoc]
  exact List.take_left' (leBytes_length 2 _)
/-- An array that is accepted enters recovery. -/
theorem importOne_accepts {force : Bool} {scans : List MarkScan} {uid id : Nat} {l : List ImportFind} {s : State}
    (hn : ¬ s.arr.arrays.any (fun a => a.body.uid == uid) = true) (hid : s.freeArrayId = some id)
    (hr : (judgeImport force uid (scans.filter (fun x => x.valid && x.body.uid == uid))).reason = 0)
    (hs : noSlot s (judgeImport force uid (scans.filter (fun x => x.valid && x.body.uid == uid))) = false) :
    ∃ x ∈ (importOne force scans (l, s) uid).2.arr.arrays, x.id = id ∧ x.importing = 1 := by
  unfold importOne
  dsimp only
  rw [if_neg hn, if_neg (not_not_intro hr), if_neg (by rw [hs]; exact Bool.false_ne_true), hid]
  dsimp only
  rw [recordArray_eq]
  dsimp only
  rw [foldl_keeps (g := fun u => u.arr.arrays) _ (fun u x => takeScan_arrays _ x u)]
  exact ⟨_, List.mem_append_right _ (List.mem_singleton.mpr rfl), rfl, rfl⟩

/-! ### ARRAY_EXPAND and ARRAY_MIGRATE (R402, R403) -/

/-- A migration begins by zeroing the members it adds; without any, by its mark update. -/
theorem migrateAct_waits {mb : Nat} {form : Bool} {x : Mailbox} {a : Arr} {u : State} (h : (migrateFields u x form).arr = some a) (ha : u.array a.id = some a) :
    (migrateAct mb x form u).mci = (mciWait mb [] [] u).mci ∧ (JobFor .zero mb (migrateAct mb x form u) ∨ MarkDue a.id (migrateAct mb x form u)) := by
  simp only [migrateAct, h]
  split
  · exact ⟨(startMark_only _ _ _ _).mci, .inr (startMark_markDue (s := mciWait mb [] [] (tookFree u)) ha _ _)⟩
  · exact ⟨(startZero_only _ _ _ _ _ _ _).mci, .inl (startZero_jobFor _ _ _ _ _ _ _)⟩
theorem migrateFields_congr {s t : State} (ha : t.arr = s.arr) (x : Mailbox) (form : Bool) : migrateFields t x form = migrateFields s x form := by
  have hn (n : Nat) : t.namedArray n = s.namedArray n := by unfold State.namedArray State.liveArrays; rw [ha]
  have hf : t.freeUid = s.freeUid := by funext u; unfold State.freeUid; rw [ha]
  unfold migrateFields
  simp only [hn, hf]

/-- Settles O38: by the effect of each command, and the job or the mark update that it waits for. -/
theorem arrayMciEffects : Obligations.ArrayMciEffects := by
  unfold Obligations.ArrayMciEffects
  refine ⟨?_, ?_, ?_, ?_, ?_, ?_, ?_, ?_⟩
  · intro mb id s h hid hs
    refine row_completes h fun m hm => ?_
    obtain ⟨inline, b, ranges, he⟩ := createAct_zeroes (mb := mb) (x := s.mb mb) (u := { s with mci := m }) hid
    rw [he]
    exact ⟨_, rfl, hm.waits hs rfl ((startZero_only _ _ _ _ _ _ _).mci.trans (mciWait_mci rfl)), startZero_jobFor _ _ _ _ _ _ _⟩
  · intro mb a s h hn ha hs
    refine row_completes h fun m hm => ?_
    rw [deleteAct_eq (u := { s with mci := m }) hn]
    refine ⟨_, rfl, hm.waits hs rfl (startMark_only _ _ _ _).mci, startMark_markDue (leaving_array (u := { s with mci := m }) ha) _ _, ?_⟩
    intro y hy hi
    obtain ⟨x, hx, h1, h2⟩ := startMark_service _ _ _ _ y hy
    exact h2.symm.trans (leaving_service x hx (h1.trans hi))
  · intro mb scans s h
    refine row_completes h fun m hm => ?_
    obtain ⟨out, ho, he⟩ := importAct_spec mb scans (s.mb mb) { s with mci := m }
    rw [he]
    exact ⟨_, rfl, out, succeeds_of_mci (hm.succeeds (importFold_mci _ _ _ _) [] out) rfl, ho⟩
  · intro mb scans u id s h hu hn hid hr hsl
    refine row_completes h fun m hm => ?_
    obtain ⟨out, -, he⟩ := importAct_spec mb scans (s.mb mb) { s with mci := m }
    have hu' : importUids { s with mci := m } (importFields (s.mb mb)).1 (State.importScans { s with mci := m } scans) = [u] := hu
    rw [he, hu']
    exact ⟨_, rfl, importOne_accepts (s := { s with mci := m }) hn hid hr hsl⟩
  · intro mb a s h hf ha hs
    refine row_completes h fun m hm => ?_
    rw [← migrateFields_congr (s := s) (t := { s with mci := m }) rfl] at hf
    obtain ⟨h1, h2⟩ := migrateAct_waits (mb := mb) hf ha
    exact ⟨_, rfl, hm.waits hs rfl h1, h2⟩
  · intro mb a s h hf ha hs
    refine row_completes h fun m hm => ?_
    rw [← migrateFields_congr (s := s) (t := { s with mci := m }) rfl] at hf
    obtain ⟨h1, h2⟩ := migrateAct_waits (mb := mb) hf ha
    exact ⟨_, rfl, hm.waits hs rfl h1, h2⟩
  · intro mb a s h hn
    exact row_reports h fun m => arrayGetAct_eq (u := { s with mci := m }) hn
  · intro mb a s h hn hs
    refine row_completes h fun m hm => ?_
    rw [exportAct_eq (u := { s with mci := m }) hn]
    refine ⟨_, rfl, hm.waits hs (u := { s with mci := m }) rfl rfl, ?_⟩
    intro y hy hi
    obtain ⟨x, rfl⟩ := mem_onArray (s := mciWait mb [] [] { s with mci := m }) (f := fun x => { x with service := 3, closeOut := 1, closeMb := mb }) hy hi
    exact ⟨rfl, rfl⟩

end Sys2Proof.Machine
end

section
/-! PROOF. The volume commands (R404 to R411). -/
namespace Sys2Proof.Machine

/-! ### The mark update of a change (R85) -/

/-- Noted changes of lost extents touch nothing else of a body. -/
theorem addLost_eq (es : List LostExt) (b : MarkBody) : ∃ l o, addLost es b = { b with lost := l, lostOverflow := o } := by
  have hfold (f : MarkBody → LostExt → MarkBody) (hf : ∀ b e, ∃ l o, f b e = { b with lost := l, lostOverflow := o }) :
      ∀ b, ∃ l o, es.foldl f b = { b with lost := l, lostOverflow := o } := by
    induction es with
    | nil => exact fun b => ⟨b.lost, b.lostOverflow, rfl⟩
    | cons e es ih =>
      intro b
      obtain ⟨l, o, he⟩ := hf b e
      obtain ⟨l', o', hr⟩ := ih (f b e)
      exact ⟨l', o', by rw [List.foldl_cons, hr, he]⟩
  unfold addLost
  dsimp only
  generalize hr : es.foldl _ b = r
  have hr' : ∃ l o, r = { b with lost := l, lostOverflow := o } := by
    rw [← hr]
    refine hfold _ (fun b e => ?_) b
    split
    · exact ⟨_, _, rfl⟩
    · split <;> exact ⟨_, _, rfl⟩
  obtain ⟨l, o, rfl⟩ := hr'
  split <;> exact ⟨_, _, rfl⟩
/-- A mark update that starts writes the changed body, one generation on. -/
theorem launchMark_body {s : State} {aid : Nat} {a : Arr} (h : s.array aid = some a) (b : MarkBody) (mbs : List Nat) :
    ∃ j ∈ (launchMark aid b mbs s).arr.jobs, j.kind = .mark ∧ j.array = aid ∧ j.mbs = mbs ∧ ∃ c, j.body = some c ∧
      c.volumeIdNext = b.volumeIdNext ∧ c.volumes = b.volumes ∧ c.gen = max a.markGen a.body.gen + 1 := by
  obtain ⟨l, o, he⟩ := addLost_eq a.pendingLost { b with gen := max a.markGen a.body.gen + 1 }
  simp only [launchMark, h]
  rw [foldl_jobs _ (fun u n => issue_jobs _ u)]
  exact ⟨_, List.mem_append_right _ (List.mem_singleton.mpr rfl), rfl, rfl, rfl, _, rfl, by rw [he], by rw [he], by rw [he]⟩
theorem startMark_free {s : State} {aid : Nat} {a : Arr} (h : s.array aid = some a) (hj : s.markJob aid = none) (hp : a.persisted = none)
    (hw : a.markWaiting = none) (f : MarkBody → MarkBody) (mbs : List Nat) : startMark aid f mbs s = launchMark aid (f a.body) mbs s := by
  simp only [startMark, h]
  rw [if_neg (by simp [hj, hp, hw])]

/-! ### Fields, which the mailbox alone does not change -/

theorem volCreateFields_congr {s t : State} (ha : t.arr = s.arr) (hb : t.twin = s.twin) (x : Mailbox) : volCreateFields t x = volCreateFields s x := by
  have hn (n : Nat) : t.namedArray n = s.namedArray n := by unfold State.namedArray State.liveArrays; rw [ha]
  have hm (a : Arr) : t.markBase a = s.markBase a := by unfold State.markBase State.markJob; rw [ha]
  have hs : t.nsids = s.nsids := by unfold State.nsids; rw [hb]
  unfold volCreateFields
  simp only [hn, hm, hs]
theorem volOf_congr {s t : State} (ha : t.arr = s.arr) (x : Mailbox) : volOf t x = volOf s x := by
  unfold volOf State.namedVolume State.liveVolumes State.liveArrays
  rw [ha]
theorem resizeFields_congr {s t : State} (ha : t.arr = s.arr) (x : Mailbox) : resizeFields t x = resizeFields s x := by
  have hm (a : Arr) : t.markBase a = s.markBase a := by unfold State.markBase State.markJob; rw [ha]
  unfold resizeFields
  simp only [volOf_congr ha, hm]
theorem setPolicyFields_congr {s t : State} (ha : t.arr = s.arr) (hp : t.pol = s.pol) (hc : t.coil = s.coil) (x : Mailbox) :
    setPolicyFields t x = setPolicyFields s x := by
  have hr (u v : Nat) : t.remoteTarget u v = s.remoteTarget u v := by unfold State.remoteTarget; rw [hp]
  unfold setPolicyFields
  simp only [volOf_congr ha, hr, hc]

/-! ### What each command does -/

section
variable {mb : Nat} {a : Arr} {v : Volume} {x : Mailbox} {u : State}

/-- The change of VOLUME_CREATE: a volume more, with its extents. -/
def withVolume (v : Volume) (es : List Extent) (b : MarkBody) : MarkBody :=
  { b with volumes := b.volumes ++ [v], extents := sortExtents (b.extents ++ es), volumeIdNext := b.volumeIdNext + 1 }
theorem volCreateAct_eq (h : (volCreateFields u x).arr = some a) : ∃ v es inline,
    volCreateAct mb x u = startMark a.id (withVolume v es) [mb] (mciWait mb inline [] (tookFree u)) := by
  simp only [volCreateAct, h]
  exact ⟨_, _, _, rfl⟩
theorem volDeleteAct_eq (h : volOf u x = some (a, v)) : volDeleteAct mb x u =
    onArray a.id (fun x => { x with limitsNext := insert v.id 0 x.limitsNext, volOp := some { vol := v.id, mb := mb } }) (mciWait mb [] [] u) := by
  simp only [volDeleteAct, h]
theorem resizeAct_same (h : volOf u x = some (a, v)) (hc : (resizeFields u x).1 = v.capacity) : resizeAct mb x u = mciOk mb [] [] u := by
  simp only [resizeAct, h]
  exact if_pos hc
theorem resizeAct_grows (h : volOf u x = some (a, v)) (hc : v.capacity < (resizeFields u x).1) : ∃ f,
    resizeAct mb x u = startMark a.id f [mb] (mciWait mb [] [] u) := by
  simp only [resizeAct, h]
  rw [if_neg (by omega), if_pos hc]
  exact ⟨_, rfl⟩
theorem resizeAct_shrinks (h : volOf u x = some (a, v)) (hc : (resizeFields u x).1 < v.capacity) : resizeAct mb x u =
    onArray a.id (fun y => { y with limitsNext := insert v.id (resizeFields u x).1 y.limitsNext,
                                    volOp := some { delete := false, vol := v.id, cap := (resizeFields u x).1, mb := mb } }) (mciWait mb [] [] u) := by
  simp only [resizeAct, h]
  rw [if_neg (by omega), if_neg (by omega)]

/-- The remote mirror target of a volume in a policy. -/
def retarget (a : Arr) (v : Volume) (node guid : Nat) (p : Policy) : Policy :=
  { p with remoteTargets := p.remoteTargets.filter (fun x => !(x.1 == a.body.uid && x.2.1 == v.id)) ++ [(a.body.uid, v.id, node, guid)] }
theorem mem_retarget (a : Arr) (v : Volume) (node guid : Nat) (p : Policy) : (a.body.uid, v.id, node, guid) ∈ (retarget a v node guid p).remoteTargets :=
  List.mem_append_right _ (List.mem_singleton.mpr rfl)
/-- The volume's remote target in force and stored. -/
def targeted (a : Arr) (v : Volume) (node guid : Nat) (u : State) : State :=
  { u with pol := retarget a v node guid u.pol, polNext := retarget a v node guid u.polNext }
theorem setPolicyAct_same (h : volOf u x = some (a, v)) (hp : (setPolicyFields u x).1 = v.policy.toNat) :
    setPolicyAct mb x u = mciOk mb [] [] (targeted a v (setPolicyFields u x).2.1 (setPolicyFields u x).2.2.1 u) := by
  simp only [setPolicyAct, h]
  exact if_pos hp
theorem setPolicyAct_changes (h : volOf u x = some (a, v)) (hp : (setPolicyFields u x).1 ≠ v.policy.toNat) : ∃ f node guid,
    setPolicyAct mb x u = startMark a.id f [mb] (mciWait mb [] [] (targeted a v node guid u)) := by
  simp only [setPolicyAct, h]
  rw [if_neg hp]
  exact ⟨_, _, _, rfl⟩
end

/-- Settles O39: by the effect of each command, and the mark update or the volume operation that it waits for. -/
theorem volumeMciEffects : Obligations.VolumeMciEffects := by
  unfold Obligations.VolumeMciEffects
  refine ⟨?_, ?_, ?_, ?_, ?_, ?_, ?_, ?_, ?_⟩
  · intro mb a s h hf ha hs
    refine row_completes h fun m hm => ?_
    rw [← volCreateFields_congr (s := s) (t := { s with mci := m }) rfl rfl] at hf
    obtain ⟨v, es, inline, he⟩ := volCreateAct_eq (mb := mb) hf
    rw [he]
    exact ⟨_, rfl, hm.waits hs rfl ((startMark_only _ _ _ _).mci.trans (mciWait_mci rfl)),
      startMark_markDue (s := mciWait mb inline [] (tookFree { s with mci := m })) ha _ _⟩
  · intro mb a s h hf ha hj hp hw
    refine row_completes h fun m hm => ?_
    rw [← volCreateFields_congr (s := s) (t := { s with mci := m }) rfl rfl] at hf
    obtain ⟨v, es, inline, he⟩ := volCreateAct_eq (mb := mb) hf
    rw [he, startMark_free (s := mciWait mb inline [] (tookFree { s with mci := m })) ha hj hp hw]
    obtain ⟨j, hj, h1, h2, h3, b, hb, h4, h5, h6⟩ := launchMark_body (s := mciWait mb inline [] (tookFree { s with mci := m })) ha (withVolume v es a.body) [mb]
    refine ⟨_, rfl, j, hj, h1, h2, h3, b, hb, h4, ?_, h6⟩
    rw [h5]
    exact List.length_append
  · intro mb a v s h hv hs
    refine row_completes h fun m hm => ?_
    rw [← volOf_congr (s := s) (t := { s with mci := m }) rfl] at hv
    rw [volDeleteAct_eq hv]
    refine ⟨_, rfl, hm.waits hs (u := { s with mci := m }) rfl rfl, ?_⟩
    intro y hy hi
    obtain ⟨x, rfl⟩ := mem_onArray (s := mciWait mb [] [] { s with mci := m })
      (f := fun x => { x with limitsNext := insert v.id 0 x.limitsNext, volOp := some { vol := v.id, mb := mb } }) hy hi
    rfl
  · intro mb a v s h hv hc
    exact row_reports h fun m => resizeAct_same ((volOf_congr rfl _).trans hv) ((congrArg Prod.fst (resizeFields_congr rfl _)).trans hc)
  · intro mb a v s h hv hc ha hs
    refine row_completes h fun m hm => ?_
    rw [← volOf_congr (s := s) (t := { s with mci := m }) rfl] at hv
    rw [← resizeFields_congr (s := s) (t := { s with mci := m }) rfl] at hc
    obtain ⟨f, he⟩ := resizeAct_grows (mb := mb) hv hc
    rw [he]
    exact ⟨_, rfl, hm.waits hs rfl (startMark_only _ _ _ _).mci, startMark_markDue (s := mciWait mb [] [] { s with mci := m }) ha _ _⟩
  · intro mb a v s h hv hc hs
    refine row_completes h fun m hm => ?_
    rw [← volOf_congr (s := s) (t := { s with mci := m }) rfl] at hv
    rw [← resizeFields_congr (s := s) (t := { s with mci := m }) rfl] at hc ⊢
    rw [resizeAct_shrinks hv hc]
    refine ⟨_, rfl, hm.waits hs (u := { s with mci := m }) rfl rfl, ?_⟩
    generalize (resizeFields { s with mci := m } (s.mb mb)).1 = c
    intro y hy hi
    obtain ⟨x, rfl⟩ := mem_onArray (s := mciWait mb [] [] { s with mci := m })
      (f := fun y => { y with limitsNext := insert v.id c y.limitsNext, volOp := some { delete := false, vol := v.id, cap := c, mb := mb } }) hy hi
    rfl
  · intro mb a v s h hv hp
    refine row_completes h fun m hm => ?_
    rw [← volOf_congr (s := s) (t := { s with mci := m }) rfl] at hv
    rw [← setPolicyFields_congr (s := s) (t := { s with mci := m }) rfl rfl rfl] at hp ⊢
    rw [setPolicyAct_same hv hp]
    exact ⟨_, done_eq rfl rfl rfl, hm.succeeds rfl _ _, mem_retarget _ _ _ _ _⟩
  · intro mb a v s h hv hp ha hs
    refine row_completes h fun m hm => ?_
    rw [← volOf_congr (s := s) (t := { s with mci := m }) rfl] at hv
    rw [← setPolicyFields_congr (s := s) (t := { s with mci := m }) rfl rfl rfl] at hp
    obtain ⟨f, node, guid, he⟩ := setPolicyAct_changes (mb := mb) hv hp
    rw [he]
    exact ⟨_, rfl, hm.waits hs (u := { s with mci := m }) rfl ((startMark_only _ _ _ _).mci.trans (mciWait_mci rfl)),
      startMark_markDue (s := mciWait mb [] [] (targeted a v node guid { s with mci := m })) ha _ _⟩
  · intro mb s h
    refine row_completes h fun m hm => ⟨_, done_eq rfl rfl rfl, rfl, _, _, hm.succeeds rfl _ _⟩

end Sys2Proof.Machine
end

section
/-! PROOF. Declustered placement (R61, R62). -/
namespace Sys2Proof.Machine

/-! ### The permutation of a round (R61) -/

theorem nth_getElem {α : Type} {l : List α} {i : Nat} (d : α) (h : i < l.length) : nth l i d = l[i] := by simp [nth, h]
theorem swapAt_perm {l : List Nat} {i j : Nat} (hi : i < l.length) (hj : j < l.length) : (swapAt l i j).Perm l := by
  unfold swapAt
  rw [nth_getElem 0 hi, nth_getElem 0 hj]
  exact List.set_set_perm hi hj
theorem shuffle_perm {i : Nat} {l : List Nat} (h : i < l.length) (st : BitVec 64) : (shuffle i st l).Perm l := by
  induction i generalizing st l with
  | zero => exact .refl l
  | succ i ih =>
    have hs : (swapAt l (i + 1) ((mix64 (st + gamma)).toNat % (i + 2))).Perm l := swapAt_perm h (Nat.lt_of_lt_of_le (Nat.mod_lt _ (Nat.succ_pos _)) h)
    exact (ih (by rw [hs.length_eq]; omega) _).trans hs
/-- Each member of the pool stands once in a round's permutation. -/
theorem permutation_perm (seed : BitVec 64) (r n : Nat) : (permutation seed r n).Perm (List.range n) := by
  unfold permutation
  cases n with
  | zero => exact .refl _
  | succ n => exact shuffle_perm (by simp) _

/-! ### The strips of a round, by their place in the permutation (R62) -/

/-- The strip at place `i` of a round's permutation. -/
def placedStrip (d : Desc) (r i : Nat) : Strip :=
  { j := i / descW d, q := (i % descW d + r) % descW d, loc := nth (permutation d.seed r d.n) i 0 }

/-- Rows of `w` places, one after the other, are the places in order. -/
theorem flatMap_range_rows {α : Type} (g : Nat → α) (w k : Nat) :
    (List.range k).flatMap (fun j => (List.range w).map (fun t => g (j * w + t))) = (List.range (k * w)).map g := by
  induction k with
  | zero => simp
  | succ k ih =>
    rw [List.range_succ, List.flatMap_append, ih, Nat.succ_mul, List.range_add, List.map_append, List.flatMap_singleton, List.map_map]
    rfl
theorem homeStrips_eq (d : Desc) (r : Nat) : homeStrips d r = (List.range (descS d * descW d)).map (placedStrip d r) := by
  rw [← flatMap_range_rows]
  unfold homeStrips
  refine congrArg List.flatten (List.map_congr_left fun j _ => List.map_congr_left fun t ht => ?_)
  have ht : t < descW d := List.mem_range.mp ht
  have hdiv : (j * descW d + t) / descW d = j := by
    rw [Nat.mul_comm, Nat.mul_add_div (Nat.zero_lt_of_lt ht), Nat.div_eq_of_lt ht, Nat.add_zero]
  have hmod : (j * descW d + t) % descW d = t := by rw [Nat.mul_comm, Nat.mul_add_mod, Nat.mod_eq_of_lt ht]
  simp only [placedStrip, hdiv, hmod]

/-- Role q stands at position (q − r) mod w. -/
theorem add_mod_eq_iff {t q w : Nat} (r : Nat) (ht : t < w) (hq : q < w) : (t + r) % w = q ↔ t = (q + w - r % w) % w := by
  have hr : r % w < w := Nat.mod_lt r (Nat.zero_lt_of_lt ht)
  rw [Nat.add_mod_eq_ite, Nat.mod_eq_of_lt ht]
  rcases Nat.lt_or_ge q (r % w) with hlt | hge
  · rw [Nat.mod_eq_of_lt (by omega : q + w - r % w < w)]
    split <;> omega
  · rw [show q + w - r % w = q - r % w + w by omega, Nat.add_mod_right, Nat.mod_eq_of_lt (by omega : q - r % w < w)]
    split <;> omega
theorem placedStrip_iff {d : Desc} {r i j q : Nat} (hw : 0 < descW d) (hq : q < descW d) :
    ((placedStrip d r i).j == j && (placedStrip d r i).q == q) = (i == j * descW d + (q + descW d - r % descW d) % descW d) := by
  rw [Bool.eq_iff_iff]
  simp only [placedStrip, Bool.and_eq_true, beq_iff_eq]
  rw [add_mod_eq_iff r (Nat.mod_lt i hw) hq]
  have hp : (q + descW d - r % descW d) % descW d < descW d := Nat.mod_lt _ hw
  constructor
  · rintro ⟨hj, ht⟩
    rw [← hj, ← ht, Nat.div_add_mod']
  · intro hi
    rw [hi, Nat.mul_comm, Nat.mul_add_div hw, Nat.mul_add_mod, Nat.div_eq_of_lt hp, Nat.mod_eq_of_lt hp]
    exact ⟨rfl, rfl⟩

theorem placedStrip_at {d : Desc} {r j q : Nat} (hw : 0 < descW d) (hq : q < descW d) : placedStrip d r (j * descW d + (q + descW d - r % descW d) % descW d) =
    { j := j, q := q, loc := nth (permutation d.seed r d.n) (j * descW d + (q + descW d - r % descW d) % descW d) 0 } := by
  have h := (placedStrip_iff (d := d) (r := r) (j := j) hw hq).trans (beq_self_eq_true _)
  simp only [Bool.and_eq_true, beq_iff_eq] at h
  obtain ⟨hj, hq⟩ := h
  show ({ j := (placedStrip d r _).j, q := (placedStrip d r _).q, loc := nth (permutation d.seed r d.n) _ 0 } : Strip) = _
  rw [hj, hq]

theorem nth_range_map_take (l : List Nat) {k : Nat} (h : k ≤ l.length) : (List.range k).map (fun i => nth l i 0) = l.take k := by
  apply List.ext_getElem
  · simp [h]
  · intro i h1 h2
    have hi : i < l.length := by simp at h2; omega
    simp [nth_getElem 0 hi]

/-- Settles O60: a round's strips stand in the order of its permutation. -/
theorem placement : Obligations.Placement := by
  unfold Obligations.Placement
  refine ⟨permutation_perm, ?_, ?_⟩
  · intro d r j q hw hj hq
    have hp : (q + descW d - r % descW d) % descW d < descW d := Nat.mod_lt _ hw
    have hmem : j * descW d + (q + descW d - r % descW d) % descW d < descS d * descW d := by
      have := Nat.mul_le_mul_right (descW d) (Nat.succ_le_of_lt hj)
      rw [Nat.succ_mul] at this
      omega
    have hfilter : (List.range (descS d * descW d)).filter ((fun x => x.j == j && x.q == q) ∘ placedStrip d r) =
        (List.range (descS d * descW d)).filter (· == j * descW d + (q + descW d - r % descW d) % descW d) :=
      List.filter_congr fun i _ => placedStrip_iff hw hq
    rw [homeStrips_eq, List.filter_map, hfilter, List.filter_beq, List.count_range, if_pos hmem, List.replicate_one,
      List.map_singleton, placedStrip_at hw hq]
  · intro d r
    have hlen : (permutation d.seed r d.n).length = d.n := by rw [(permutation_perm d.seed r d.n).length_eq, List.length_range]
    have hfit : descS d * descW d ≤ (permutation d.seed r d.n).length := by rw [hlen]; exact Nat.div_mul_le_self d.n (descW d)
    rw [homeStrips_eq]
    refine ⟨by simp, ?_⟩
    rw [List.map_map]
    have htake : (List.range (descS d * descW d)).map ((·.loc) ∘ placedStrip d r) = (permutation d.seed r d.n).take (descS d * descW d) :=
      nth_range_map_take _ hfit
    rw [htake]
    exact (List.take_sublist _ _).nodup ((permutation_perm d.seed r d.n).nodup_iff.mpr List.nodup_range)

end Sys2Proof.Machine
end
